-- ==== Sys2Proof/Word.lean ====
section
/-! DEFINITION. The words and register numbers of the Tirham architecture (R3, R47). -/

namespace Sys2Proof

/-- One byte. -/
abbrev Byte := BitVec 8
/-- One 64-bit scalar register, address or doubleword. -/
abbrev Word := BitVec 64
/-- A scalar register number, x0 to x31 (R47). -/
abbrev XReg := Fin 32
/-- A mask register number, m0 to m15 (R47). -/
abbrev MReg := Fin 16
/-- A vector register number, v0 to v63 (R47). -/
abbrev VReg := Fin 64

/-- `true` as one, `false` as zero. -/
def bit01 (b : Bool) : Nat := if b then 1 else 0

end Sys2Proof
end

