-- ==== Sys2Proof/Config.lean ====
section
/-! DEFINITION. What the spec leaves to the package or leaves open: constants without a body, so that no proof can
rest on a value of them (log entries 7, 9, 10, 18, 20). -/

namespace Sys2Proof.Config

/-- Core clock cycles that the step numbered `tick` takes (log entry 7; the spec gives bounds, no durations). -/
opaque stepCycles : Nat → Nat

/-- CSPTR as the runtime sets it at a placement: the address of the hart's spill area (R106, log entry 9). -/
opaque spillArea : Nat → Word

/-- A byte of a receiver's spill area while its round is not IDLE (R296). -/
opaque spillByte : Nat → Byte

/-- The modulus of an RSA-3072 key: 0 the test-kernel library, 1 debug tokens, 2 the RMA key, 3 the device identity,
4 the evaluation key, 5 firmware stages (log entry 18). -/
opaque rsaModulus : Nat → Nat

/-- The public exponent of an RSA-3072 key (log entry 18). -/
opaque rsaPublic : Nat → Nat

/-- The private exponent of a key the device holds (log entry 18). -/
opaque rsaPrivate : Nat → Nat

/-- The device serial number (R368). -/
opaque deviceId : Word

/-- The nonce the device issues for the debug request numbered `n` (R365). -/
opaque nonce : Nat → List Byte

/-- The digest of the failure record of boot stage `n` (R367). -/
opaque bootFailure : Nat → List Byte

/-- The working group to which a difference that no element shows is attributed, by the tick of the verdict (R202, log entry
38). -/
opaque verdictGroup : Nat → Nat

/-- Junction temperature and power telemetry of a die at a tick (R421). -/
opaque telemetry : Nat → Nat → Word

/-- What the reserve holds while the capacitors recharge, in 1/1024 of a microjoule, to be taken below E (R394). -/
opaque partialReserve : Nat → Nat

/-- Energy, in 1/1024 of a microjoule, of the shut-down that follows the endgame (R403, log entry 20). -/
opaque shutdownCost : Nat

/-- Energy, in 1/1024 of a microjoule, of a directory or seal write with its page walks (R403, log entry 20). -/
opaque sideCost : Nat

end Sys2Proof.Config
end

