-- ==== Sys2Proof/Syntax.lean ====
section
/-! DEFINITION. The instructions and events of the opcode table as syntax (R37 to R66; spec/opcode_table.json).
One constructor of `Instr` per row: the encoded instructions first met in the encoding tables, and the rows
that are events of the machine, which no instruction word decodes to. -/

namespace Sys2Proof

/-- A hart of the package: core number times four plus hart number, the value of HARTID [9:0] (R7, R278). -/
abbrev HartId := Fin 1024
/-- A core of the package: die times 64 plus core number (R7). -/
abbrev CoreId := Fin 256

/-- TVAL [19:16] of cause 0x01 (R56). -/
inductive IllegalReason where
  | noHeads | headerBits | gapWord | overflow | major | tailLength | function | reserved | register | range | csr
deriving DecidableEq, Repr

/-- The reason code of R56. -/
def IllegalReason.code : IllegalReason → Nat
  | .noHeads => 1 | .headerBits => 2 | .gapWord => 3 | .overflow => 4 | .major => 5 | .tailLength => 6
  | .function => 7 | .reserved => 8 | .register => 9 | .range => 10 | .csr => 11

/-- A memory scope (R5). -/
inductive Scope where
  | h | c | d | p | s
deriving DecidableEq, Repr

/-- The code of a `Scope`. -/
def Scope.code : Scope → Nat
  | .h => 0
  | .c => 1
  | .d => 2
  | .p => 3
  | .s => 4

/-- An element width code (R119). -/
inductive Width where
  | w8 | w16 | w32 | w64
deriving DecidableEq, Repr

/-- The code of a `Width`. -/
def Width.code : Width → Nat
  | .w8 => 0
  | .w16 => 1
  | .w32 => 2
  | .w64 => 3

/-- The `Width` of a 2-bit code. -/
def Width.ofCode : Nat → Width
  | 0 => .w8
  | 1 => .w16
  | 2 => .w32
  | _ => .w64

/-- Bits of an element width. -/
def Width.bits : Width → Nat
  | .w8 => 8
  | .w16 => 16
  | .w32 => 32
  | .w64 => 64

/-- Bytes of an element width. -/
def Width.bytes (w : Width) : Nat := w.bits / 8

/-- A floating format code of the vector families (R124). -/
inductive FFmt where
  | f32 | f64 | f16 | bf16
deriving DecidableEq, Repr

/-- The code of a `FFmt`. -/
def FFmt.code : FFmt → Nat
  | .f32 => 0
  | .f64 => 1
  | .f16 => 2
  | .bf16 => 3

/-- The `FFmt` of a 2-bit code. -/
def FFmt.ofCode : Nat → FFmt
  | 0 => .f32
  | 1 => .f64
  | 2 => .f16
  | _ => .bf16

/-- A rounding mode (R74). -/
inductive Rounding where
  | rne | rtz | rdn | rup
deriving DecidableEq, Repr

/-- The code of a `Rounding`. -/
def Rounding.code : Rounding → Nat
  | .rne => 0
  | .rtz => 1
  | .rdn => 2
  | .rup => 3

/-- The `Rounding` of a 2-bit code. -/
def Rounding.ofCode : Nat → Rounding
  | 0 => .rne
  | 1 => .rtz
  | 2 => .rdn
  | _ => .rup

/-- An access size code (R248). -/
inductive MemSize where
  | b1 | b2 | b4 | b8
deriving DecidableEq, Repr

/-- The code of a `MemSize`. -/
def MemSize.code : MemSize → Nat
  | .b1 => 0
  | .b2 => 1
  | .b4 => 2
  | .b8 => 3

/-- The `MemSize` of a 2-bit code. -/
def MemSize.ofCode : Nat → MemSize
  | 0 => .b1
  | 1 => .b2
  | 2 => .b4
  | _ => .b8

/-- Bytes of an access size. -/
def MemSize.bytes : MemSize → Nat
  | .b1 => 1
  | .b2 => 2
  | .b4 => 4
  | .b8 => 8

/-- The order field of an atomic (R247). -/
inductive MemOrder where
  | relaxed | aq | rl | ar
deriving DecidableEq, Repr

/-- The code of a `MemOrder`. -/
def MemOrder.code : MemOrder → Nat
  | .relaxed => 0
  | .aq => 1
  | .rl => 2
  | .ar => 3

/-- The `MemOrder` of a 2-bit code. -/
def MemOrder.ofCode : Nat → MemOrder
  | 0 => .relaxed
  | 1 => .aq
  | 2 => .rl
  | _ => .ar

/-- The condition of WAITM (R255). -/
inductive WaitCond where
  | eq | ne | geu | ltu
deriving DecidableEq, Repr

/-- The code of a `WaitCond`. -/
def WaitCond.code : WaitCond → Nat
  | .eq => 0
  | .ne => 1
  | .geu => 2
  | .ltu => 3

/-- The `WaitCond` of a 2-bit code. -/
def WaitCond.ofCode : Nat → WaitCond
  | 0 => .eq
  | 1 => .ne
  | 2 => .geu
  | _ => .ltu

/-- The axis of a reduction or scan (R147). -/
inductive Axis where
  | row | all
deriving DecidableEq, Repr

/-- The code of a `Axis`. -/
def Axis.code : Axis → Nat
  | .row => 0
  | .all => 1

/-- The `Axis` of a 1-bit code. -/
def Axis.ofCode : Nat → Axis
  | 0 => .row
  | _ => .all

/-- A value format of VTOPK and VSET (R158, R163). -/
inductive ValFmt where
  | f32 | f64 | f16 | bf16 | i32
deriving DecidableEq, Repr

/-- The code of a `ValFmt`. -/
def ValFmt.code : ValFmt → Nat
  | .f32 => 0
  | .f64 => 1
  | .f16 => 2
  | .bf16 => 3
  | .i32 => 4

/-- The second operand of an elementwise instruction: a vector register, or a scalar when SX = 1 (R122). -/
inductive VX where
  | v (r : VReg)
  | x (r : XReg)
deriving DecidableEq, Repr

/-- The designator of a `VX`. -/
def VX.code : VX → Nat
  | .v r => 64 + r.val
  | .x r => r.val

/-- The SX bit of a `VX`. -/
def VX.sx : VX → Nat
  | .v _ => 0
  | .x _ => 1

/-- A record of the exchange (R280); `kind` is KIND, with 0 DATA and 3 ORDER the two kinds that carry data. -/
structure XRecord where
  key : BitVec 32
  sender : BitVec 24
  kind : BitVec 4
  mc : Bool
  cmb : Bool
  seq : BitVec 32
  group : BitVec 8
  payload : List (BitVec 32)
  flags : BitVec 5
deriving DecidableEq, Repr

/-- What a recheck or reroll run delivered in place of what the primary run delivered (R202, R203): elements of destination
registers by tile position, mask bits, the scalar result, the gathered flags, the count and the VSTAT fields. -/
structure RunDiff where
  elems : List (VReg × Nat × Nat)
  mask : List (Nat × Bool)
  scalar : Option (BitVec 64)
  fflags : Option (BitVec 5)
  count : Option Nat
  order : Option (Option (Bool × Nat))
deriving DecidableEq, Repr

/-- What the two further runs of a rechecked entry delivered (R203). -/
structure Reruns where
  recheck : RunDiff
  reroll : RunDiff
deriving DecidableEq, Repr

/-- A test kernel as firmware loads it: its image, and the address of its first line (R215). -/
structure TestImage where
  bytes : List Byte
  entry : BitVec 64
deriving DecidableEq, Repr

/-- A boot stage as it is loaded: its image and its signature (R367). -/
structure BootStage where
  image : List Byte
  signature : List Byte
deriving DecidableEq, Repr

/-- What a reset finds: the energy of the reserve that a cold boot measures, and the boot stages (R367, R393). -/
structure BootLoad where
  energyMj : Nat
  stages : List BootStage
deriving DecidableEq, Repr

/-- What a remote access asks for (R356). -/
inductive RemoteOp where
  | load (size : MemSize)
  | store (bytes : List Byte)
  | atomic (op : Fin 9) (dbl : Bool) (operand : BitVec 64)
deriving DecidableEq, Repr

/-- A remote access entering the package: requester and local address (R356, R360). -/
structure RemoteReq where
  pkg : BitVec 17
  core : BitVec 8
  ctx : BitVec 16
  addr : Nat
  op : RemoteOp
deriving DecidableEq, Repr

/-- The debug states (R365). -/
inductive DebugState where
  | none | observe | invasive
deriving DecidableEq, Repr

/-- A word of a hart, or of its core, that no CSR and no register number names (R106, R166, R258, R265, R272, R321), as a debugger
reaches it: an entry of the call stack or their number; word `w` of a stream slot, plane `plane` of a chunk map, word `w` of a
weight slot, a byte of its values or scales, a position of its mask; an entry of a queue or their number; a gate (log entry 66). -/
inductive DebugPlace where
  | callEntry (i : Fin 32)
  | callCount
  | streamWord (slot : Fin 4) (w : Fin 8)
  | mapPlane (map : Fin 64) (plane : Fin 4)
  | weightWord (slot : Fin 2) (w : Fin 3)
  | weightByte (slot : Fin 2) (scale : Bool) (i : Nat)
  | weightMask (slot : Fin 2) (p : Nat)
  | queueCount (q : Fin 64)
  | queueWord (q : Fin 64) (i : Nat) (second : Bool)
  | gate (g : Fin 2048)
deriving DecidableEq, Repr

/-- What the management controller does to a hart for debug (R365): in INVASIVE it halts and steps, and it reads and
writes any register and memory; in OBSERVE it reads CSRs. -/
inductive DebugAction where
  | halt | step | release
  | readCsr (n : Fin 4096)
  | writeCsr (n : Fin 4096) (v : Word)
  | readScalar (r : XReg)
  | writeScalar (r : XReg) (v : Word)
  | readPc
  | writePc (v : Word)
  | readVector (r : VReg) (w : Width) (row el : Nat)
  | writeVector (r : VReg) (w : Width) (row el : Nat) (v : Word)
  | readMask (m : MReg) (p : Nat)
  | writeMask (m : MReg) (p : Nat) (b : Bool)
  | readPlace (p : DebugPlace)
  | writePlace (p : DebugPlace) (v : Word)
  | readMemory (pa size : Nat)
  | writeMemory (pa : Nat) (bytes : List Byte)
deriving DecidableEq, Repr

/-- Where an uncorrectable error arises (R379, R380). -/
inductive ErrorPlace where
  | home (granule : Nat)
  | cached (granule : Nat)
  | vectorRegister (h : HartId) (r : VReg)
  | weightSlot (h : HartId) (slot : Fin 2)
  | scalarRegister (h : HartId) (r : XReg)
  | maskRegister (h : HartId) (m : MReg)
  | callStack (h : HartId)
  | storeBuffer (h : HartId)
  | queue (core : CoreId) (q : Fin 64)
  | gate (core : CoreId) (g : Fin 2048)
deriving DecidableEq, Repr

/-- Two scalar sources and a destination (R95). -/
structure AluOps where
  d : XReg
  a : XReg
  b : XReg
deriving DecidableEq, Repr

/-- One scalar source and a destination (R95). -/
structure UnaryOps where
  d : XReg
  a : XReg
deriving DecidableEq, Repr

/-- A scalar source and a 25-bit signed immediate (R96). -/
structure ImmOps where
  d : XReg
  a : XReg
  imm : BitVec 25
deriving DecidableEq, Repr

/-- A scalar source and a 24-bit signed immediate (R96). -/
structure CmpImmOps where
  d : XReg
  a : XReg
  imm : BitVec 24
deriving DecidableEq, Repr

/-- A scalar source and a shift amount (R96). -/
structure ShiftImmOps where
  d : XReg
  a : XReg
  amount : Fin 64
deriving DecidableEq, Repr

/-- A destination and a 32-bit constant (R97). -/
structure ConstOps where
  d : XReg
  imm : BitVec 32
deriving DecidableEq, Repr

/-- Condition and two choices (R98). -/
structure SelOps where
  d : XReg
  c : XReg
  a : XReg
  b : XReg
deriving DecidableEq, Repr

/-- Base and signed 22-bit offset (R99). -/
structure LoadOps where
  d : XReg
  base : XReg
  off : BitVec 22
deriving DecidableEq, Repr

/-- Data, base and signed 19-bit offset (R100). -/
structure StoreOps where
  src : XReg
  base : XReg
  off : BitVec 19
deriving DecidableEq, Repr

/-- Acquire load (R248). -/
structure LdaqOps where
  d : XReg
  base : XReg
  size : MemSize
  sgn : Bool
  scope : Scope
  off : BitVec 8
deriving DecidableEq, Repr

/-- Release store (R249). -/
structure StrlOps where
  src : XReg
  base : XReg
  size : MemSize
  scope : Scope
  off : BitVec 8
deriving DecidableEq, Repr

/-- Scalar atomic (R250). -/
structure AmoOps where
  d : XReg
  addr : XReg
  src : XReg
  dbl : Bool
  scope : Scope
  ord : MemOrder
deriving DecidableEq, Repr

/-- Compare and swap (R252). -/
structure CasOps where
  d : XReg
  addr : XReg
  expect : XReg
  new : XReg
  dbl : Bool
  scope : Scope
  ord : MemOrder
deriving DecidableEq, Repr

/-- Compared registers and target (R44, R53). -/
structure BranchOps where
  a : XReg
  b : XReg
  loff : BitVec 10
  slot : Fin 32
deriving DecidableEq, Repr

/-- Target of a K-format transfer (R44). -/
structure JumpOps where
  loff : BitVec 27
  slot : Fin 32
deriving DecidableEq, Repr

/-- Mask test and target (R109). -/
structure MaskBranchOps where
  a : MReg
  loff : BitVec 10
  slot : Fin 32
deriving DecidableEq, Repr

/-- CSR access (R112). -/
structure CsrOps where
  d : XReg
  a : XReg
  csr : Fin 4096
deriving DecidableEq, Repr

/-- Wait on a memory word (R255). -/
structure WaitmOps where
  d : XReg
  addr : XReg
  cmp : XReg
  dbl : Bool
  cond : WaitCond
  scope : Scope
deriving DecidableEq, Repr

/-- Start address and length or count (R256, R257). -/
structure RangeOps where
  base : XReg
  len : XReg
deriving DecidableEq, Repr

/-- PREF with its level (R256). -/
structure PrefOps where
  base : XReg
  len : XReg
  lvl : Bool
deriving DecidableEq, Repr

/-- Queue and the two words pushed (R322). -/
structure QpushOps where
  q : Fin 64
  w0 : XReg
  w1 : XReg
deriving DecidableEq, Repr

/-- Queue, even destination pair and status (R322). -/
structure QpopOps where
  q : Fin 64
  d : XReg
  st : XReg
deriving DecidableEq, Repr

/-- Queue state (R322). -/
structure QstatOps where
  d : XReg
  q : Fin 64
deriving DecidableEq, Repr

/-- Gate initialisation (R273). -/
structure GinitOps where
  gate : XReg
  count : XReg
  scope : Scope
deriving DecidableEq, Repr

/-- Gate arrival (R273). -/
structure GarrOps where
  d : XReg
  gate : XReg
  count : XReg
  scope : Scope
deriving DecidableEq, Repr

/-- Gate wait (R273). -/
structure GwaitOps where
  gate : XReg
  phase : XReg
  scope : Scope
deriving DecidableEq, Repr

/-- Gate query (R273). -/
structure GqryOps where
  d : XReg
  gate : XReg
  scope : Scope
deriving DecidableEq, Repr

/-- Carried list, register count code and carried count (R116). -/
structure VcfgOps where
  list : XReg
  nv : Fin 4
  c : Fin 5
deriving DecidableEq, Repr

/-- Requested length and width (R119, R120). -/
structure SetvlOps where
  d : XReg
  a : XReg
  w : Width
deriving DecidableEq, Repr

/-- SETVL with its exit target (R121). -/
structure SetvlbOps where
  d : XReg
  a : XReg
  w : Width
  loff : BitVec 10
  slot : Fin 32
deriving DecidableEq, Repr

/-- Elementwise integer operation (R122). -/
structure ViaOps where
  d : VReg
  a : VReg
  b : VX
  w : Width
  m : MReg
deriving DecidableEq, Repr

/-- Elementwise unary integer operation (R122). -/
structure ViaUnaryOps where
  d : VReg
  a : VReg
  w : Width
  m : MReg
deriving DecidableEq, Repr

/-- Elementwise integer operation with an immediate (R123). -/
structure ViaiOps where
  d : VReg
  a : VReg
  w : Width
  imm : BitVec 16
deriving DecidableEq, Repr

/-- Elementwise floating operation with rounding (R124). -/
structure VfaOps where
  d : VReg
  a : VReg
  b : VX
  fmt : FFmt
  rm : Rounding
  m : MReg
deriving DecidableEq, Repr

/-- Elementwise floating operation without rounding (R124). -/
structure VfmmOps where
  d : VReg
  a : VReg
  b : VX
  fmt : FFmt
  m : MReg
deriving DecidableEq, Repr

/-- Fused multiply-add (R125). -/
structure VfmaOps where
  d : VReg
  a : VReg
  b : VX
  c : VReg
  fmt : FFmt
  rm : Rounding
  m : MReg
deriving DecidableEq, Repr

/-- Unary floating operation with rounding (R126). -/
structure VfuOps where
  d : VReg
  a : VReg
  fmt : FFmt
  rm : Rounding
  m : MReg
deriving DecidableEq, Repr

/-- Unary floating operation without rounding (R126). -/
structure VfuNrOps where
  d : VReg
  a : VReg
  fmt : FFmt
  m : MReg
deriving DecidableEq, Repr

/-- Conversion with raw format codes (R127). -/
structure VcvtOps where
  d : VReg
  a : VReg
  src : Fin 16
  dst : Fin 16
  rm : Rounding
  sat : Bool
  m : MReg
deriving DecidableEq, Repr

/-- Integer compare into a mask (R128). -/
structure VcmpOps where
  d : MReg
  a : VReg
  b : VX
  w : Width
  m : MReg
deriving DecidableEq, Repr

/-- Floating compare into a mask (R129). -/
structure VfcmpOps where
  d : MReg
  a : VReg
  b : VX
  fmt : FFmt
  m : MReg
deriving DecidableEq, Repr

/-- Select by a mask (R130). -/
structure VselOps where
  d : VReg
  a : VReg
  b : VX
  w : Width
  m : MReg
deriving DecidableEq, Repr

/-- Vector move (R131). -/
structure VmvOps where
  d : VReg
  a : VReg
  w : Width
  m : MReg
deriving DecidableEq, Repr

/-- Broadcast of a scalar (R131). -/
structure VbcastOps where
  d : VReg
  a : XReg
  w : Width
  m : MReg
deriving DecidableEq, Repr

/-- Element to scalar (R131). -/
structure VmvxsOps where
  d : XReg
  a : VReg
  pos : XReg
  w : Width
  sgn : Bool
deriving DecidableEq, Repr

/-- Scalar to element (R131). -/
structure VmvsxOps where
  d : VReg
  a : XReg
  pos : XReg
  w : Width
deriving DecidableEq, Repr

/-- Prefix count of a mask (R131). -/
structure ViotaOps where
  d : VReg
  a : MReg
  w : Width
  m : MReg
deriving DecidableEq, Repr

/-- Integer reduction (R147). -/
structure VredOps where
  d : VReg
  a : VReg
  axis : Axis
  w : Width
  m : MReg
deriving DecidableEq, Repr

/-- Integer sum reduction (R147). -/
structure VredSumOps where
  d : VReg
  a : VReg
  axis : Axis
  w : Width
  sat : Bool
  m : MReg
deriving DecidableEq, Repr

/-- Floating sum reduction (R147). -/
structure VredFsumOps where
  d : VReg
  a : VReg
  axis : Axis
  fmt : FFmt
  rm : Rounding
  m : MReg
deriving DecidableEq, Repr

/-- Floating minimum or maximum reduction (R147). -/
structure VredFmmOps where
  d : VReg
  a : VReg
  axis : Axis
  fmt : FFmt
  m : MReg
deriving DecidableEq, Repr

/-- Integer scan (R149). -/
structure VscanOps where
  d : VReg
  a : VReg
  axis : Axis
  w : Width
  m : MReg
deriving DecidableEq, Repr

/-- Floating sum scan (R149). -/
structure VscanFsumOps where
  d : VReg
  a : VReg
  axis : Axis
  fmt : FFmt
  rm : Rounding
  m : MReg
deriving DecidableEq, Repr

/-- Floating maximum scan (R149). -/
structure VscanFmaxOps where
  d : VReg
  a : VReg
  axis : Axis
  fmt : FFmt
  m : MReg
deriving DecidableEq, Repr

/-- Compress with its count (R151). -/
structure VcompressOps where
  d : VReg
  cnt : XReg
  a : VReg
  w : Width
  m : MReg
deriving DecidableEq, Repr

/-- Permutation of one source (R151). -/
structure VpermOps where
  d : VReg
  a : VReg
  w : Width
  m : MReg
deriving DecidableEq, Repr

/-- Gather by an index register (R151). -/
structure VgathrOps where
  d : VReg
  a : VReg
  idx : VReg
  w : Width
  m : MReg
deriving DecidableEq, Repr

/-- Slide or row broadcast by a scalar amount (R151). -/
structure VslideOps where
  d : VReg
  a : VReg
  k : XReg
  w : Width
  m : MReg
deriving DecidableEq, Repr

/-- Mask operation on two masks (R155). -/
structure MopOps where
  d : MReg
  a : MReg
  b : MReg
  m : MReg
deriving DecidableEq, Repr

/-- Mask complement (R155). -/
structure MnotOps where
  d : MReg
  a : MReg
  m : MReg
deriving DecidableEq, Repr

/-- Mask from a length (R155). -/
structure MsetOps where
  d : MReg
  a : XReg
  m : MReg
deriving DecidableEq, Repr

/-- Mask to a scalar (R155). -/
structure McntOps where
  d : XReg
  a : MReg
  m : MReg
deriving DecidableEq, Repr

/-- Vector load or store with a pitch or stride (R132). -/
structure VldOps where
  d : VReg
  base : XReg
  pitch : XReg
  w : Width
  m : MReg
deriving DecidableEq, Repr

/-- Indexed vector load or store (R135, R138). -/
structure VldxOps where
  d : VReg
  base : XReg
  idx : VReg
  w : Width
  m : MReg
deriving DecidableEq, Repr

/-- Vector atomic (R253). -/
structure VamoOps where
  d : VReg
  base : XReg
  idx : VReg
  dbl : Bool
  scope : Scope
  ord : MemOrder
  ret : Bool
  m : MReg
deriving DecidableEq, Repr

/-- Stream configuration (R259). -/
structure StraOps where
  d : VReg
  desc : XReg
  start : XReg
  slot : Fin 4
  w : Width
deriving DecidableEq, Repr

/-- Stream end (R259). -/
structure StroffOps where
  slot : Fin 4
deriving DecidableEq, Repr

/-- Stream position (R259). -/
structure StrposOps where
  d : XReg
  slot : Fin 4
deriving DecidableEq, Repr

/-- Matrix multiply with raw format codes (R170). -/
structure MmaOps where
  d : VReg
  a : VReg
  b : Option VReg
  bsrc : Bool
  wslot : Fin 2
  kmask : MReg
  cmask : MReg
  ta : Bool
  accf : Fin 4
  bfmt : Fin 16
  afmt : Fin 16
deriving DecidableEq, Repr

/-- Accumulator base and group size code (R169). -/
structure MzeroOps where
  d : VReg
  g : Fin 4
deriving DecidableEq, Repr

/-- Weight load with a raw format code (R184). -/
structure WbldOps where
  values : XReg
  scales : XReg
  fmt : Fin 16
  slot : Fin 2
  m : MReg
deriving DecidableEq, Repr

/-- Drain with raw format codes (R189). -/
structure MdrainOps where
  d : VReg
  a : VReg
  g : Fin 4
  sat : Bool
  rm : Rounding
  ofmt : Fin 16
  accf : Fin 4
  m : MReg
deriving DecidableEq, Repr

/-- Drain with a nonzero mask (R189). -/
structure MdrainZOps where
  d : VReg
  a : VReg
  z : MReg
  g : Fin 4
  sat : Bool
  rm : Rounding
  ofmt : Fin 16
  accf : Fin 4
  m : MReg
deriving DecidableEq, Repr

/-- Row sort (R157). -/
structure VsortOps where
  d : VReg
  a : VReg
  w : Width
  sgn : Bool
  desc : Bool
  m : MReg
deriving DecidableEq, Repr

/-- Top-k selection (R158). -/
structure VtopkOps where
  d : VReg
  cnt : XReg
  a : VReg
  k : XReg
  fmt : ValFmt
  nz : Bool
  m : MReg
deriving DecidableEq, Repr

/-- List merge (R162). -/
structure VmrgOps where
  d : VReg
  cnt : XReg
  a : VReg
  b : VReg
  lens : XReg
  w : Width
deriving DecidableEq, Repr

/-- List union or intersection (R163). -/
structure VsetOps where
  d : VReg
  cnt : XReg
  a : VReg
  b : VReg
  lens : XReg
  dz : Bool
  fmt : ValFmt
  rm : Rounding
deriving DecidableEq, Repr

/-- List union or intersection without rounding (R163). -/
structure VsetNrOps where
  d : VReg
  cnt : XReg
  a : VReg
  b : VReg
  lens : XReg
  dz : Bool
  fmt : ValFmt
deriving DecidableEq, Repr

/-- Segmented integer reduction (R164). -/
structure VsegrOps where
  d : VReg
  cnt : XReg
  a : VReg
  w : Width
  m : MReg
deriving DecidableEq, Repr

/-- Segmented floating sum (R164). -/
structure VsegrFsumOps where
  d : VReg
  cnt : XReg
  a : VReg
  fmt : FFmt
  rm : Rounding
  m : MReg
deriving DecidableEq, Repr

/-- Segmented floating minimum or maximum (R164). -/
structure VsegrFmmOps where
  d : VReg
  cnt : XReg
  a : VReg
  fmt : FFmt
  m : MReg
deriving DecidableEq, Repr

/-- Role opening (R294, R296). -/
structure XopenOps where
  round : XReg
  spill : XReg
  role : Fin 4
deriving DecidableEq, Repr

/-- Floor (R294). -/
structure XfloorOps where
  round : XReg
  floor : XReg
deriving DecidableEq, Repr

/-- Round state (R294). -/
structure XstatOps where
  d : XReg
  round : XReg
deriving DecidableEq, Repr

/-- Splitter proposal (R294). -/
structure XsplitOps where
  d : XReg
  round : XReg
  desc : XReg
deriving DecidableEq, Repr

/-- Record send (R300). -/
structure XsendOps where
  pay : Option VReg
  keys : VReg
  round : XReg
  m : MReg
deriving DecidableEq, Repr

/-- Multicast record send (R300). -/
structure XsendMcOps where
  pay : Option VReg
  keys : VReg
  round : XReg
  group : Fin 256
  m : MReg
deriving DecidableEq, Repr

/-- Record receive (R301). -/
structure XrecvOps where
  d : VReg
  cnt : XReg
  pay : Option VReg
  round : XReg
  nb : Bool
deriving DecidableEq, Repr

/-- Copy (R266); rsv is F [22:20]. -/
structure CpyOps where
  pitches : XReg
  src : XReg
  dst : XReg
  shape : XReg
  c0 : Fin 64
  csh : Fin 12
  scope : Scope
  map : Fin 64
  rsv : Fin 8
deriving DecidableEq, Repr

/-- Chunk wait (R271). -/
structure CmwaitOps where
  mask : XReg
  map : Fin 64
  plane : Bool
deriving DecidableEq, Repr

/-- Chunk test (R271). -/
structure CmtestOps where
  d : XReg
  mask : XReg
  map : Fin 64
  plane : Bool
deriving DecidableEq, Repr

/-- Chunk clear (R271). -/
structure CmclrOps where
  mask : XReg
  map : Fin 64
deriving DecidableEq, Repr

/-- The operations of VIA and VIAI on two operands (R122). -/
inductive ViaOp where
  | add | sub | mul | mulh | mulhu | min | max | minu | maxu | and | or | xor | andn | shl | shr | sra | adds | subs
  | absd
deriving DecidableEq, Repr

/-- The operations of VIA on one operand (R122). -/
inductive ViaUnaryOp where
  | popc | clz | ctz
deriving DecidableEq, Repr

/-- The rounding members of VFA (R124). -/
inductive VfaOp where
  | add | sub | mul | div
deriving DecidableEq, Repr

/-- The members of VFA that do not round (R124). -/
inductive VfmmOp where
  | min | max | sgnj
deriving DecidableEq, Repr

/-- The members of VFMA (R125). -/
inductive VfmaOp where
  | fma | fms | fnma | fnms
deriving DecidableEq, Repr

/-- The rounding members of VFU (R126). -/
inductive VfuOp where
  | sqrt | rcp | rsq | exp2 | log2
deriving DecidableEq, Repr

/-- The members of VFU that do not round (R126). -/
inductive VfuNrOp where
  | abs | neg | cls
deriving DecidableEq, Repr

/-- An integer condition (R53). -/
inductive Cond where
  | eq | ne | lt | ge | ltu | geu
deriving DecidableEq, Repr

/-- A floating condition (R129). -/
inductive FCond where
  | eq | ne | lt | le | gt | ge | un
deriving DecidableEq, Repr

/-- The integer reductions but for SUM (R147). -/
inductive RedOp where
  | sum | min | max | minu | maxu | and | or | xor
deriving DecidableEq, Repr

/-- The integer scans (R149). -/
inductive ScanOp where
  | sum | max | maxu
deriving DecidableEq, Repr

/-- The mask operations on two masks (R155). -/
inductive MopOp where
  | and | or | xor | andn
deriving DecidableEq, Repr

/-- The mask operations with a scalar result (R155). -/
inductive McntOp where
  | cnt | any | fst
deriving DecidableEq, Repr

/-- The read-modify-write operations (R250). -/
inductive AmoOp where
  | add | min | max | minu | maxu | and | or | xor | swp
deriving DecidableEq, Repr

/-- The dataflows (R170). -/
inductive Dataflow where
  | ip | op | rw
deriving DecidableEq, Repr

/-- The combine modes of VSET (R163). -/
inductive SetMode where
  | add | max | first | mul
deriving DecidableEq, Repr

/-- A vector-class instruction as it is posted to the VIQ (R8): the encoded instruction with its family's members
gathered under one constructor. -/
inductive VInstr where
  | vcfg (o : VcfgOps)
  | setvl (o : SetvlOps)
  | setvr (o : SetvlOps)
  | setvlb (o : SetvlbOps)
  | msets (a : XReg)
  | mzero (o : MzeroOps)
  | via (op : ViaOp) (o : ViaOps)
  | viaUnary (op : ViaUnaryOp) (o : ViaUnaryOps)
  | viai (op : ViaOp) (o : ViaiOps)
  | vfa (op : VfaOp) (o : VfaOps)
  | vfmm (op : VfmmOp) (o : VfmmOps)
  | vfma (op : VfmaOp) (o : VfmaOps)
  | vfu (op : VfuOp) (o : VfuOps)
  | vfuNr (op : VfuNrOp) (o : VfuNrOps)
  | vcvt (o : VcvtOps)
  | vcmp (c : Cond) (o : VcmpOps)
  | vfcmp (c : FCond) (o : VfcmpOps)
  | vsel (o : VselOps)
  | vmv (o : VmvOps)
  | vbcast (o : VbcastOps)
  | vmvxs (o : VmvxsOps)
  | vmvsx (o : VmvsxOps)
  | viota (o : ViotaOps)
  | vred (op : RedOp) (sat : Bool) (o : VredOps)
  | vredFsum (o : VredFsumOps)
  | vredFmm (isMax : Bool) (o : VredFmmOps)
  | vredi (isMax : Bool) (o : VredOps)
  | vredfi (isMax : Bool) (o : VredFmmOps)
  | vscan (op : ScanOp) (excl : Bool) (o : VscanOps)
  | vscanFsum (excl : Bool) (o : VscanFsumOps)
  | vscanFmax (excl : Bool) (o : VscanFmaxOps)
  | vcompress (o : VcompressOps)
  | vexpand (o : VpermOps)
  | vgathr (o : VgathrOps)
  | vslideup (o : VslideOps)
  | vslidedn (o : VslideOps)
  | vtrans (o : VpermOps)
  | vrowbc (o : VslideOps)
  | mop (op : MopOp) (o : MopOps)
  | mnot (o : MnotOps)
  | mset (o : MsetOps)
  | mcnt (op : McntOp) (o : McntOps)
  | vld (strided : Bool) (o : VldOps)
  | vldx (o : VldxOps)
  | vldff (o : VldOps)
  | vst (strided : Bool) (o : VldOps)
  | vstx (ordered : Bool) (o : VldxOps)
  | vamo (op : AmoOp) (o : VamoOps)
  | stra (indirect : Bool) (o : StraOps)
  | stroff (o : StroffOps)
  | strpos (o : StrposOps)
  | mma (df : Dataflow) (o : MmaOps)
  | wbld (o : WbldOps)
  | mdrain (z : Option MReg) (o : MdrainOps)
  | vsort (o : VsortOps)
  | vmrg (o : VmrgOps)
  | vset (inter : Bool) (mode : SetMode) (o : VsetOps)
  | vtopk (o : VtopkOps)
  | vsegr (op : RedOp) (o : VsegrOps)
  | vsegrFsum (o : VsegrFsumOps)
  | vsegrFmm (isMax : Bool) (o : VsegrFmmOps)
  | xopen (o : XopenOps)
  | xclose (round : XReg)
  | xfloor (o : XfloorOps)
  | xstat (o : XstatOps)
  | xsplit (o : XsplitOps)
  | xround (desc : XReg)
  | xsend (mc : Option (Fin 256)) (o : XsendOps)
  | xrecv (o : XrecvOps)
  | cpy (sh : Bool) (o : CpyOps)
  | cmwait (o : CmwaitOps)
  | cmtest (o : CmtestOps)
  | cmclr (o : CmclrOps)
deriving DecidableEq, Repr

/-- The instructions and events of the opcode table, in the table's order. -/
inductive Instr where
  /-- ADD -/
  | add (o : AluOps)
  /-- SUB -/
  | sub (o : AluOps)
  /-- AND -/
  | and (o : AluOps)
  /-- OR -/
  | or (o : AluOps)
  /-- XOR -/
  | xor (o : AluOps)
  /-- ANDN -/
  | andn (o : AluOps)
  /-- SHL -/
  | shl (o : AluOps)
  /-- SHR -/
  | shr (o : AluOps)
  /-- SRA -/
  | sra (o : AluOps)
  /-- ROL -/
  | rol (o : AluOps)
  /-- MUL -/
  | mul (o : AluOps)
  /-- MULH -/
  | mulh (o : AluOps)
  /-- MULHU -/
  | mulhu (o : AluOps)
  /-- DIV -/
  | div (o : AluOps)
  /-- DIVU -/
  | divu (o : AluOps)
  /-- REM -/
  | rem (o : AluOps)
  /-- REMU -/
  | remu (o : AluOps)
  /-- MIN -/
  | min (o : AluOps)
  /-- MAX -/
  | max (o : AluOps)
  /-- MINU -/
  | minu (o : AluOps)
  /-- MAXU -/
  | maxu (o : AluOps)
  /-- SLT -/
  | slt (o : AluOps)
  /-- SLTU -/
  | sltu (o : AluOps)
  /-- CLZ -/
  | clz (o : UnaryOps)
  /-- CTZ -/
  | ctz (o : UnaryOps)
  /-- POPC -/
  | popc (o : UnaryOps)
  /-- BSWAP -/
  | bswap (o : UnaryOps)
  /-- ADDI -/
  | addi (o : ImmOps)
  /-- ANDI -/
  | andi (o : ImmOps)
  /-- ORI -/
  | ori (o : ImmOps)
  /-- XORI -/
  | xori (o : ImmOps)
  /-- SLTI -/
  | slti (o : CmpImmOps)
  /-- SLTIU -/
  | sltiu (o : CmpImmOps)
  /-- SHLI -/
  | shli (o : ShiftImmOps)
  /-- SHRI -/
  | shri (o : ShiftImmOps)
  /-- SRAI -/
  | srai (o : ShiftImmOps)
  /-- ROLI -/
  | roli (o : ShiftImmOps)
  /-- LI -/
  | li (o : ConstOps)
  /-- LIH -/
  | lih (o : ConstOps)
  /-- SEL -/
  | sel (o : SelOps)
  /-- LDB -/
  | ldb (o : LoadOps)
  /-- LDBU -/
  | ldbu (o : LoadOps)
  /-- LDH -/
  | ldh (o : LoadOps)
  /-- LDHU -/
  | ldhu (o : LoadOps)
  /-- LDW -/
  | ldw (o : LoadOps)
  /-- LDWU -/
  | ldwu (o : LoadOps)
  /-- LDD -/
  | ldd (o : LoadOps)
  /-- STB -/
  | stb (o : StoreOps)
  /-- STH -/
  | sth (o : StoreOps)
  /-- STW -/
  | stw (o : StoreOps)
  /-- STD -/
  | std (o : StoreOps)
  /-- LDAQ -/
  | ldaq (o : LdaqOps)
  /-- STRL -/
  | strl (o : StrlOps)
  /-- AMOADD -/
  | amoadd (o : AmoOps)
  /-- AMOMIN -/
  | amomin (o : AmoOps)
  /-- AMOMAX -/
  | amomax (o : AmoOps)
  /-- AMOMINU -/
  | amominu (o : AmoOps)
  /-- AMOMAXU -/
  | amomaxu (o : AmoOps)
  /-- AMOAND -/
  | amoand (o : AmoOps)
  /-- AMOOR -/
  | amoor (o : AmoOps)
  /-- AMOXOR -/
  | amoxor (o : AmoOps)
  /-- AMOSWP -/
  | amoswp (o : AmoOps)
  /-- CAS -/
  | cas (o : CasOps)
  /-- BEQ -/
  | beq (o : BranchOps)
  /-- BNE -/
  | bne (o : BranchOps)
  /-- BLT -/
  | blt (o : BranchOps)
  /-- BGE -/
  | bge (o : BranchOps)
  /-- BLTU -/
  | bltu (o : BranchOps)
  /-- BGEU -/
  | bgeu (o : BranchOps)
  /-- JMP -/
  | jmp (o : JumpOps)
  /-- CALL -/
  | call (o : JumpOps)
  /-- JR -/
  | jr (target : XReg)
  /-- CALLR -/
  | callr (target : XReg)
  /-- RET -/
  | ret
  /-- BMANY -/
  | bmany (o : MaskBranchOps)
  /-- BMNONE -/
  | bmnone (o : MaskBranchOps)
  /-- NOP -/
  | nop
  /-- YIELD -/
  | yield
  /-- HALT -/
  | halt
  /-- ERET -/
  | eret
  /-- BRK -/
  | brk
  /-- TRAP -/
  | trap (code : BitVec 16)
  /-- ILLEGAL_INSTRUCTION: a slot that is not an instruction is fetched (R56). -/
  | illegalInstruction (reason : IllegalReason) (word : BitVec 16)
  /-- CSRRW -/
  | csrrw (o : CsrOps)
  /-- CSRRS -/
  | csrrs (o : CsrOps)
  /-- CSRRC -/
  | csrrc (o : CsrOps)
  /-- STRIPCTL_SEAL: the hart writes 1 to STRIPCTL.SEAL (R383). -/
  | stripctlSeal
  /-- VLGCAP_WRITE: EN = 0 is written to the VLGCAP of hart h (R388, R389). -/
  | vlgcapWrite (h : HartId) (byMc : Bool) (cause : BitVec 8)
  /-- TLBINV_ALL: the hart writes TLBINV with KIND = 0 (R353). -/
  | tlbinvAll
  /-- TLBINV_CONTEXT: the hart writes TLBINV with KIND = 1 (R353). -/
  | tlbinvContext (ctx : BitVec 16)
  /-- TLBINV_PAGE: the hart writes TLBINV with KIND = 2 (R353). -/
  | tlbinvPage (ctx : BitVec 16) (vpn : BitVec 41)
  /-- FENCE_SV -/
  | fenceSv
  /-- FENCE_VS -/
  | fenceVs
  /-- FENCE_VV -/
  | fenceVv
  /-- FENCE_ACQ -/
  | fenceAcq (scope : Scope)
  /-- FENCE_REL -/
  | fenceRel (scope : Scope)
  /-- FENCE_FULL -/
  | fenceFull (scope : Scope)
  /-- WAITM -/
  | waitm (o : WaitmOps)
  /-- WAITM_WAKE: the line a WAITM sleeps on is written (R255). -/
  | waitmWake (h : HartId)
  /-- WAITM_TIMEOUT: 65,536 cycles pass in a WAITM (R255). -/
  | waitmTimeout (h : HartId)
  /-- INVRDC -/
  | invrdc (o : RangeOps)
  /-- WBL2 -/
  | wbl2 (o : RangeOps)
  /-- INVL1 -/
  | invl1 (o : RangeOps)
  /-- PREF -/
  | pref (o : PrefOps)
  /-- PUBLISH -/
  | publish (o : RangeOps)
  /-- LAUNCH -/
  | launch (d record : XReg)
  /-- SEAL -/
  | seal (item length : XReg)
  /-- SEALQ -/
  | sealq (d item : XReg)
  /-- QPUSH -/
  | qpush (o : QpushOps)
  /-- QPUSH_WAKE: a blocked QPUSH finds room (R323). -/
  | qpushWake (h : HartId)
  /-- QPOP -/
  | qpop (o : QpopOps)
  /-- QPOP_WAKE: a sleeping QPOP is woken (R324). -/
  | qpopWake (h : HartId)
  /-- QTRYPOP -/
  | qtrypop (o : QpopOps)
  /-- QSTAT -/
  | qstat (o : QstatOps)
  /-- GINIT -/
  | ginit (o : GinitOps)
  /-- GARR -/
  | garr (o : GarrOps)
  /-- GWAIT -/
  | gwait (o : GwaitOps)
  /-- GWAIT_WAKE: the phase a hart waits on has flipped (R274). -/
  | gwaitWake (h : HartId)
  /-- GARW -/
  | garw (o : GarrOps)
  /-- GQRY -/
  | gqry (o : GqryOps)
  /-- VCFG -/
  | vcfg (o : VcfgOps)
  /-- SETVL -/
  | setvl (o : SetvlOps)
  /-- SETVR -/
  | setvr (o : SetvlOps)
  /-- SETVLB -/
  | setvlb (o : SetvlbOps)
  /-- STRIP_AUTO_CLOSE: 65,536 cycles after the strip opened (R24). -/
  | stripAutoClose (h : HartId)
  /-- STRIP_COMMIT_COMPLETE: the last vector-class entry of a committing strip has retired (R24). -/
  | stripCommitComplete (h : HartId)
  /-- VADD -/
  | vadd (o : ViaOps)
  /-- VSUB -/
  | vsub (o : ViaOps)
  /-- VMUL -/
  | vmul (o : ViaOps)
  /-- VMULH -/
  | vmulh (o : ViaOps)
  /-- VMULHU -/
  | vmulhu (o : ViaOps)
  /-- VMIN -/
  | vmin (o : ViaOps)
  /-- VMAX -/
  | vmax (o : ViaOps)
  /-- VMINU -/
  | vminu (o : ViaOps)
  /-- VMAXU -/
  | vmaxu (o : ViaOps)
  /-- VAND -/
  | vand (o : ViaOps)
  /-- VOR -/
  | vor (o : ViaOps)
  /-- VXOR -/
  | vxor (o : ViaOps)
  /-- VANDN -/
  | vandn (o : ViaOps)
  /-- VSHL -/
  | vshl (o : ViaOps)
  /-- VSHR -/
  | vshr (o : ViaOps)
  /-- VSRA -/
  | vsra (o : ViaOps)
  /-- VADDS -/
  | vadds (o : ViaOps)
  /-- VSUBS -/
  | vsubs (o : ViaOps)
  /-- VPOPC -/
  | vpopc (o : ViaUnaryOps)
  /-- VCLZ -/
  | vclz (o : ViaUnaryOps)
  /-- VCTZ -/
  | vctz (o : ViaUnaryOps)
  /-- VABSD -/
  | vabsd (o : ViaOps)
  /-- VADDI -/
  | vaddi (o : ViaiOps)
  /-- VSUBI -/
  | vsubi (o : ViaiOps)
  /-- VANDI -/
  | vandi (o : ViaiOps)
  /-- VORI -/
  | vori (o : ViaiOps)
  /-- VXORI -/
  | vxori (o : ViaiOps)
  /-- VSHLI -/
  | vshli (o : ViaiOps)
  /-- VSHRI -/
  | vshri (o : ViaiOps)
  /-- VSRAI -/
  | vsrai (o : ViaiOps)
  /-- VADDSI -/
  | vaddsi (o : ViaiOps)
  /-- VSUBSI -/
  | vsubsi (o : ViaiOps)
  /-- VFADD -/
  | vfadd (o : VfaOps)
  /-- VFSUB -/
  | vfsub (o : VfaOps)
  /-- VFMUL -/
  | vfmul (o : VfaOps)
  /-- VFDIV -/
  | vfdiv (o : VfaOps)
  /-- VFMIN -/
  | vfmin (o : VfmmOps)
  /-- VFMAX -/
  | vfmax (o : VfmmOps)
  /-- VFSGNJ -/
  | vfsgnj (o : VfmmOps)
  /-- VFMA -/
  | vfma (o : VfmaOps)
  /-- VFMS -/
  | vfms (o : VfmaOps)
  /-- VFNMA -/
  | vfnma (o : VfmaOps)
  /-- VFNMS -/
  | vfnms (o : VfmaOps)
  /-- VFSQRT -/
  | vfsqrt (o : VfuOps)
  /-- VFRCP -/
  | vfrcp (o : VfuOps)
  /-- VFRSQ -/
  | vfrsq (o : VfuOps)
  /-- VFEXP2 -/
  | vfexp2 (o : VfuOps)
  /-- VFLOG2 -/
  | vflog2 (o : VfuOps)
  /-- VFABS -/
  | vfabs (o : VfuNrOps)
  /-- VFNEG -/
  | vfneg (o : VfuNrOps)
  /-- VFCLASS -/
  | vfclass (o : VfuNrOps)
  /-- VCVT -/
  | vcvt (o : VcvtOps)
  /-- VCMPEQ -/
  | vcmpeq (o : VcmpOps)
  /-- VCMPNE -/
  | vcmpne (o : VcmpOps)
  /-- VCMPLT -/
  | vcmplt (o : VcmpOps)
  /-- VCMPGE -/
  | vcmpge (o : VcmpOps)
  /-- VCMPLTU -/
  | vcmpltu (o : VcmpOps)
  /-- VCMPGEU -/
  | vcmpgeu (o : VcmpOps)
  /-- VFCMPEQ -/
  | vfcmpeq (o : VfcmpOps)
  /-- VFCMPNE -/
  | vfcmpne (o : VfcmpOps)
  /-- VFCMPLT -/
  | vfcmplt (o : VfcmpOps)
  /-- VFCMPLE -/
  | vfcmple (o : VfcmpOps)
  /-- VFCMPGT -/
  | vfcmpgt (o : VfcmpOps)
  /-- VFCMPGE -/
  | vfcmpge (o : VfcmpOps)
  /-- VFCMPUN -/
  | vfcmpun (o : VfcmpOps)
  /-- VSEL -/
  | vsel (o : VselOps)
  /-- VMV -/
  | vmv (o : VmvOps)
  /-- VBCAST -/
  | vbcast (o : VbcastOps)
  /-- VMVXS -/
  | vmvxs (o : VmvxsOps)
  /-- VMVSX -/
  | vmvsx (o : VmvsxOps)
  /-- VIOTA -/
  | viota (o : ViotaOps)
  /-- VREDSUM -/
  | vredsum (o : VredSumOps)
  /-- VREDMIN -/
  | vredmin (o : VredOps)
  /-- VREDMAX -/
  | vredmax (o : VredOps)
  /-- VREDMINU -/
  | vredminu (o : VredOps)
  /-- VREDMAXU -/
  | vredmaxu (o : VredOps)
  /-- VREDAND -/
  | vredand (o : VredOps)
  /-- VREDOR -/
  | vredor (o : VredOps)
  /-- VREDXOR -/
  | vredxor (o : VredOps)
  /-- VREDFSUM -/
  | vredfsum (o : VredFsumOps)
  /-- VREDFMIN -/
  | vredfmin (o : VredFmmOps)
  /-- VREDFMAX -/
  | vredfmax (o : VredFmmOps)
  /-- VREDMINI -/
  | vredmini (o : VredOps)
  /-- VREDMAXI -/
  | vredmaxi (o : VredOps)
  /-- VREDFMINI -/
  | vredfmini (o : VredFmmOps)
  /-- VREDFMAXI -/
  | vredfmaxi (o : VredFmmOps)
  /-- VSCANSUM -/
  | vscansum (o : VscanOps)
  /-- VXSCANSUM -/
  | vxscansum (o : VscanOps)
  /-- VSCANMAX -/
  | vscanmax (o : VscanOps)
  /-- VXSCANMAX -/
  | vxscanmax (o : VscanOps)
  /-- VSCANMAXU -/
  | vscanmaxu (o : VscanOps)
  /-- VXSCANMAXU -/
  | vxscanmaxu (o : VscanOps)
  /-- VSCANFSUM -/
  | vscanfsum (o : VscanFsumOps)
  /-- VXSCANFSUM -/
  | vxscanfsum (o : VscanFsumOps)
  /-- VSCANFMAX -/
  | vscanfmax (o : VscanFmaxOps)
  /-- VXSCANFMAX -/
  | vxscanfmax (o : VscanFmaxOps)
  /-- VCOMPRESS -/
  | vcompress (o : VcompressOps)
  /-- VEXPAND -/
  | vexpand (o : VpermOps)
  /-- VGATHR -/
  | vgathr (o : VgathrOps)
  /-- VSLIDEUP -/
  | vslideup (o : VslideOps)
  /-- VSLIDEDN -/
  | vslidedn (o : VslideOps)
  /-- VTRANS -/
  | vtrans (o : VpermOps)
  /-- VROWBC -/
  | vrowbc (o : VslideOps)
  /-- MAND -/
  | mand (o : MopOps)
  /-- MOR -/
  | mor (o : MopOps)
  /-- MXOR -/
  | mxor (o : MopOps)
  /-- MANDN -/
  | mandn (o : MopOps)
  /-- MNOT -/
  | mnot (o : MnotOps)
  /-- MSET -/
  | mset (o : MsetOps)
  /-- MCNT -/
  | mcnt (o : McntOps)
  /-- MANY -/
  | many (o : McntOps)
  /-- MFST -/
  | mfst (o : McntOps)
  /-- VLD -/
  | vld (o : VldOps)
  /-- VLDS -/
  | vlds (o : VldOps)
  /-- VLDX -/
  | vldx (o : VldxOps)
  /-- VLDFF -/
  | vldff (o : VldOps)
  /-- VST -/
  | vst (o : VldOps)
  /-- VSTS -/
  | vsts (o : VldOps)
  /-- VSTX -/
  | vstx (o : VldxOps)
  /-- VSTX_O -/
  | vstxO (o : VldxOps)
  /-- VAMOADD -/
  | vamoadd (o : VamoOps)
  /-- VAMOMIN -/
  | vamomin (o : VamoOps)
  /-- VAMOMAX -/
  | vamomax (o : VamoOps)
  /-- VAMOMINU -/
  | vamominu (o : VamoOps)
  /-- VAMOMAXU -/
  | vamomaxu (o : VamoOps)
  /-- VAMOAND -/
  | vamoand (o : VamoOps)
  /-- VAMOOR -/
  | vamoor (o : VamoOps)
  /-- VAMOXOR -/
  | vamoxor (o : VamoOps)
  /-- VAMOSWP -/
  | vamoswp (o : VamoOps)
  /-- STRA -/
  | stra (o : StraOps)
  /-- STRX -/
  | strx (o : StraOps)
  /-- STROFF -/
  | stroff (o : StroffOps)
  /-- STRPOS -/
  | strpos (o : StrposOps)
  /-- STREAM_REFILL: the copy engine fetches stream elements ahead (R242, R262). -/
  | streamRefill (h : HartId) (slot : Fin 4) (count : Nat)
  /-- MMA_IP -/
  | mmaIp (o : MmaOps)
  /-- MMA_OP -/
  | mmaOp (o : MmaOps)
  /-- MMA_RW -/
  | mmaRw (o : MmaOps)
  /-- GRID_GRANT: the grid serves the next hart in rotation (R178). -/
  | gridGrant (core : CoreId)
  /-- MERGE_UNIT_GRANT: the merge unit serves the next hart in rotation (R160). -/
  | mergeUnitGrant (core : CoreId)
  /-- MZERO -/
  | mzero (o : MzeroOps)
  /-- MSETS -/
  | msets (a : XReg)
  /-- WBLD -/
  | wbld (o : WbldOps)
  /-- MDRAIN -/
  | mdrain (o : MdrainOps)
  /-- MDRAIN_Z -/
  | mdrainZ (o : MdrainZOps)
  /-- VSORT -/
  | vsort (o : VsortOps)
  /-- VMRG -/
  | vmrg (o : VmrgOps)
  /-- VUNIONADD -/
  | vunionadd (o : VsetOps)
  /-- VUNIONMAX -/
  | vunionmax (o : VsetNrOps)
  /-- VUNIONFST -/
  | vunionfst (o : VsetNrOps)
  /-- VINTERADD -/
  | vinteradd (o : VsetOps)
  /-- VINTERMAX -/
  | vintermax (o : VsetNrOps)
  /-- VINTERFST -/
  | vinterfst (o : VsetNrOps)
  /-- VINTERMUL -/
  | vintermul (o : VsetOps)
  /-- VTOPK -/
  | vtopk (o : VtopkOps)
  /-- VSEGRSUM -/
  | vsegrsum (o : VsegrOps)
  /-- VSEGRMIN -/
  | vsegrmin (o : VsegrOps)
  /-- VSEGRMAX -/
  | vsegrmax (o : VsegrOps)
  /-- VSEGRMINU -/
  | vsegrminu (o : VsegrOps)
  /-- VSEGRMAXU -/
  | vsegrmaxu (o : VsegrOps)
  /-- VSEGRFSUM -/
  | vsegrfsum (o : VsegrFsumOps)
  /-- VSEGRFMIN -/
  | vsegrfmin (o : VsegrFmmOps)
  /-- VSEGRFMAX -/
  | vsegrfmax (o : VsegrFmmOps)
  /-- XOPEN -/
  | xopen (o : XopenOps)
  /-- XCLOSE -/
  | xclose (round : XReg)
  /-- XFLOOR -/
  | xfloor (o : XfloorOps)
  /-- XSTAT -/
  | xstat (o : XstatOps)
  /-- XSPLIT -/
  | xsplit (o : XsplitOps)
  /-- XROUND -/
  | xround (desc : XReg)
  /-- XSEND -/
  | xsend (o : XsendOps)
  /-- XSEND_MC -/
  | xsendMc (o : XsendMcOps)
  /-- XRECV -/
  | xrecv (o : XrecvOps)
  /-- MERGE_POINT_EMIT: a merge point decides for one output port (R284). -/
  | mergePointEmit (ctx round : BitVec 16) (point port : Nat)
  /-- EXCEPTION_RECORD_ARRIVAL: an ORDER record reaches an exception buffer (R289). -/
  | exceptionRecordArrival (ctx round : BitVec 16) (recv : Nat) (r : XRecord)
  /-- MULTICAST_INGRESS_COPY: an ingress port copies a multicast record (R291). -/
  | multicastIngressCopy (ctx round : BitVec 16) (point input : Nat)
  /-- MULTICAST_HOLD_RELEASE: a held multicast copy leaves the hold buffer (R291). -/
  | multicastHoldRelease (ctx round : BitVec 16) (point input : Nat)
  /-- CPY -/
  | cpy (o : CpyOps)
  /-- CPY_SH -/
  | cpySh (o : CpyOps)
  /-- CHUNK_READ: a copy has read the source of one chunk (R267). -/
  | chunkRead (h : HartId) (map chunk : Fin 64)
  /-- CHUNK_LANDED: a copy has written the destination of one chunk (R267). -/
  | chunkLanded (h : HartId) (map chunk : Fin 64)
  /-- CMWAIT -/
  | cmwait (o : CmwaitOps)
  /-- CMTEST -/
  | cmtest (o : CmtestOps)
  /-- CMCLR -/
  | cmclr (o : CmclrOps)
  /-- VECTOR_GROUP_COMPLETE: the oldest unfinished VIQ entry completes one element group (R20). -/
  | vectorGroupComplete (h : HartId)
  /-- VIQ_RETIRE: the oldest VIQ entry retires (R8). -/
  | viqRetire (h : HartId)
  /-- RECHECK_RESOLUTION: a recheck entry is resolved (R203). -/
  | recheckResolution (h : HartId) (runs : Reruns)
  /-- RECHECK_PRIORITY_TIMEOUT: 4,096 cycles after the primary run of a recheck entry (R206). -/
  | recheckPriorityTimeout (h : HartId)
  /-- LANE_GROUP_RETIREMENT: firmware marks a lane group for retirement (R210). -/
  | laneGroupRetirement (core : CoreId) (group : Fin 8)
  /-- TEST_KERNEL_PLACEMENT: firmware places an in-field test kernel (R215). -/
  | testKernelPlacement (core : CoreId) (cls : Fin 23) (group : Fin 8) (image : TestImage) (signature : List Byte)
  /-- TEST_KERNEL_VERDICT: the output of a test kernel is judged (R215). -/
  | testKernelVerdict (core : CoreId) (cls : Fin 23) (group : Fin 8) (output expected : List Byte)
  /-- REMOTE_COPY_EXPIRY: 32,768 cycles after a remote line copy was filled (R222). -/
  | remoteCopyExpiry (inL1 : Bool) (unit line : Nat)
  /-- LAUNCHPORT_WRITE: the host writes LAUNCHPORTp (R33). -/
  | launchportWrite (p : Fin 8) (v : BitVec 64)
  /-- LPSTAT_ERR_CLEAR: the host writes LPSTAT.ERR (R34). -/
  | lpstatErrClear (mask : BitVec 8)
  /-- SCHEDULER_TAKE_RECORD: the scheduler reads and decides one launch record (R29). -/
  | schedulerTakeRecord
  /-- LAUNCH_PLACEMENT: the launch at the head of the placement queue is placed (R313). -/
  | launchPlacement
  /-- PREEMPT_REQUEST: the scheduler requests a yield for the head launch (R331). -/
  | preemptRequest
  /-- FORCED_SAVE: PREQ.LEFT of a hart reaches 0 (R334). -/
  | forcedSave (h : HartId)
  /-- SAVE_COMPLETION: the save of a hart completes (R336). -/
  | saveCompletion (h : HartId)
  /-- LAUNCH_RESTORE: a saved launch at the head of the queue is restored (R337). -/
  | launchRestore
  /-- STAGE_SCHEDULER_EVALUATION: the stage scheduler of a die evaluates its stages (R317 to R319). -/
  | stageSchedulerEvaluation (die : Fin 4)
  /-- LAUNCH_COMPLETION: a launch completes (R31, R320). -/
  | launchCompletion (seq : Nat)
  /-- REMOVAL_HART_TIMEOUT: 600,000 cycles after the cause 0x1B of a hart (R389). -/
  | removalHartTimeout (h : HartId)
  /-- REMOVAL_COMPLETE: the removal of a launch ends (R390). -/
  | removalComplete (seq : Nat)
  /-- TLBINVR_ALL: TLBINVR is written with KIND = 0 (R353). -/
  | tlbinvrAll
  /-- TLBINVR_CONTEXT: TLBINVR is written with KIND = 1 (R353). -/
  | tlbinvrContext (ctx : BitVec 16)
  /-- TLBINVR_PAGE: TLBINVR is written with KIND = 2 (R353). -/
  | tlbinvrPage (ctx : BitVec 16) (vpn : BitVec 41)
  /-- TLB_INVALIDATION_COMPLETE: no TLB of the package holds a matching entry (R353). -/
  | tlbInvalidationComplete
  /-- HOST_MEM_READ: the host reads device memory (R413). -/
  | hostMemRead (addr : Nat) (size : Fin 65)
  /-- HOST_MEM_WRITE: the host writes device memory (R413). -/
  | hostMemWrite (addr : Nat) (bytes : List Byte)
  /-- REMOTE_ACCESS_INGRESS: another package reaches memory of this one (R356). -/
  | remoteAccessIngress (req : RemoteReq)
  /-- VIOLATION_LOG_CLEAR: the management controller clears a violation log (R360). -/
  | violationLogClear (target : Fin 11)
  /-- REMOTE_ACCESS_TIMEOUT: 2^20 cycles after a remote access without a path (R391). -/
  | remoteAccessTimeout (h : HartId)
  /-- LINK_LANE_LOSS: a fabric link loses lanes (R391). -/
  | linkLaneLoss (port : Fin 32) (all : Bool)
  /-- LINK_RETRAIN_COMPLETE: a link has retrained to 2 lanes (R391). -/
  | linkRetrainComplete (port : Fin 32)
  /-- REGISTER_WRITE: the host writes an F-die register (R415). -/
  | registerWrite (off : Nat) (v : BitVec 64)
  /-- PWRCTL_P0: PWRCTL.REQ is written 0 (R419). -/
  | pwrctlP0
  /-- PWRCTL_P1: PWRCTL.REQ is written 1 (R419). -/
  | pwrctlP1
  /-- PWRCTL_RET: PWRCTL.REQ is written 2 (R419). -/
  | pwrctlRet
  /-- PWRCTL_OFF: PWRCTL.REQ is written 3 (R419). -/
  | pwrctlOff
  /-- PWRSTAT_ERR_CLEAR: 1 is written to PWRSTAT.ERR (R415). -/
  | pwrstatErrClear
  /-- POWER_TRANSITION_COMPLETE: a power transition completes (R419). -/
  | powerTransitionComplete
  /-- AUTO_P0_ENTRY: the package enters P0 without a host write (R419). -/
  | autoP0Entry
  /-- THERMAL_THROTTLE: a die exceeds its temperature or heat-flux limit (R420). -/
  | thermalThrottle (die : Fin 4)
  /-- THROTTLE_RELEASE: 10 ms after every die is within its limits (R420). -/
  | throttleRelease
  /-- THERMAL_TRIP: 120 degrees Celsius (R420). -/
  | thermalTrip
  /-- PACKAGE_RESET: the package leaves reset (R416, R393). -/
  | packageReset (cold : Bool) (boot : BootLoad)
  /-- SDIE_SELF_TEST_PASS: the S-dies of a die pass their self-test (R416). -/
  | sdieSelfTestPass (die : Fin 4)
  /-- BULK_TRAINING_COMPLETE: the LPDDR of a die is trained (R416). -/
  | bulkTrainingComplete (die : Fin 4)
  /-- PORT_TRAINED: a fabric port is trained (R415). -/
  | portTrained (port : Fin 32)
  /-- CXL_LINK_UP: the CXL link is up (R415). -/
  | cxlLinkUp
  /-- DIE_FULL_SERVICE: a die enters full service (R416). -/
  | dieFullService (die : Fin 4)
  /-- RECHARGE_COMPLETE: the hold-up capacitors are recharged (R394). -/
  | rechargeComplete
  /-- UNDERVOLTAGE_DETECT: the undervoltage detector fires (R401). -/
  | undervoltageDetect
  /-- SUPPLY_OUT_OF_SPEC: the supply leaves specification inside the window (R401). -/
  | supplyOutOfSpec
  /-- POWER_FAIL_WINDOW_END: the power-fail window ends (R402). -/
  | powerFailWindowEnd
  /-- HOLDUP_ENGINE_WRITE: the hold-up engine makes its next 64-byte write (R403). -/
  | holdupEngineWrite
  /-- MB_ATTESTATION: mailbox service 0x01 (R368). -/
  | mbAttestation (nonce : List Byte)
  /-- MB_EXTEND_MR: mailbox service 0x02 (R367). -/
  | mbExtendMr (index : Fin 8) (digest : List Byte)
  /-- MB_WRITE_ACCESS_ENTRY: mailbox service 0x03 (R358). -/
  | mbWriteAccessEntry (target : Fin 11) (cls : Fin 5) (entry : Fin 64) (w0 w1 : BitVec 64)
  /-- MB_REMOVE_LAUNCH: mailbox service 0x04 (R389). -/
  | mbRemoveLaunch (seq : BitVec 16)
  /-- MB_DISCARD_SLOT: mailbox service 0x05 (R407). -/
  | mbDiscardSlot (slot : Fin 64)
  /-- MB_DEBUG_REQUEST: mailbox service 0x06 (R365). -/
  | mbDebugRequest (state : DebugState) (token : List Byte)
  /-- MB_ENTER_RMA: mailbox service 0x07 (R364). -/
  | mbEnterRma (command : List Byte)
  /-- MBSTAT_CLEAR: W1C bits of MBSTAT are written (R422). -/
  | mbstatClear (mask : BitVec 2)
  /-- DEBUG_HALT: the management controller acts on a hart for debug (R365). -/
  | debugHalt (h : HartId) (action : DebugAction)
  /-- UNCORRECTABLE_ERROR: an uncorrectable error arises in storage (R379). -/
  | uncorrectableError (place : ErrorPlace)
  /-- MANUFACTURE_TO_SECURE: the lifecycle changes from MANUFACTURE to SECURE (R364). -/
  | manufactureToSecure
deriving DecidableEq, Repr

end Sys2Proof
end

