-- ==== Sys2Proof/WellFormed.lean ====
section
/-! DEFINITION. The operand checks of R48 and R56 that the types of `Instr` do not already make: a term that fails
one has no encoding, and no word decodes to it. Range checks against NV are made at issue. -/

namespace Sys2Proof

/-- The even member of a register pair (R140). -/
def evenPair (r : VReg) : Bool := r.val % 2 == 0

/-- SGN must be 0 at a size of 8 bytes (R248). -/
def LdaqOps.wellFormed (o : LdaqOps) : Bool := !(o.sgn && o.size == .b8)

/-- QPOP's destination is even and not x0 (R322). -/
def QpopOps.wellFormed (o : QpopOps) : Bool := o.d.val % 2 == 0 && o.d.val != 0

/-- The approximating members exist in .f32 and .bf16 only (R126). -/
def VfuOps.narrow (o : VfuOps) : Bool := o.fmt == .f32 || o.fmt == .bf16

/-- The rounding field must be 0 with .i32 (R163). -/
def VsetOps.wellFormed (o : VsetOps) : Bool :=
  evenPair o.d && evenPair o.a && evenPair o.b && !(o.fmt == .i32 && o.rm != .rne)

/-- B is a register when BSRC = 0, and then WSLOT is 0 (R170). -/
def MmaOps.wellFormed (o : MmaOps) : Bool := o.bsrc || (o.b.isSome && o.wslot == 0)

/-- The scale base is x0 for .bf16 and .f16 and not x0 for the scaled formats (R184). -/
def WbldOps.wellFormed (o : WbldOps) : Bool :=
  if o.fmt.val = 2 ∨ o.fmt.val = 3 then o.scales == 0
  else if o.fmt.val = 4 ∨ o.fmt.val = 5 ∨ o.fmt.val = 6 then o.scales != 0 else true

/-- Whether the term is an instruction that some head and tail encode, or an event. -/
def Instr.wellFormed : Instr → Bool
  | .ldaq o => o.wellFormed
  | .qpop o => o.wellFormed
  | .qtrypop o => o.wellFormed
  | .vfrcp o => o.narrow
  | .vfrsq o => o.narrow
  | .vfexp2 o => o.narrow
  | .vflog2 o => o.narrow
  | .vredmini o => evenPair o.d
  | .vredmaxi o => evenPair o.d
  | .vredfmini o => evenPair o.d
  | .vredfmaxi o => evenPair o.d
  | .mmaIp o => o.wellFormed
  | .mmaOp o => o.wellFormed
  | .mmaRw o => o.wellFormed
  | .wbld o => o.wellFormed
  | .vsort o => evenPair o.d
  | .vtopk o => evenPair o.d
  | .vmrg o => evenPair o.d && evenPair o.a && evenPair o.b
  | .vunionadd o => o.wellFormed
  | .vinteradd o => o.wellFormed
  | .vintermul o => o.wellFormed
  | .vunionmax o => evenPair o.d && evenPair o.a && evenPair o.b
  | .vunionfst o => evenPair o.d && evenPair o.a && evenPair o.b
  | .vintermax o => evenPair o.d && evenPair o.a && evenPair o.b
  | .vinterfst o => evenPair o.d && evenPair o.a && evenPair o.b
  | .vsegrsum o => evenPair o.d && evenPair o.a
  | .vsegrmin o => evenPair o.d && evenPair o.a
  | .vsegrmax o => evenPair o.d && evenPair o.a
  | .vsegrminu o => evenPair o.d && evenPair o.a
  | .vsegrmaxu o => evenPair o.d && evenPair o.a
  | .vsegrfsum o => evenPair o.d && evenPair o.a
  | .vsegrfmin o => evenPair o.d && evenPair o.a
  | .vsegrfmax o => evenPair o.d && evenPair o.a
  | .xopen o => o.role != 0
  | .xrecv o => evenPair o.d
  | _ => true

end Sys2Proof
end

