-- ==== Sys2Proof/Decode.lean ====
section
/-! DEFINITION. Line layout (R37 to R39), head and tail decoding (R46 to R56) and the encoder.
`Instr` has more constructors with fields than Lean's compiled runtime can tag, so the decoders are evaluated by
the kernel only: the section is noncomputable. -/

noncomputable section

namespace Sys2Proof

/-- The answer of a decoder: an instruction, or the reason code of R56. -/
abbrev Dec := Except IllegalReason Instr

/-- Bits [lo + len - 1 : lo] of a word. -/
def field (w lo len : Nat) : Nat := w / 2 ^ lo % 2 ^ len

/-- Step 2d of R56: a reserved field must be zero. -/
def zero (n : Nat) (k : Dec) : Dec := if n = 0 then k else .error .reserved

/-- Step 2c of R56: a function code that the family assigns. -/
def assigned (p : Prop) [Decidable p] (k : Dec) : Dec := if p then k else .error .function

/-- A scalar register field (R47, R48). -/
def withX (n : Nat) (k : XReg → Dec) : Dec := if h : n < 32 then k ⟨n, h⟩ else .error .register

/-- The even, nonzero scalar destination of QPOP and QTRYPOP (R322). -/
def withEvenX (n : Nat) (k : XReg → Dec) : Dec :=
  if h : n < 32 then (if n % 2 = 0 ∧ n ≠ 0 then k ⟨n, h⟩ else .error .register) else .error .register

/-- A mask register field (R47, R48). -/
def withM (n : Nat) (k : MReg → Dec) : Dec :=
  if h : 32 ≤ n ∧ n < 48 then k ⟨n - 32, by omega⟩ else .error .register

/-- A vector register field (R47, R48). -/
def withV (n : Nat) (k : VReg → Dec) : Dec :=
  if h : 64 ≤ n ∧ n < 128 then k ⟨n - 64, by omega⟩ else .error .register

/-- A vector register pair, named by its even member (R140). -/
def withPair (n : Nat) (k : VReg → Dec) : Dec :=
  if h : 64 ≤ n ∧ n < 128 then (if n % 2 = 0 then k ⟨n - 64, by omega⟩ else .error .register)
  else .error .register

/-- A vector register field that may be 0x00 for no register. -/
def withV0 (n : Nat) (k : Option VReg → Dec) : Dec :=
  if n = 0 then k none
  else if h : 64 ≤ n ∧ n < 128 then k (some ⟨n - 64, by omega⟩) else .error .register

/-- A vector register, or a scalar register when SX = 1 (R122). -/
def withVX (sx n : Nat) (k : VX → Dec) : Dec :=
  if sx = 1 then withX n fun r => k (.x r) else withV n fun r => k (.v r)

/-- The scale base of WBLD: a scalar register, not x0 for a scaled format (R184). -/
def withScales (fmt n : Nat) (k : XReg → Dec) : Dec :=
  if fmt = 4 ∨ fmt = 5 ∨ fmt = 6 then (if n = 0 then .error .register else withX n k) else withX n k

/-- The B operand of MMA: a vector register, or also 0x00 when BSRC = 1 (R170, R176). -/
def withMmaB (bsrc n : Nat) (k : Option VReg → Dec) : Dec :=
  if bsrc = 0 then withV n fun r => k (some r) else withV0 n k

/-- A scope field; codes 5 to 7 are unassigned (R246). -/
def withScope (n : Nat) (k : Scope → Dec) : Dec :=
  match n with
  | 0 => k .h
  | 1 => k .c
  | 2 => k .d
  | 3 => k .p
  | 4 => k .s
  | _ => .error .function

/-- A value format field; codes 5 to 7 are unassigned (R158, R163). -/
def withValFmt (n : Nat) (k : ValFmt → Dec) : Dec :=
  match n with
  | 0 => k .f32
  | 1 => k .f64
  | 2 => k .f16
  | 3 => k .bf16
  | 4 => k .i32
  | _ => .error .function

/-- The carried count of VCFG, at most 4 (R116). -/
def withFive (n : Nat) (k : Fin 5 → Dec) : Dec := if h : n < 5 then k ⟨n, h⟩ else .error .reserved

/-- The chunk size code of CPY; codes 12 to 15 are unassigned (R266). -/
def withTwelve (n : Nat) (k : Fin 12 → Dec) : Dec := if h : n < 12 then k ⟨n, h⟩ else .error .function

/-- The designator of an optional vector register. -/
def v0Code : Option VReg → Nat
  | none => 0
  | some r => 64 + r.val


/-- Operand fields shared by ADD, SUB, AND, OR, XOR, ANDN, SHL, SHR, SRA, ROL, MUL, MULH, MULHU, DIV, DIVU, REM, REMU, MIN, MAX, MINU, MAXU, SLT, SLTU (R95). -/
def decAlu1 (d t : Nat) (mk : AluOps → Instr) : Dec :=
  zero (field t 14 4) <|
  zero (field t 5 9) <|
  withX (d) fun d =>
  withX (field t 25 7) fun a =>
  withX (field t 18 7) fun b =>
  .ok (mk ⟨d, a, b⟩)

/-- Operand fields shared by CLZ, CTZ, POPC, BSWAP (R95). -/
def decAlu2 (d t : Nat) (mk : UnaryOps → Instr) : Dec :=
  zero (field t 18 7) <|
  zero (field t 14 4) <|
  zero (field t 5 9) <|
  withX (d) fun d =>
  withX (field t 25 7) fun a =>
  .ok (mk ⟨d, a⟩)

/-- Major 0x01 (R95). -/
def decAlu (d t : Nat) : Dec :=
  match field t 0 5 with
  | 0 => decAlu1 d t .add
  | 1 => decAlu1 d t .sub
  | 2 => decAlu1 d t .and
  | 3 => decAlu1 d t .or
  | 4 => decAlu1 d t .xor
  | 5 => decAlu1 d t .andn
  | 6 => decAlu1 d t .shl
  | 7 => decAlu1 d t .shr
  | 8 => decAlu1 d t .sra
  | 9 => decAlu1 d t .rol
  | 10 => decAlu1 d t .mul
  | 11 => decAlu1 d t .mulh
  | 12 => decAlu1 d t .mulhu
  | 13 => decAlu1 d t .div
  | 14 => decAlu1 d t .divu
  | 15 => decAlu1 d t .rem
  | 16 => decAlu1 d t .remu
  | 17 => decAlu1 d t .min
  | 18 => decAlu1 d t .max
  | 19 => decAlu1 d t .minu
  | 20 => decAlu1 d t .maxu
  | 21 => decAlu1 d t .slt
  | 22 => decAlu1 d t .sltu
  | 23 => decAlu2 d t .clz
  | 24 => decAlu2 d t .ctz
  | 25 => decAlu2 d t .popc
  | 26 => decAlu2 d t .bswap
  | _ => .error .function

/-- Major 0x02 (R96). -/
def decAddi (d t : Nat) : Dec :=
  withX (d) fun d =>
  withX (field t 25 7) fun a =>
  .ok (.addi ⟨d, a, (BitVec.ofNat 25 (field t 0 25))⟩)

/-- Major 0x03 (R96). -/
def decAndi (d t : Nat) : Dec :=
  withX (d) fun d =>
  withX (field t 25 7) fun a =>
  .ok (.andi ⟨d, a, (BitVec.ofNat 25 (field t 0 25))⟩)

/-- Major 0x04 (R96). -/
def decOri (d t : Nat) : Dec :=
  withX (d) fun d =>
  withX (field t 25 7) fun a =>
  .ok (.ori ⟨d, a, (BitVec.ofNat 25 (field t 0 25))⟩)

/-- Major 0x05 (R96). -/
def decXori (d t : Nat) : Dec :=
  withX (d) fun d =>
  withX (field t 25 7) fun a =>
  .ok (.xori ⟨d, a, (BitVec.ofNat 25 (field t 0 25))⟩)

/-- Operand fields shared by SLTI, SLTIU (R96). -/
def decSlti1 (d t : Nat) (mk : CmpImmOps → Instr) : Dec :=
  withX (d) fun d =>
  withX (field t 25 7) fun a =>
  .ok (mk ⟨d, a, (BitVec.ofNat 24 (field t 0 24))⟩)

/-- Major 0x06 (R96). -/
def decSlti (d t : Nat) : Dec :=
  match field t 24 1 with
  | 0 => decSlti1 d t .slti
  | 1 => decSlti1 d t .sltiu
  | _ => .error .function

/-- Operand fields shared by SHLI, SHRI, SRAI, ROLI (R96). -/
def decShiftImm1 (d t : Nat) (mk : ShiftImmOps → Instr) : Dec :=
  zero (field t 8 17) <|
  withX (d) fun d =>
  withX (field t 25 7) fun a =>
  .ok (mk ⟨d, a, (Fin.ofNat 64 (field t 0 6))⟩)

/-- Major 0x07 (R96). -/
def decShiftImm (d t : Nat) : Dec :=
  match field t 6 2 with
  | 0 => decShiftImm1 d t .shli
  | 1 => decShiftImm1 d t .shri
  | 2 => decShiftImm1 d t .srai
  | 3 => decShiftImm1 d t .roli
  | _ => .error .function

/-- Major 0x08 (R97). -/
def decLi (d t : Nat) : Dec :=
  withX (d) fun d =>
  .ok (.li ⟨d, (BitVec.ofNat 32 (field t 0 32))⟩)

/-- Major 0x09 (R97). -/
def decLih (d t : Nat) : Dec :=
  withX (d) fun d =>
  .ok (.lih ⟨d, (BitVec.ofNat 32 (field t 0 32))⟩)

/-- Major 0x0A (R98). -/
def decSel (d t : Nat) : Dec :=
  zero (field t 23 4) <|
  zero (field t 0 23) <|
  withX (d) fun d =>
  withX (field t 41 7) fun c =>
  withX (field t 34 7) fun a =>
  withX (field t 27 7) fun b =>
  .ok (.sel ⟨d, c, a, b⟩)

/-- Operand fields shared by LDB, LDBU, LDH, LDHU, LDW, LDWU, LDD (R99). -/
def decLd1 (d t : Nat) (mk : LoadOps → Instr) : Dec :=
  withX (d) fun d =>
  withX (field t 25 7) fun base =>
  .ok (mk ⟨d, base, (BitVec.ofNat 22 (field t 0 22))⟩)

/-- Major 0x10 (R99). -/
def decLd (d t : Nat) : Dec :=
  match field t 22 3 with
  | 0 => decLd1 d t .ldb
  | 1 => decLd1 d t .ldbu
  | 2 => decLd1 d t .ldh
  | 3 => decLd1 d t .ldhu
  | 4 => decLd1 d t .ldw
  | 5 => decLd1 d t .ldwu
  | 6 => decLd1 d t .ldd
  | _ => .error .function

/-- Operand fields shared by STB, STH, STW, STD (R100). -/
def decSt1 (d t : Nat) (mk : StoreOps → Instr) : Dec :=
  zero (field t 14 4) <|
  withX (field t 18 7) fun src =>
  withX (field t 25 7) fun base =>
  .ok (mk ⟨src, base, (BitVec.ofNat 19 (d * 4096 + field t 0 12))⟩)

/-- Major 0x11 (R100). -/
def decSt (d t : Nat) : Dec :=
  match field t 12 2 with
  | 0 => decSt1 d t .stb
  | 1 => decSt1 d t .sth
  | 2 => decSt1 d t .stw
  | 3 => decSt1 d t .std
  | _ => .error .function

/-- Major 0x12 (R248). -/
def decLdaq (d t : Nat) : Dec :=
  withScope (field t 3 3) fun scope =>
  zero (if field t 0 2 = 3 then field t 2 1 else 0) <|
  zero (field t 18 7) <|
  zero (field t 14 4) <|
  withX (d) fun d =>
  withX (field t 25 7) fun base =>
  .ok (.ldaq ⟨d, base, (MemSize.ofCode (field t 0 2)), (field t 2 1 == 1), scope, (BitVec.ofNat 8 (field t 6 8))⟩)

/-- Major 0x13 (R249). -/
def decStrl (d t : Nat) : Dec :=
  withScope (field t 3 3) fun scope =>
  zero (d) <|
  zero (field t 14 4) <|
  zero (field t 2 1) <|
  withX (field t 18 7) fun src =>
  withX (field t 25 7) fun base =>
  .ok (.strl ⟨src, base, (MemSize.ofCode (field t 0 2)), scope, (BitVec.ofNat 8 (field t 6 8))⟩)

/-- Operand fields shared by AMOADD, AMOMIN, AMOMAX, AMOMINU, AMOMAXU, AMOAND, AMOOR, AMOXOR, AMOSWP (R250). -/
def decAmo1 (d t : Nat) (mk : AmoOps → Instr) : Dec :=
  withScope (field t 5 3) fun scope =>
  zero (field t 14 4) <|
  zero (field t 10 4) <|
  withX (d) fun d =>
  withX (field t 25 7) fun addr =>
  withX (field t 18 7) fun src =>
  .ok (mk ⟨d, addr, src, (field t 4 1 == 1), scope, (MemOrder.ofCode (field t 8 2))⟩)

/-- Major 0x14 (R250). -/
def decAmo (d t : Nat) : Dec :=
  match field t 0 4 with
  | 0 => decAmo1 d t .amoadd
  | 1 => decAmo1 d t .amomin
  | 2 => decAmo1 d t .amomax
  | 3 => decAmo1 d t .amominu
  | 4 => decAmo1 d t .amomaxu
  | 5 => decAmo1 d t .amoand
  | 6 => decAmo1 d t .amoor
  | 7 => decAmo1 d t .amoxor
  | 8 => decAmo1 d t .amoswp
  | _ => .error .function

/-- Major 0x15 (R252). -/
def decCas (d t : Nat) : Dec :=
  withScope (field t 1 3) fun scope =>
  zero (field t 23 4) <|
  zero (field t 6 17) <|
  withX (d) fun d =>
  withX (field t 41 7) fun addr =>
  withX (field t 34 7) fun expect =>
  withX (field t 27 7) fun new =>
  .ok (.cas ⟨d, addr, expect, new, (field t 0 1 == 1), scope, (MemOrder.ofCode (field t 4 2))⟩)

/-- Operand fields shared by BEQ, BNE, BLT, BGE, BLTU, BGEU (R53, R102). -/
def decBr1 (d t : Nat) (mk : BranchOps → Instr) : Dec :=
  zero (d) <|
  withX (field t 25 7) fun a =>
  withX (field t 18 7) fun b =>
  .ok (mk ⟨a, b, (BitVec.ofNat 10 (field t 5 10)), (Fin.ofNat 32 (field t 0 5))⟩)

/-- Major 0x18 (R53, R102). -/
def decBr (d t : Nat) : Dec :=
  match field t 15 3 with
  | 0 => decBr1 d t .beq
  | 1 => decBr1 d t .bne
  | 2 => decBr1 d t .blt
  | 3 => decBr1 d t .bge
  | 4 => decBr1 d t .bltu
  | 5 => decBr1 d t .bgeu
  | _ => .error .function

/-- Major 0x19 (R103). -/
def decJmp (d t : Nat) : Dec :=
  zero (d) <|
  .ok (.jmp ⟨(BitVec.ofNat 27 (field t 5 27)), (Fin.ofNat 32 (field t 0 5))⟩)

/-- Major 0x1A (R103). -/
def decCall (d t : Nat) : Dec :=
  zero (d) <|
  .ok (.call ⟨(BitVec.ofNat 27 (field t 5 27)), (Fin.ofNat 32 (field t 0 5))⟩)

/-- Operand fields shared by JR, CALLR (R104). -/
def decJr1 (d t : Nat) (mk : XReg → Instr) : Dec :=
  zero (d) <|
  zero (field t 1 8) <|
  withX (field t 9 7) fun r =>
  .ok (mk r)

/-- Major 0x1B (R104). -/
def decJr (d t : Nat) : Dec :=
  match field t 0 1 with
  | 0 => decJr1 d t .jr
  | 1 => decJr1 d t .callr
  | _ => .error .function

/-- Major 0x1C (R105). -/
def decRet (d _t : Nat) : Dec :=
  zero (d) <|
  .ok .ret

/-- Operand fields shared by BMANY, BMNONE (R109). -/
def decBm1 (d t : Nat) (mk : MaskBranchOps → Instr) : Dec :=
  zero (d) <|
  zero (field t 18 7) <|
  withM (field t 25 7) fun a =>
  .ok (mk ⟨a, (BitVec.ofNat 10 (field t 5 10)), (Fin.ofNat 32 (field t 0 5))⟩)

/-- Major 0x1D (R109). -/
def decBm (d t : Nat) : Dec :=
  match field t 15 3 with
  | 0 => decBm1 d t .bmany
  | 1 => decBm1 d t .bmnone
  | _ => .error .function

/-- Operand fields shared by NOP, YIELD, HALT, ERET, BRK (R54). -/
def decSys1 (_d _t : Nat) (mk : Instr) : Dec :=
  .ok mk

/-- Major 0x20 (R54). -/
def decSys (d t : Nat) : Dec :=
  match d with
  | 0 => decSys1 d t .nop
  | 1 => decSys1 d t .yield
  | 2 => decSys1 d t .halt
  | 3 => decSys1 d t .eret
  | 4 => decSys1 d t .brk
  | _ => .error .function

/-- Operand fields shared by CSRRW, CSRRS, CSRRC (R112). -/
def decCsr1 (d t : Nat) (mk : CsrOps → Instr) : Dec :=
  zero (field t 18 7) <|
  zero (field t 14 4) <|
  withX (d) fun d =>
  withX (field t 25 7) fun a =>
  .ok (mk ⟨d, a, (Fin.ofNat 4096 (field t 0 12))⟩)

/-- Major 0x21 (R112). -/
def decCsr (d t : Nat) : Dec :=
  match field t 12 2 with
  | 0 => decCsr1 d t .csrrw
  | 1 => decCsr1 d t .csrrs
  | 2 => decCsr1 d t .csrrc
  | _ => .error .function

/-- Operand fields shared by FENCESV, FENCEVS, FENCEVV (R55). -/
def decFence1 (d _t : Nat) (mk : Instr) : Dec :=
  zero (field d 0 3) <|
  .ok mk

/-- Operand fields shared by FENCEACQ, FENCEREL, FENCEFULL (R55). -/
def decFence2 (d _t : Nat) (mk : Scope → Instr) : Dec :=
  withScope (field d 0 3) fun r =>
  .ok (mk r)

/-- Major 0x22 (R55). -/
def decFence (d t : Nat) : Dec :=
  match field d 3 4 with
  | 0 => decFence1 d t .fenceSv
  | 1 => decFence1 d t .fenceVs
  | 2 => decFence1 d t .fenceVv
  | 3 => decFence2 d t .fenceAcq
  | 4 => decFence2 d t .fenceRel
  | 5 => decFence2 d t .fenceFull
  | _ => .error .function

/-- Major 0x23 (R111). -/
def decTrap (d t : Nat) : Dec :=
  zero (d) <|
  zero (field t 25 7) <|
  zero (field t 16 9) <|
  .ok (.trap (BitVec.ofNat 16 (field t 0 16)))

/-- Major 0x24 (R255). -/
def decWaitm (d t : Nat) : Dec :=
  withScope (field t 3 3) fun scope =>
  zero (field t 14 4) <|
  zero (field t 6 8) <|
  withX (d) fun d =>
  withX (field t 25 7) fun addr =>
  withX (field t 18 7) fun cmp =>
  .ok (.waitm ⟨d, addr, cmp, (field t 0 1 == 1), (WaitCond.ofCode (field t 1 2)), scope⟩)

/-- Operand fields shared by INVRDC, WBL2, INVL1 (R256). -/
def decCache1 (d t : Nat) (mk : RangeOps → Instr) : Dec :=
  zero (d) <|
  zero (field t 14 4) <|
  zero (field t 2 12) <|
  withX (field t 25 7) fun base =>
  withX (field t 18 7) fun len =>
  .ok (mk ⟨base, len⟩)

/-- Major 0x25 (R256). -/
def decCache (d t : Nat) : Dec :=
  match field t 0 2 with
  | 0 => decCache1 d t .invrdc
  | 1 => decCache1 d t .wbl2
  | 2 => decCache1 d t .invl1
  | 3 =>
    zero (d) <|
    zero (field t 14 4) <|
    zero (field t 3 11) <|
    withX (field t 25 7) fun base =>
    withX (field t 18 7) fun len =>
    .ok (.pref ⟨base, len, (field t 2 1 == 1)⟩)
  | _ => .error .function

/-- Major 0x26 (R257). -/
def decPublish (d t : Nat) : Dec :=
  zero (d) <|
  zero (field t 14 4) <|
  zero (field t 0 14) <|
  withX (field t 25 7) fun base =>
  withX (field t 18 7) fun len =>
  .ok (.publish ⟨base, len⟩)

/-- Major 0x27 (R311). -/
def decLaunch (d t : Nat) : Dec :=
  zero (field t 0 9) <|
  withX (d) fun rd =>
  withX (field t 9 7) fun rr =>
  .ok (.launch rd rr)

/-- Major 0x28 (R398). -/
def decSeal (d t : Nat) : Dec :=
  match field t 0 1 with
  | 0 =>
    zero (d) <|
    zero (field t 14 4) <|
    zero (field t 1 13) <|
    withX (field t 25 7) fun ri =>
    withX (field t 18 7) fun rl =>
    .ok (.seal ri rl)
  | 1 =>
    zero (field t 18 7) <|
    zero (field t 14 4) <|
    zero (field t 1 13) <|
    withX (d) fun rd =>
    withX (field t 25 7) fun ri =>
    .ok (.sealq rd ri)
  | _ => .error .function

/-- Operand fields shared by QPOP, QTRYPOP (R322). -/
def decQop1 (d t : Nat) (mk : QpopOps → Instr) : Dec :=
  zero (field t 18 7) <|
  zero (field t 14 4) <|
  zero (field t 8 6) <|
  withEvenX (d) fun d =>
  withX (field t 25 7) fun st =>
  .ok (mk ⟨(Fin.ofNat 64 (field t 2 6)), d, st⟩)

/-- Major 0x2C (R322). -/
def decQop (d t : Nat) : Dec :=
  match field t 0 2 with
  | 0 =>
    zero (d) <|
    zero (field t 14 4) <|
    zero (field t 8 6) <|
    withX (field t 25 7) fun w0 =>
    withX (field t 18 7) fun w1 =>
    .ok (.qpush ⟨(Fin.ofNat 64 (field t 2 6)), w0, w1⟩)
  | 1 => decQop1 d t .qpop
  | 2 => decQop1 d t .qtrypop
  | 3 =>
    zero (field t 25 7) <|
    zero (field t 18 7) <|
    zero (field t 14 4) <|
    zero (field t 8 6) <|
    withX (d) fun d =>
    .ok (.qstat ⟨d, (Fin.ofNat 64 (field t 2 6))⟩)
  | _ => .error .function

/-- Operand fields shared by GARR, GARW (R273). -/
def decGate1 (d t : Nat) (mk : GarrOps → Instr) : Dec :=
  withScope (field t 3 3) fun scope =>
  zero (field t 14 4) <|
  zero (field t 6 8) <|
  withX (d) fun d =>
  withX (field t 25 7) fun gate =>
  withX (field t 18 7) fun count =>
  .ok (mk ⟨d, gate, count, scope⟩)

/-- Major 0x2D (R273). -/
def decGate (d t : Nat) : Dec :=
  match field t 0 3 with
  | 0 =>
    withScope (field t 3 3) fun scope =>
    zero (field t 14 4) <|
    zero (field t 6 8) <|
    zero (d) <|
    withX (field t 25 7) fun gate =>
    withX (field t 18 7) fun count =>
    .ok (.ginit ⟨gate, count, scope⟩)
  | 1 => decGate1 d t .garr
  | 2 =>
    withScope (field t 3 3) fun scope =>
    zero (field t 14 4) <|
    zero (field t 6 8) <|
    zero (d) <|
    withX (field t 25 7) fun gate =>
    withX (field t 18 7) fun phase =>
    .ok (.gwait ⟨gate, phase, scope⟩)
  | 3 => decGate1 d t .garw
  | 4 =>
    withScope (field t 3 3) fun scope =>
    zero (field t 14 4) <|
    zero (field t 6 8) <|
    zero (field t 18 7) <|
    withX (d) fun d =>
    withX (field t 25 7) fun gate =>
    .ok (.gqry ⟨d, gate, scope⟩)
  | _ => .error .function

/-- Major 0x30 (R116). -/
def decVcfg (d t : Nat) : Dec :=
  withFive (field t 2 3) fun c =>
  zero (d) <|
  zero (field t 5 4) <|
  withX (field t 9 7) fun list =>
  .ok (.vcfg ⟨list, (Fin.ofNat 4 (field t 0 2)), c⟩)

/-- Major 0x31 (R119). -/
def decSetvl (d t : Nat) : Dec :=
  zero (field t 2 7) <|
  withX (d) fun d =>
  withX (field t 9 7) fun a =>
  .ok (.setvl ⟨d, a, (Width.ofCode (field t 0 2))⟩)

/-- Major 0x32 (R120). -/
def decSetvr (d t : Nat) : Dec :=
  zero (field t 2 7) <|
  withX (d) fun d =>
  withX (field t 9 7) fun a =>
  .ok (.setvr ⟨d, a, (Width.ofCode (field t 0 2))⟩)

/-- Major 0x33 (R121). -/
def decSetvlb (d t : Nat) : Dec :=
  zero (field t 18 7) <|
  zero (field t 17 1) <|
  withX (d) fun d =>
  withX (field t 25 7) fun a =>
  .ok (.setvlb ⟨d, a, (Width.ofCode (field t 15 2)), (BitVec.ofNat 10 (field t 5 10)), (Fin.ofNat 32 (field t 0 5))⟩)

/-- Operand fields shared by VADD, VSUB, VMUL, VMULH, VMULHU, VMIN, VMAX, VMINU, VMAXU, VAND, VOR, VXOR, VANDN, VSHL, VSHR, VSRA, VADDS, VSUBS, VABSD (R122). -/
def decVia1 (d t : Nat) (mk : ViaOps → Instr) : Dec :=
  zero (field t 5 1) <|
  zero (field t 9 5) <|
  withV (d) fun d =>
  withV (field t 25 7) fun a =>
  withVX (field t 8 1) (field t 18 7) fun b =>
  .ok (mk ⟨d, a, b, (Width.ofCode (field t 6 2)), (Fin.ofNat 16 (field t 14 4))⟩)

/-- Operand fields shared by VPOPC, VCLZ, VCTZ (R122). -/
def decVia2 (d t : Nat) (mk : ViaUnaryOps → Instr) : Dec :=
  zero (field t 18 7) <|
  zero (field t 5 1) <|
  zero (field t 8 6) <|
  withV (d) fun d =>
  withV (field t 25 7) fun a =>
  .ok (mk ⟨d, a, (Width.ofCode (field t 6 2)), (Fin.ofNat 16 (field t 14 4))⟩)

/-- Major 0x40 (R122). -/
def decVia (d t : Nat) : Dec :=
  match field t 0 5 with
  | 0 => decVia1 d t .vadd
  | 1 => decVia1 d t .vsub
  | 2 => decVia1 d t .vmul
  | 3 => decVia1 d t .vmulh
  | 4 => decVia1 d t .vmulhu
  | 5 => decVia1 d t .vmin
  | 6 => decVia1 d t .vmax
  | 7 => decVia1 d t .vminu
  | 8 => decVia1 d t .vmaxu
  | 9 => decVia1 d t .vand
  | 10 => decVia1 d t .vor
  | 11 => decVia1 d t .vxor
  | 12 => decVia1 d t .vandn
  | 13 => decVia1 d t .vshl
  | 14 => decVia1 d t .vshr
  | 15 => decVia1 d t .vsra
  | 16 => decVia1 d t .vadds
  | 17 => decVia1 d t .vsubs
  | 18 => decVia2 d t .vpopc
  | 19 => decVia2 d t .vclz
  | 20 => decVia2 d t .vctz
  | 21 => decVia1 d t .vabsd
  | _ => .error .function

/-- Operand fields shared by VADDI, VSUBI, VANDI, VORI, VXORI, VSHLI, VSHRI, VSRAI, VADDSI, VSUBSI (R123). -/
def decViai1 (d t : Nat) (mk : ViaiOps → Instr) : Dec :=
  zero (field t 16 2) <|
  withV (d) fun d =>
  withV (field t 25 7) fun a =>
  .ok (mk ⟨d, a, (Width.ofCode (field t 18 2)), (BitVec.ofNat 16 (field t 0 16))⟩)

/-- Major 0x41 (R123). -/
def decViai (d t : Nat) : Dec :=
  match field t 20 5 with
  | 0 => decViai1 d t .vaddi
  | 1 => decViai1 d t .vsubi
  | 9 => decViai1 d t .vandi
  | 10 => decViai1 d t .vori
  | 11 => decViai1 d t .vxori
  | 13 => decViai1 d t .vshli
  | 14 => decViai1 d t .vshri
  | 15 => decViai1 d t .vsrai
  | 16 => decViai1 d t .vaddsi
  | 17 => decViai1 d t .vsubsi
  | _ => .error .function

/-- Operand fields shared by VFADD, VFSUB, VFMUL, VFDIV (R124). -/
def decVfa1 (d t : Nat) (mk : VfaOps → Instr) : Dec :=
  zero (field t 8 6) <|
  withV (d) fun d =>
  withV (field t 25 7) fun a =>
  withVX (field t 7 1) (field t 18 7) fun b =>
  .ok (mk ⟨d, a, b, (FFmt.ofCode (field t 3 2)), (Rounding.ofCode (field t 5 2)), (Fin.ofNat 16 (field t 14 4))⟩)

/-- Operand fields shared by VFMIN, VFMAX, VFSGNJ (R124). -/
def decVfa2 (d t : Nat) (mk : VfmmOps → Instr) : Dec :=
  zero (field t 5 2) <|
  zero (field t 8 6) <|
  withV (d) fun d =>
  withV (field t 25 7) fun a =>
  withVX (field t 7 1) (field t 18 7) fun b =>
  .ok (mk ⟨d, a, b, (FFmt.ofCode (field t 3 2)), (Fin.ofNat 16 (field t 14 4))⟩)

/-- Major 0x42 (R124). -/
def decVfa (d t : Nat) : Dec :=
  match field t 0 3 with
  | 0 => decVfa1 d t .vfadd
  | 1 => decVfa1 d t .vfsub
  | 2 => decVfa1 d t .vfmul
  | 3 => decVfa1 d t .vfdiv
  | 4 => decVfa2 d t .vfmin
  | 5 => decVfa2 d t .vfmax
  | 6 => decVfa2 d t .vfsgnj
  | _ => .error .function

/-- Operand fields shared by VFMA, VFMS, VFNMA, VFNMS (R125). -/
def decVfma1 (d t : Nat) (mk : VfmaOps → Instr) : Dec :=
  zero (field t 7 16) <|
  withV (d) fun d =>
  withV (field t 41 7) fun a =>
  withVX (field t 6 1) (field t 34 7) fun b =>
  withV (field t 27 7) fun c =>
  .ok (mk ⟨d, a, b, c, (FFmt.ofCode (field t 2 2)), (Rounding.ofCode (field t 4 2)), (Fin.ofNat 16 (field t 23 4))⟩)

/-- Major 0x43 (R125). -/
def decVfma (d t : Nat) : Dec :=
  match field t 0 2 with
  | 0 => decVfma1 d t .vfma
  | 1 => decVfma1 d t .vfms
  | 2 => decVfma1 d t .vfnma
  | 3 => decVfma1 d t .vfnms
  | _ => .error .function

/-- Operand fields shared by VFRCP, VFRSQ, VFEXP2, VFLOG2 (R126). -/
def decVfu1 (d t : Nat) (mk : VfuOps → Instr) : Dec :=
  assigned (FFmt.ofCode (field t 3 2) = .f32 ∨ FFmt.ofCode (field t 3 2) = .bf16) <|
  zero (field t 18 7) <|
  zero (field t 7 7) <|
  withV (d) fun d =>
  withV (field t 25 7) fun a =>
  .ok (mk ⟨d, a, (FFmt.ofCode (field t 3 2)), (Rounding.ofCode (field t 5 2)), (Fin.ofNat 16 (field t 14 4))⟩)

/-- Operand fields shared by VFABS, VFNEG, VFCLASS (R126). -/
def decVfu2 (d t : Nat) (mk : VfuNrOps → Instr) : Dec :=
  zero (field t 18 7) <|
  zero (field t 5 9) <|
  withV (d) fun d =>
  withV (field t 25 7) fun a =>
  .ok (mk ⟨d, a, (FFmt.ofCode (field t 3 2)), (Fin.ofNat 16 (field t 14 4))⟩)

/-- Major 0x44 (R126). -/
def decVfu (d t : Nat) : Dec :=
  match field t 0 3 with
  | 0 =>
    zero (field t 18 7) <|
    zero (field t 7 7) <|
    withV (d) fun d =>
    withV (field t 25 7) fun a =>
    .ok (.vfsqrt ⟨d, a, (FFmt.ofCode (field t 3 2)), (Rounding.ofCode (field t 5 2)), (Fin.ofNat 16 (field t 14 4))⟩)
  | 1 => decVfu1 d t .vfrcp
  | 2 => decVfu1 d t .vfrsq
  | 3 => decVfu1 d t .vfexp2
  | 4 => decVfu1 d t .vflog2
  | 5 => decVfu2 d t .vfabs
  | 6 => decVfu2 d t .vfneg
  | 7 => decVfu2 d t .vfclass
  | _ => .error .function

/-- Major 0x45 (R127). -/
def decVcvt (d t : Nat) : Dec :=
  zero (field t 18 7) <|
  zero (field t 11 3) <|
  withV (d) fun d =>
  withV (field t 25 7) fun a =>
  .ok (.vcvt ⟨d, a, (Fin.ofNat 16 (field t 0 4)), (Fin.ofNat 16 (field t 4 4)), (Rounding.ofCode (field t 8 2)), (field t 10 1 == 1), (Fin.ofNat 16 (field t 14 4))⟩)

/-- Operand fields shared by VCMPEQ, VCMPNE, VCMPLT, VCMPGE, VCMPLTU, VCMPGEU (R128). -/
def decVcmp1 (d t : Nat) (mk : VcmpOps → Instr) : Dec :=
  zero (field t 6 8) <|
  withM (d) fun d =>
  withV (field t 25 7) fun a =>
  withVX (field t 5 1) (field t 18 7) fun b =>
  .ok (mk ⟨d, a, b, (Width.ofCode (field t 3 2)), (Fin.ofNat 16 (field t 14 4))⟩)

/-- Major 0x46 (R128). -/
def decVcmp (d t : Nat) : Dec :=
  match field t 0 3 with
  | 0 => decVcmp1 d t .vcmpeq
  | 1 => decVcmp1 d t .vcmpne
  | 2 => decVcmp1 d t .vcmplt
  | 3 => decVcmp1 d t .vcmpge
  | 4 => decVcmp1 d t .vcmpltu
  | 5 => decVcmp1 d t .vcmpgeu
  | _ => .error .function

/-- Operand fields shared by VFCMPEQ, VFCMPNE, VFCMPLT, VFCMPLE, VFCMPGT, VFCMPGE, VFCMPUN (R129). -/
def decVfcmp1 (d t : Nat) (mk : VfcmpOps → Instr) : Dec :=
  zero (field t 6 8) <|
  withM (d) fun d =>
  withV (field t 25 7) fun a =>
  withVX (field t 5 1) (field t 18 7) fun b =>
  .ok (mk ⟨d, a, b, (FFmt.ofCode (field t 3 2)), (Fin.ofNat 16 (field t 14 4))⟩)

/-- Major 0x47 (R129). -/
def decVfcmp (d t : Nat) : Dec :=
  match field t 0 3 with
  | 0 => decVfcmp1 d t .vfcmpeq
  | 1 => decVfcmp1 d t .vfcmpne
  | 2 => decVfcmp1 d t .vfcmplt
  | 3 => decVfcmp1 d t .vfcmple
  | 4 => decVfcmp1 d t .vfcmpgt
  | 5 => decVfcmp1 d t .vfcmpge
  | 6 => decVfcmp1 d t .vfcmpun
  | _ => .error .function

/-- Major 0x48 (R130). -/
def decVsel (d t : Nat) : Dec :=
  zero (field t 3 11) <|
  withV (d) fun d =>
  withV (field t 25 7) fun a =>
  withVX (field t 2 1) (field t 18 7) fun b =>
  .ok (.vsel ⟨d, a, b, (Width.ofCode (field t 0 2)), (Fin.ofNat 16 (field t 14 4))⟩)

/-- Major 0x49 (R131). -/
def decVmv (d t : Nat) : Dec :=
  match field t 0 3 with
  | 0 =>
    zero (field t 18 7) <|
    zero (field t 5 9) <|
    withV (d) fun d =>
    withV (field t 25 7) fun a =>
    .ok (.vmv ⟨d, a, (Width.ofCode (field t 3 2)), (Fin.ofNat 16 (field t 14 4))⟩)
  | 1 =>
    zero (field t 18 7) <|
    zero (field t 5 9) <|
    withV (d) fun d =>
    withX (field t 25 7) fun a =>
    .ok (.vbcast ⟨d, a, (Width.ofCode (field t 3 2)), (Fin.ofNat 16 (field t 14 4))⟩)
  | 2 =>
    zero (field t 14 4) <|
    zero (field t 6 8) <|
    withX (d) fun d =>
    withV (field t 25 7) fun a =>
    withX (field t 18 7) fun pos =>
    .ok (.vmvxs ⟨d, a, pos, (Width.ofCode (field t 3 2)), (field t 5 1 == 1)⟩)
  | 3 =>
    zero (field t 14 4) <|
    zero (field t 5 9) <|
    withV (d) fun d =>
    withX (field t 25 7) fun a =>
    withX (field t 18 7) fun pos =>
    .ok (.vmvsx ⟨d, a, pos, (Width.ofCode (field t 3 2))⟩)
  | 4 =>
    zero (field t 18 7) <|
    zero (field t 5 9) <|
    withV (d) fun d =>
    withM (field t 25 7) fun a =>
    .ok (.viota ⟨d, a, (Width.ofCode (field t 3 2)), (Fin.ofNat 16 (field t 14 4))⟩)
  | _ => .error .function

/-- Operand fields shared by VREDMIN, VREDMAX, VREDMINU, VREDMAXU, VREDAND, VREDOR, VREDXOR (R147). -/
def decVred1 (d t : Nat) (mk : VredOps → Instr) : Dec :=
  zero (field t 18 7) <|
  zero (field t 7 7) <|
  withV (d) fun d =>
  withV (field t 25 7) fun a =>
  .ok (mk ⟨d, a, (Axis.ofCode (field t 4 1)), (Width.ofCode (field t 5 2)), (Fin.ofNat 16 (field t 14 4))⟩)

/-- Operand fields shared by VREDFMIN, VREDFMAX (R147). -/
def decVred2 (d t : Nat) (mk : VredFmmOps → Instr) : Dec :=
  zero (field t 18 7) <|
  zero (field t 7 7) <|
  withV (d) fun d =>
  withV (field t 25 7) fun a =>
  .ok (mk ⟨d, a, (Axis.ofCode (field t 4 1)), (FFmt.ofCode (field t 5 2)), (Fin.ofNat 16 (field t 14 4))⟩)

/-- Major 0x4C (R147). -/
def decVred (d t : Nat) : Dec :=
  match field t 0 4 with
  | 0 =>
    zero (field t 18 7) <|
    zero (field t 7 2) <|
    zero (field t 10 4) <|
    withV (d) fun d =>
    withV (field t 25 7) fun a =>
    .ok (.vredsum ⟨d, a, (Axis.ofCode (field t 4 1)), (Width.ofCode (field t 5 2)), (field t 9 1 == 1), (Fin.ofNat 16 (field t 14 4))⟩)
  | 1 => decVred1 d t .vredmin
  | 2 => decVred1 d t .vredmax
  | 3 => decVred1 d t .vredminu
  | 4 => decVred1 d t .vredmaxu
  | 5 => decVred1 d t .vredand
  | 6 => decVred1 d t .vredor
  | 7 => decVred1 d t .vredxor
  | 8 =>
    zero (field t 18 7) <|
    zero (field t 9 5) <|
    withV (d) fun d =>
    withV (field t 25 7) fun a =>
    .ok (.vredfsum ⟨d, a, (Axis.ofCode (field t 4 1)), (FFmt.ofCode (field t 5 2)), (Rounding.ofCode (field t 7 2)), (Fin.ofNat 16 (field t 14 4))⟩)
  | 9 => decVred2 d t .vredfmin
  | 10 => decVred2 d t .vredfmax
  | _ => .error .function

/-- Operand fields shared by VREDMINI, VREDMAXI (R148). -/
def decVredi1 (d t : Nat) (mk : VredOps → Instr) : Dec :=
  zero (field t 18 7) <|
  zero (field t 5 9) <|
  withPair (d) fun d =>
  withV (field t 25 7) fun a =>
  .ok (mk ⟨d, a, (Axis.ofCode (field t 2 1)), (Width.ofCode (field t 3 2)), (Fin.ofNat 16 (field t 14 4))⟩)

/-- Operand fields shared by VREDFMINI, VREDFMAXI (R148). -/
def decVredi2 (d t : Nat) (mk : VredFmmOps → Instr) : Dec :=
  zero (field t 18 7) <|
  zero (field t 5 9) <|
  withPair (d) fun d =>
  withV (field t 25 7) fun a =>
  .ok (mk ⟨d, a, (Axis.ofCode (field t 2 1)), (FFmt.ofCode (field t 3 2)), (Fin.ofNat 16 (field t 14 4))⟩)

/-- Major 0x4D (R148). -/
def decVredi (d t : Nat) : Dec :=
  match field t 0 2 with
  | 0 => decVredi1 d t .vredmini
  | 1 => decVredi1 d t .vredmaxi
  | 2 => decVredi2 d t .vredfmini
  | 3 => decVredi2 d t .vredfmaxi
  | _ => .error .function

/-- Operand fields shared by VSCANSUM, VXSCANSUM, VSCANMAX, VXSCANMAX, VSCANMAXU, VXSCANMAXU (R149). -/
def decVscan1 (d t : Nat) (mk : VscanOps → Instr) : Dec :=
  zero (field t 18 7) <|
  zero (field t 7 7) <|
  withV (d) fun d =>
  withV (field t 25 7) fun a =>
  .ok (mk ⟨d, a, (Axis.ofCode (field t 4 1)), (Width.ofCode (field t 5 2)), (Fin.ofNat 16 (field t 14 4))⟩)

/-- Operand fields shared by VSCANFSUM, VXSCANFSUM (R149). -/
def decVscan2 (d t : Nat) (mk : VscanFsumOps → Instr) : Dec :=
  zero (field t 18 7) <|
  zero (field t 9 5) <|
  withV (d) fun d =>
  withV (field t 25 7) fun a =>
  .ok (mk ⟨d, a, (Axis.ofCode (field t 4 1)), (FFmt.ofCode (field t 5 2)), (Rounding.ofCode (field t 7 2)), (Fin.ofNat 16 (field t 14 4))⟩)

/-- Operand fields shared by VSCANFMAX, VXSCANFMAX (R149). -/
def decVscan3 (d t : Nat) (mk : VscanFmaxOps → Instr) : Dec :=
  zero (field t 18 7) <|
  zero (field t 7 7) <|
  withV (d) fun d =>
  withV (field t 25 7) fun a =>
  .ok (mk ⟨d, a, (Axis.ofCode (field t 4 1)), (FFmt.ofCode (field t 5 2)), (Fin.ofNat 16 (field t 14 4))⟩)

/-- Major 0x4E (R149). -/
def decVscan (d t : Nat) : Dec :=
  match field t 0 4 with
  | 0 => decVscan1 d t .vscansum
  | 1 => decVscan1 d t .vscanmax
  | 2 => decVscan1 d t .vscanmaxu
  | 3 => decVscan2 d t .vscanfsum
  | 4 => decVscan3 d t .vscanfmax
  | 8 => decVscan1 d t .vxscansum
  | 9 => decVscan1 d t .vxscanmax
  | 10 => decVscan1 d t .vxscanmaxu
  | 11 => decVscan2 d t .vxscanfsum
  | 12 => decVscan3 d t .vxscanfmax
  | _ => .error .function

/-- Operand fields shared by VEXPAND, VTRANS (R151). -/
def decVprm1 (d t : Nat) (mk : VpermOps → Instr) : Dec :=
  zero (field t 18 7) <|
  zero (field t 5 9) <|
  withV (d) fun d =>
  withV (field t 25 7) fun a =>
  .ok (mk ⟨d, a, (Width.ofCode (field t 3 2)), (Fin.ofNat 16 (field t 14 4))⟩)

/-- Operand fields shared by VSLIDEUP, VSLIDEDN, VROWBC (R151). -/
def decVprm2 (d t : Nat) (mk : VslideOps → Instr) : Dec :=
  zero (field t 5 9) <|
  withV (d) fun d =>
  withV (field t 25 7) fun a =>
  withX (field t 18 7) fun k =>
  .ok (mk ⟨d, a, k, (Width.ofCode (field t 3 2)), (Fin.ofNat 16 (field t 14 4))⟩)

/-- Major 0x50 (R151). -/
def decVprm (d t : Nat) : Dec :=
  match field t 0 3 with
  | 0 =>
    zero (field t 18 7) <|
    zero (field t 5 2) <|
    withV (d) fun d =>
    withV (field t 25 7) fun a =>
    withX (field t 7 7) fun cnt =>
    .ok (.vcompress ⟨d, cnt, a, (Width.ofCode (field t 3 2)), (Fin.ofNat 16 (field t 14 4))⟩)
  | 1 => decVprm1 d t .vexpand
  | 2 =>
    zero (field t 5 9) <|
    withV (d) fun d =>
    withV (field t 25 7) fun a =>
    withV (field t 18 7) fun idx =>
    .ok (.vgathr ⟨d, a, idx, (Width.ofCode (field t 3 2)), (Fin.ofNat 16 (field t 14 4))⟩)
  | 3 => decVprm2 d t .vslideup
  | 4 => decVprm2 d t .vslidedn
  | 5 => decVprm1 d t .vtrans
  | 6 => decVprm2 d t .vrowbc
  | _ => .error .function

/-- Operand fields shared by MAND, MOR, MXOR, MANDN (R155). -/
def decMop1 (d t : Nat) (mk : MopOps → Instr) : Dec :=
  zero (field t 4 10) <|
  withM (d) fun d =>
  withM (field t 25 7) fun a =>
  withM (field t 18 7) fun b =>
  .ok (mk ⟨d, a, b, (Fin.ofNat 16 (field t 14 4))⟩)

/-- Operand fields shared by MCNT, MANY, MFST (R155). -/
def decMop2 (d t : Nat) (mk : McntOps → Instr) : Dec :=
  zero (field t 18 7) <|
  zero (field t 4 10) <|
  withX (d) fun d =>
  withM (field t 25 7) fun a =>
  .ok (mk ⟨d, a, (Fin.ofNat 16 (field t 14 4))⟩)

/-- Major 0x54 (R155). -/
def decMop (d t : Nat) : Dec :=
  match field t 0 4 with
  | 0 => decMop1 d t .mand
  | 1 => decMop1 d t .mor
  | 2 => decMop1 d t .mxor
  | 3 => decMop1 d t .mandn
  | 4 =>
    zero (field t 18 7) <|
    zero (field t 4 10) <|
    withM (d) fun d =>
    withM (field t 25 7) fun a =>
    .ok (.mnot ⟨d, a, (Fin.ofNat 16 (field t 14 4))⟩)
  | 5 =>
    zero (field t 18 7) <|
    zero (field t 4 10) <|
    withM (d) fun d =>
    withX (field t 25 7) fun a =>
    .ok (.mset ⟨d, a, (Fin.ofNat 16 (field t 14 4))⟩)
  | 6 => decMop2 d t .mcnt
  | 7 => decMop2 d t .many
  | 8 => decMop2 d t .mfst
  | _ => .error .function

/-- Operand fields shared by VLD, VLDS (R132). -/
def decVld1 (d t : Nat) (mk : VldOps → Instr) : Dec :=
  zero (field t 3 11) <|
  withV (d) fun d =>
  withX (field t 25 7) fun base =>
  withX (field t 18 7) fun pitch =>
  .ok (mk ⟨d, base, pitch, (Width.ofCode (field t 0 2)), (Fin.ofNat 16 (field t 14 4))⟩)

/-- Major 0x58 (R132). -/
def decVld (d t : Nat) : Dec :=
  match field t 2 1 with
  | 0 => decVld1 d t .vld
  | 1 => decVld1 d t .vlds
  | _ => .error .function

/-- Major 0x5A (R135). -/
def decVldx (d t : Nat) : Dec :=
  zero (field t 2 12) <|
  withV (d) fun d =>
  withX (field t 25 7) fun base =>
  withV (field t 18 7) fun idx =>
  .ok (.vldx ⟨d, base, idx, (Width.ofCode (field t 0 2)), (Fin.ofNat 16 (field t 14 4))⟩)

/-- Major 0x5B (R137). -/
def decVldff (d t : Nat) : Dec :=
  zero (field t 2 12) <|
  withV (d) fun d =>
  withX (field t 25 7) fun base =>
  withX (field t 18 7) fun pitch =>
  .ok (.vldff ⟨d, base, pitch, (Width.ofCode (field t 0 2)), (Fin.ofNat 16 (field t 14 4))⟩)

/-- Operand fields shared by VST, VSTS (R132). -/
def decVst1 (d t : Nat) (mk : VldOps → Instr) : Dec :=
  zero (field t 3 11) <|
  withV (d) fun d =>
  withX (field t 25 7) fun base =>
  withX (field t 18 7) fun pitch =>
  .ok (mk ⟨d, base, pitch, (Width.ofCode (field t 0 2)), (Fin.ofNat 16 (field t 14 4))⟩)

/-- Major 0x5C (R132). -/
def decVst (d t : Nat) : Dec :=
  match field t 2 1 with
  | 0 => decVst1 d t .vst
  | 1 => decVst1 d t .vsts
  | _ => .error .function

/-- Operand fields shared by VSTX, VSTXO (R138). -/
def decVstx1 (d t : Nat) (mk : VldxOps → Instr) : Dec :=
  zero (field t 3 11) <|
  withV (d) fun d =>
  withX (field t 25 7) fun base =>
  withV (field t 18 7) fun idx =>
  .ok (mk ⟨d, base, idx, (Width.ofCode (field t 0 2)), (Fin.ofNat 16 (field t 14 4))⟩)

/-- Major 0x5D (R138). -/
def decVstx (d t : Nat) : Dec :=
  match field t 2 1 with
  | 0 => decVstx1 d t .vstx
  | 1 => decVstx1 d t .vstxO
  | _ => .error .function

/-- Operand fields shared by VAMOADD, VAMOMIN, VAMOMAX, VAMOMINU, VAMOMAXU, VAMOAND, VAMOOR, VAMOXOR, VAMOSWP (R253). -/
def decVamo1 (d t : Nat) (mk : VamoOps → Instr) : Dec :=
  assigned (2 ≤ field t 4 2) <|
  withScope (field t 6 3) fun scope =>
  zero (field t 12 2) <|
  withV (d) fun d =>
  withX (field t 25 7) fun base =>
  withV (field t 18 7) fun idx =>
  .ok (mk ⟨d, base, idx, (field t 4 2 == 3), scope, (MemOrder.ofCode (field t 9 2)), (field t 11 1 == 1), (Fin.ofNat 16 (field t 14 4))⟩)

/-- Major 0x5E (R253). -/
def decVamo (d t : Nat) : Dec :=
  match field t 0 4 with
  | 0 => decVamo1 d t .vamoadd
  | 1 => decVamo1 d t .vamomin
  | 2 => decVamo1 d t .vamomax
  | 3 => decVamo1 d t .vamominu
  | 4 => decVamo1 d t .vamomaxu
  | 5 => decVamo1 d t .vamoand
  | 6 => decVamo1 d t .vamoor
  | 7 => decVamo1 d t .vamoxor
  | 8 => decVamo1 d t .vamoswp
  | _ => .error .function

/-- Operand fields shared by STRA, STRX (R259). -/
def decStrm1 (d t : Nat) (mk : StraOps → Instr) : Dec :=
  zero (field t 14 4) <|
  zero (field t 6 8) <|
  withV (d) fun d =>
  withX (field t 25 7) fun desc =>
  withX (field t 18 7) fun start =>
  .ok (mk ⟨d, desc, start, (Fin.ofNat 4 (field t 2 2)), (Width.ofCode (field t 4 2))⟩)

/-- Major 0x5F (R259). -/
def decStrm (d t : Nat) : Dec :=
  match field t 0 2 with
  | 0 => decStrm1 d t .stra
  | 1 => decStrm1 d t .strx
  | 2 =>
    zero (d) <|
    zero (field t 25 7) <|
    zero (field t 18 7) <|
    zero (field t 14 4) <|
    zero (field t 4 10) <|
    .ok (.stroff ⟨(Fin.ofNat 4 (field t 2 2))⟩)
  | 3 =>
    zero (field t 25 7) <|
    zero (field t 18 7) <|
    zero (field t 14 4) <|
    zero (field t 4 10) <|
    withX (d) fun d =>
    .ok (.strpos ⟨d, (Fin.ofNat 4 (field t 2 2))⟩)
  | _ => .error .function

/-- Operand fields shared by MMAIP, MMAOP, MMARW (R170). -/
def decMma1 (d t : Nat) (mk : MmaOps → Instr) : Dec :=
  zero (if field t 12 1 = 0 then field t 13 1 else 0) <|
  zero (field t 15 8) <|
  withV (d) fun d =>
  withV (field t 41 7) fun a =>
  withMmaB (field t 12 1) (field t 34 7) fun b =>
  withM (field t 27 7) fun kmask =>
  .ok (mk ⟨d, a, b, (field t 12 1 == 1), (Fin.ofNat 2 (field t 13 1)), kmask, (Fin.ofNat 16 (field t 23 4)), (field t 14 1 == 1), (Fin.ofNat 4 (field t 10 2)), (Fin.ofNat 16 (field t 6 4)), (Fin.ofNat 16 (field t 2 4))⟩)

/-- Major 0x60 (R170). -/
def decMma (d t : Nat) : Dec :=
  match field t 0 2 with
  | 0 => decMma1 d t .mmaIp
  | 1 => decMma1 d t .mmaOp
  | 2 => decMma1 d t .mmaRw
  | _ => .error .function

/-- Major 0x61 (R169). -/
def decMzero (d t : Nat) : Dec :=
  match field t 0 1 with
  | 0 =>
    zero (field t 9 7) <|
    zero (field t 3 6) <|
    withV (d) fun d =>
    .ok (.mzero ⟨d, (Fin.ofNat 4 (field t 1 2))⟩)
  | 1 =>
    zero (d) <|
    zero (field t 1 8) <|
    withX (field t 9 7) fun r =>
    .ok (.msets r)
  | _ => .error .function

/-- Major 0x62 (R184). -/
def decWbld (d t : Nat) : Dec :=
  zero (if field t 0 4 = 2 ∨ field t 0 4 = 3 then field t 18 7 else 0) <|
  zero (d) <|
  zero (field t 5 9) <|
  withX (field t 25 7) fun values =>
  withScales (field t 0 4) (field t 18 7) fun scales =>
  .ok (.wbld ⟨values, scales, (Fin.ofNat 16 (field t 0 4)), (Fin.ofNat 2 (field t 4 1)), (Fin.ofNat 16 (field t 14 4))⟩)

/-- Major 0x63 (R189). -/
def decMdrain (d t : Nat) : Dec :=
  match field t 9 1 with
  | 0 =>
    zero (field t 18 7) <|
    zero (field t 12 2) <|
    withV (d) fun d =>
    withV (field t 25 7) fun a =>
    .ok (.mdrain ⟨d, a, (Fin.ofNat 4 (field t 10 2)), (field t 8 1 == 1), (Rounding.ofCode (field t 6 2)), (Fin.ofNat 16 (field t 2 4)), (Fin.ofNat 4 (field t 0 2)), (Fin.ofNat 16 (field t 14 4))⟩)
  | 1 =>
    zero (field t 12 2) <|
    withV (d) fun d =>
    withV (field t 25 7) fun a =>
    withM (field t 18 7) fun z =>
    .ok (.mdrainZ ⟨d, a, z, (Fin.ofNat 4 (field t 10 2)), (field t 8 1 == 1), (Rounding.ofCode (field t 6 2)), (Fin.ofNat 16 (field t 2 4)), (Fin.ofNat 4 (field t 0 2)), (Fin.ofNat 16 (field t 14 4))⟩)
  | _ => .error .function

/-- Major 0x68 (R157). -/
def decVsort (d t : Nat) : Dec :=
  zero (field t 18 7) <|
  zero (field t 4 10) <|
  withPair (d) fun d =>
  withV (field t 25 7) fun a =>
  .ok (.vsort ⟨d, a, (Width.ofCode (field t 0 2)), (field t 2 1 == 1), (field t 3 1 == 1), (Fin.ofNat 16 (field t 14 4))⟩)

/-- Major 0x69 (R162). -/
def decVmrg (d t : Nat) : Dec :=
  zero (field t 23 4) <|
  zero (field t 2 14) <|
  withPair (d) fun d =>
  withX (field t 16 7) fun cnt =>
  withPair (field t 41 7) fun a =>
  withPair (field t 34 7) fun b =>
  withX (field t 27 7) fun lens =>
  .ok (.vmrg ⟨d, cnt, a, b, lens, (Width.ofCode (field t 0 2))⟩)

/-- Operand fields shared by VUNIONADD, VINTERADD, VINTERMUL (R163). -/
def decVset1 (d t : Nat) (mk : VsetOps → Instr) : Dec :=
  withValFmt (field t 4 3) fun fmt =>
  zero (if field t 4 3 = 4 then field t 7 2 else 0) <|
  zero (field t 23 4) <|
  zero (field t 9 7) <|
  withPair (d) fun d =>
  withX (field t 16 7) fun cnt =>
  withPair (field t 41 7) fun a =>
  withPair (field t 34 7) fun b =>
  withX (field t 27 7) fun lens =>
  .ok (mk ⟨d, cnt, a, b, lens, (field t 3 1 == 1), fmt, (Rounding.ofCode (field t 7 2))⟩)

/-- Operand fields shared by VUNIONMAX, VUNIONFST, VINTERMAX, VINTERFST (R163). -/
def decVset2 (d t : Nat) (mk : VsetNrOps → Instr) : Dec :=
  withValFmt (field t 4 3) fun fmt =>
  zero (field t 23 4) <|
  zero (field t 7 9) <|
  withPair (d) fun d =>
  withX (field t 16 7) fun cnt =>
  withPair (field t 41 7) fun a =>
  withPair (field t 34 7) fun b =>
  withX (field t 27 7) fun lens =>
  .ok (mk ⟨d, cnt, a, b, lens, (field t 3 1 == 1), fmt⟩)

/-- Major 0x6A (R163). -/
def decVset (d t : Nat) : Dec :=
  match field t 0 3 with
  | 0 => decVset1 d t .vunionadd
  | 1 => decVset1 d t .vinteradd
  | 2 => decVset2 d t .vunionmax
  | 3 => decVset2 d t .vintermax
  | 4 => decVset2 d t .vunionfst
  | 5 => decVset2 d t .vinterfst
  | 7 => decVset1 d t .vintermul
  | _ => .error .function

/-- Major 0x6B (R158). -/
def decVtopk (d t : Nat) : Dec :=
  withValFmt (field t 0 3) fun fmt =>
  zero (field t 4 3) <|
  withPair (d) fun d =>
  withX (field t 7 7) fun cnt =>
  withV (field t 25 7) fun a =>
  withX (field t 18 7) fun k =>
  .ok (.vtopk ⟨d, cnt, a, k, fmt, (field t 3 1 == 1), (Fin.ofNat 16 (field t 14 4))⟩)

/-- Operand fields shared by VSEGRSUM, VSEGRMIN, VSEGRMAX, VSEGRMINU, VSEGRMAXU (R164). -/
def decVsegr1 (d t : Nat) (mk : VsegrOps → Instr) : Dec :=
  zero (field t 18 7) <|
  zero (field t 5 2) <|
  withPair (d) fun d =>
  withX (field t 7 7) fun cnt =>
  withPair (field t 25 7) fun a =>
  .ok (mk ⟨d, cnt, a, (Width.ofCode (field t 3 2)), (Fin.ofNat 16 (field t 14 4))⟩)

/-- Operand fields shared by VSEGRFMIN, VSEGRFMAX (R164). -/
def decVsegr2 (d t : Nat) (mk : VsegrFmmOps → Instr) : Dec :=
  zero (field t 18 7) <|
  zero (field t 5 2) <|
  withPair (d) fun d =>
  withX (field t 7 7) fun cnt =>
  withPair (field t 25 7) fun a =>
  .ok (mk ⟨d, cnt, a, (FFmt.ofCode (field t 3 2)), (Fin.ofNat 16 (field t 14 4))⟩)

/-- Major 0x6C (R164). -/
def decVsegr (d t : Nat) : Dec :=
  match field t 0 3 with
  | 0 => decVsegr1 d t .vsegrsum
  | 1 => decVsegr1 d t .vsegrmin
  | 2 => decVsegr1 d t .vsegrmax
  | 3 => decVsegr1 d t .vsegrminu
  | 4 => decVsegr1 d t .vsegrmaxu
  | 5 =>
    zero (field t 18 7) <|
    withPair (d) fun d =>
    withX (field t 7 7) fun cnt =>
    withPair (field t 25 7) fun a =>
    .ok (.vsegrfsum ⟨d, cnt, a, (FFmt.ofCode (field t 3 2)), (Rounding.ofCode (field t 5 2)), (Fin.ofNat 16 (field t 14 4))⟩)
  | 6 => decVsegr2 d t .vsegrfmin
  | 7 => decVsegr2 d t .vsegrfmax
  | _ => .error .function

/-- Major 0x70 (R294). R296 calls ROLE 0 reserved and names no reason code: it is an illegal instruction of the reason for
reserved fields (log entry 11, the model's choice). -/
def decXch (d t : Nat) : Dec :=
  match field t 0 3 with
  | 0 =>
    zero (if field t 3 2 = 0 then 1 else 0) <|
    zero (d) <|
    zero (field t 14 4) <|
    zero (field t 5 9) <|
    withX (field t 25 7) fun round =>
    withX (field t 18 7) fun spill =>
    .ok (.xopen ⟨round, spill, (Fin.ofNat 4 (field t 3 2))⟩)
  | 1 =>
    zero (d) <|
    zero (field t 18 7) <|
    zero (field t 3 2) <|
    zero (field t 14 4) <|
    zero (field t 5 9) <|
    withX (field t 25 7) fun r =>
    .ok (.xclose r)
  | 2 =>
    zero (d) <|
    zero (field t 3 2) <|
    zero (field t 14 4) <|
    zero (field t 5 9) <|
    withX (field t 25 7) fun round =>
    withX (field t 18 7) fun floor =>
    .ok (.xfloor ⟨round, floor⟩)
  | 3 =>
    zero (field t 18 7) <|
    zero (field t 3 2) <|
    zero (field t 14 4) <|
    zero (field t 5 9) <|
    withX (d) fun d =>
    withX (field t 25 7) fun round =>
    .ok (.xstat ⟨d, round⟩)
  | 4 =>
    zero (field t 3 2) <|
    zero (field t 14 4) <|
    zero (field t 5 9) <|
    withX (d) fun d =>
    withX (field t 25 7) fun round =>
    withX (field t 18 7) fun desc =>
    .ok (.xsplit ⟨d, round, desc⟩)
  | 5 =>
    zero (d) <|
    zero (field t 18 7) <|
    zero (field t 3 2) <|
    zero (field t 14 4) <|
    zero (field t 5 9) <|
    withX (field t 25 7) fun r =>
    .ok (.xround r)
  | _ => .error .function

/-- Major 0x71 (R300). -/
def decXsend (d t : Nat) : Dec :=
  match field t 0 1 with
  | 0 =>
    zero (field t 1 13) <|
    withV0 (d) fun pay =>
    withV (field t 25 7) fun keys =>
    withX (field t 18 7) fun round =>
    .ok (.xsend ⟨pay, keys, round, (Fin.ofNat 16 (field t 14 4))⟩)
  | 1 =>
    zero (field t 9 5) <|
    withV0 (d) fun pay =>
    withV (field t 25 7) fun keys =>
    withX (field t 18 7) fun round =>
    .ok (.xsendMc ⟨pay, keys, round, (Fin.ofNat 256 (field t 1 8)), (Fin.ofNat 16 (field t 14 4))⟩)
  | _ => .error .function

/-- Major 0x72 (R301). -/
def decXrecv (d t : Nat) : Dec :=
  zero (field t 14 4) <|
  zero (field t 0 6) <|
  withPair (d) fun d =>
  withX (field t 7 7) fun cnt =>
  withV0 (field t 25 7) fun pay =>
  withX (field t 18 7) fun round =>
  .ok (.xrecv ⟨d, cnt, pay, round, (field t 6 1 == 1)⟩)

/-- Operand fields shared by CPY, CPYSH (R266). -/
def decCpy1 (d t : Nat) (mk : CpyOps → Instr) : Dec :=
  withTwelve (field t 9 4) fun csh =>
  withScope (field t 6 3) fun scope =>
  zero (field t 23 4) <|
  withX (d) fun pitches =>
  withX (field t 41 7) fun src =>
  withX (field t 34 7) fun dst =>
  withX (field t 27 7) fun shape =>
  .ok (mk ⟨pitches, src, dst, shape, (Fin.ofNat 64 (field t 13 6)), csh, scope, (Fin.ofNat 64 (field t 0 6)), (Fin.ofNat 8 (field t 20 3))⟩)

/-- Major 0x74 (R266). -/
def decCpy (d t : Nat) : Dec :=
  match field t 19 1 with
  | 0 => decCpy1 d t .cpy
  | 1 => decCpy1 d t .cpySh
  | _ => .error .function

/-- Major 0x75 (R271). -/
def decCmap (d t : Nat) : Dec :=
  match field t 7 2 with
  | 0 =>
    zero (d) <|
    zero (field t 18 7) <|
    zero (field t 14 4) <|
    zero (field t 9 5) <|
    withX (field t 25 7) fun mask =>
    .ok (.cmwait ⟨mask, (Fin.ofNat 64 (field t 0 6)), (field t 6 1 == 1)⟩)
  | 1 =>
    zero (field t 18 7) <|
    zero (field t 14 4) <|
    zero (field t 9 5) <|
    withX (d) fun d =>
    withX (field t 25 7) fun mask =>
    .ok (.cmtest ⟨d, mask, (Fin.ofNat 64 (field t 0 6)), (field t 6 1 == 1)⟩)
  | 2 =>
    zero (d) <|
    zero (field t 18 7) <|
    zero (field t 14 4) <|
    zero (field t 6 1) <|
    zero (field t 9 5) <|
    withX (field t 25 7) fun mask =>
    .ok (.cmclr ⟨mask, (Fin.ofNat 64 (field t 0 6))⟩)
  | _ => .error .function

/-- The length code, then the family decoder (steps 2b to 2e of R56). -/
def tailed (tl code d t : Nat) (k : Nat → Nat → Dec) : Dec :=
  if tl = code then k d t else .error .tailLength


/-- One head and its tail (R46, R51, R56 steps 2a to 2e); `t` is the tail as R38 sums it. -/
def decodeInstr (head t : Nat) : Dec :=
  match head / 512 with

  | 0x01 => tailed (head / 128 % 4) 2 (head % 128) t decAlu

  | 0x02 => tailed (head / 128 % 4) 2 (head % 128) t decAddi

  | 0x03 => tailed (head / 128 % 4) 2 (head % 128) t decAndi

  | 0x04 => tailed (head / 128 % 4) 2 (head % 128) t decOri

  | 0x05 => tailed (head / 128 % 4) 2 (head % 128) t decXori

  | 0x06 => tailed (head / 128 % 4) 2 (head % 128) t decSlti

  | 0x07 => tailed (head / 128 % 4) 2 (head % 128) t decShiftImm

  | 0x08 => tailed (head / 128 % 4) 2 (head % 128) t decLi

  | 0x09 => tailed (head / 128 % 4) 2 (head % 128) t decLih

  | 0x0A => tailed (head / 128 % 4) 3 (head % 128) t decSel

  | 0x10 => tailed (head / 128 % 4) 2 (head % 128) t decLd

  | 0x11 => tailed (head / 128 % 4) 2 (head % 128) t decSt

  | 0x12 => tailed (head / 128 % 4) 2 (head % 128) t decLdaq

  | 0x13 => tailed (head / 128 % 4) 2 (head % 128) t decStrl

  | 0x14 => tailed (head / 128 % 4) 2 (head % 128) t decAmo

  | 0x15 => tailed (head / 128 % 4) 3 (head % 128) t decCas

  | 0x18 => tailed (head / 128 % 4) 2 (head % 128) t decBr

  | 0x19 => tailed (head / 128 % 4) 2 (head % 128) t decJmp

  | 0x1A => tailed (head / 128 % 4) 2 (head % 128) t decCall

  | 0x1B => tailed (head / 128 % 4) 1 (head % 128) t decJr

  | 0x1C => tailed (head / 128 % 4) 0 (head % 128) t decRet

  | 0x1D => tailed (head / 128 % 4) 2 (head % 128) t decBm

  | 0x20 => tailed (head / 128 % 4) 0 (head % 128) t decSys

  | 0x21 => tailed (head / 128 % 4) 2 (head % 128) t decCsr

  | 0x22 => tailed (head / 128 % 4) 0 (head % 128) t decFence

  | 0x23 => tailed (head / 128 % 4) 2 (head % 128) t decTrap

  | 0x24 => tailed (head / 128 % 4) 2 (head % 128) t decWaitm

  | 0x25 => tailed (head / 128 % 4) 2 (head % 128) t decCache

  | 0x26 => tailed (head / 128 % 4) 2 (head % 128) t decPublish

  | 0x27 => tailed (head / 128 % 4) 1 (head % 128) t decLaunch

  | 0x28 => tailed (head / 128 % 4) 2 (head % 128) t decSeal

  | 0x2C => tailed (head / 128 % 4) 2 (head % 128) t decQop

  | 0x2D => tailed (head / 128 % 4) 2 (head % 128) t decGate

  | 0x30 => tailed (head / 128 % 4) 1 (head % 128) t decVcfg

  | 0x31 => tailed (head / 128 % 4) 1 (head % 128) t decSetvl

  | 0x32 => tailed (head / 128 % 4) 1 (head % 128) t decSetvr

  | 0x33 => tailed (head / 128 % 4) 2 (head % 128) t decSetvlb

  | 0x40 => tailed (head / 128 % 4) 2 (head % 128) t decVia

  | 0x41 => tailed (head / 128 % 4) 2 (head % 128) t decViai

  | 0x42 => tailed (head / 128 % 4) 2 (head % 128) t decVfa

  | 0x43 => tailed (head / 128 % 4) 3 (head % 128) t decVfma

  | 0x44 => tailed (head / 128 % 4) 2 (head % 128) t decVfu

  | 0x45 => tailed (head / 128 % 4) 2 (head % 128) t decVcvt

  | 0x46 => tailed (head / 128 % 4) 2 (head % 128) t decVcmp

  | 0x47 => tailed (head / 128 % 4) 2 (head % 128) t decVfcmp

  | 0x48 => tailed (head / 128 % 4) 2 (head % 128) t decVsel

  | 0x49 => tailed (head / 128 % 4) 2 (head % 128) t decVmv

  | 0x4C => tailed (head / 128 % 4) 2 (head % 128) t decVred

  | 0x4D => tailed (head / 128 % 4) 2 (head % 128) t decVredi

  | 0x4E => tailed (head / 128 % 4) 2 (head % 128) t decVscan

  | 0x50 => tailed (head / 128 % 4) 2 (head % 128) t decVprm

  | 0x54 => tailed (head / 128 % 4) 2 (head % 128) t decMop

  | 0x58 => tailed (head / 128 % 4) 2 (head % 128) t decVld

  | 0x5A => tailed (head / 128 % 4) 2 (head % 128) t decVldx

  | 0x5B => tailed (head / 128 % 4) 2 (head % 128) t decVldff

  | 0x5C => tailed (head / 128 % 4) 2 (head % 128) t decVst

  | 0x5D => tailed (head / 128 % 4) 2 (head % 128) t decVstx

  | 0x5E => tailed (head / 128 % 4) 2 (head % 128) t decVamo

  | 0x5F => tailed (head / 128 % 4) 2 (head % 128) t decStrm

  | 0x60 => tailed (head / 128 % 4) 3 (head % 128) t decMma

  | 0x61 => tailed (head / 128 % 4) 1 (head % 128) t decMzero

  | 0x62 => tailed (head / 128 % 4) 2 (head % 128) t decWbld

  | 0x63 => tailed (head / 128 % 4) 2 (head % 128) t decMdrain

  | 0x68 => tailed (head / 128 % 4) 2 (head % 128) t decVsort

  | 0x69 => tailed (head / 128 % 4) 3 (head % 128) t decVmrg

  | 0x6A => tailed (head / 128 % 4) 3 (head % 128) t decVset

  | 0x6B => tailed (head / 128 % 4) 2 (head % 128) t decVtopk

  | 0x6C => tailed (head / 128 % 4) 2 (head % 128) t decVsegr

  | 0x70 => tailed (head / 128 % 4) 2 (head % 128) t decXch

  | 0x71 => tailed (head / 128 % 4) 2 (head % 128) t decXsend

  | 0x72 => tailed (head / 128 % 4) 2 (head % 128) t decXrecv

  | 0x74 => tailed (head / 128 % 4) 3 (head % 128) t decCpy

  | 0x75 => tailed (head / 128 % 4) 2 (head % 128) t decCmap

  | _ => .error .major


/-- The head and the tail of an encoded instruction; `none` for an event of the machine. -/
def encode : Instr → Option (Nat × Nat)

  | .add o => some (768 + o.d.val, o.a.val * 33554432 + o.b.val * 262144)

  | .sub o => some (768 + o.d.val, 1 + o.a.val * 33554432 + o.b.val * 262144)

  | .and o => some (768 + o.d.val, 2 + o.a.val * 33554432 + o.b.val * 262144)

  | .or o => some (768 + o.d.val, 3 + o.a.val * 33554432 + o.b.val * 262144)

  | .xor o => some (768 + o.d.val, 4 + o.a.val * 33554432 + o.b.val * 262144)

  | .andn o => some (768 + o.d.val, 5 + o.a.val * 33554432 + o.b.val * 262144)

  | .shl o => some (768 + o.d.val, 6 + o.a.val * 33554432 + o.b.val * 262144)

  | .shr o => some (768 + o.d.val, 7 + o.a.val * 33554432 + o.b.val * 262144)

  | .sra o => some (768 + o.d.val, 8 + o.a.val * 33554432 + o.b.val * 262144)

  | .rol o => some (768 + o.d.val, 9 + o.a.val * 33554432 + o.b.val * 262144)

  | .mul o => some (768 + o.d.val, 10 + o.a.val * 33554432 + o.b.val * 262144)

  | .mulh o => some (768 + o.d.val, 11 + o.a.val * 33554432 + o.b.val * 262144)

  | .mulhu o => some (768 + o.d.val, 12 + o.a.val * 33554432 + o.b.val * 262144)

  | .div o => some (768 + o.d.val, 13 + o.a.val * 33554432 + o.b.val * 262144)

  | .divu o => some (768 + o.d.val, 14 + o.a.val * 33554432 + o.b.val * 262144)

  | .rem o => some (768 + o.d.val, 15 + o.a.val * 33554432 + o.b.val * 262144)

  | .remu o => some (768 + o.d.val, 16 + o.a.val * 33554432 + o.b.val * 262144)

  | .min o => some (768 + o.d.val, 17 + o.a.val * 33554432 + o.b.val * 262144)

  | .max o => some (768 + o.d.val, 18 + o.a.val * 33554432 + o.b.val * 262144)

  | .minu o => some (768 + o.d.val, 19 + o.a.val * 33554432 + o.b.val * 262144)

  | .maxu o => some (768 + o.d.val, 20 + o.a.val * 33554432 + o.b.val * 262144)

  | .slt o => some (768 + o.d.val, 21 + o.a.val * 33554432 + o.b.val * 262144)

  | .sltu o => some (768 + o.d.val, 22 + o.a.val * 33554432 + o.b.val * 262144)

  | .clz o => some (768 + o.d.val, 23 + o.a.val * 33554432)

  | .ctz o => some (768 + o.d.val, 24 + o.a.val * 33554432)

  | .popc o => some (768 + o.d.val, 25 + o.a.val * 33554432)

  | .bswap o => some (768 + o.d.val, 26 + o.a.val * 33554432)

  | .addi o => some (1280 + o.d.val, o.a.val * 33554432 + o.imm.toNat)

  | .andi o => some (1792 + o.d.val, o.a.val * 33554432 + o.imm.toNat)

  | .ori o => some (2304 + o.d.val, o.a.val * 33554432 + o.imm.toNat)

  | .xori o => some (2816 + o.d.val, o.a.val * 33554432 + o.imm.toNat)

  | .slti o => some (3328 + o.d.val, o.a.val * 33554432 + o.imm.toNat)

  | .sltiu o => some (3328 + o.d.val, 16777216 + o.a.val * 33554432 + o.imm.toNat)

  | .shli o => some (3840 + o.d.val, o.a.val * 33554432 + o.amount.val)

  | .shri o => some (3840 + o.d.val, 64 + o.a.val * 33554432 + o.amount.val)

  | .srai o => some (3840 + o.d.val, 128 + o.a.val * 33554432 + o.amount.val)

  | .roli o => some (3840 + o.d.val, 192 + o.a.val * 33554432 + o.amount.val)

  | .li o => some (4352 + o.d.val, o.imm.toNat)

  | .lih o => some (4864 + o.d.val, o.imm.toNat)

  | .sel o => some (5504 + o.d.val, o.c.val * 2199023255552 + o.a.val * 17179869184 + o.b.val * 134217728)

  | .ldb o => some (8448 + o.d.val, o.base.val * 33554432 + o.off.toNat)

  | .ldbu o => some (8448 + o.d.val, 4194304 + o.base.val * 33554432 + o.off.toNat)

  | .ldh o => some (8448 + o.d.val, 8388608 + o.base.val * 33554432 + o.off.toNat)

  | .ldhu o => some (8448 + o.d.val, 12582912 + o.base.val * 33554432 + o.off.toNat)

  | .ldw o => some (8448 + o.d.val, 16777216 + o.base.val * 33554432 + o.off.toNat)

  | .ldwu o => some (8448 + o.d.val, 20971520 + o.base.val * 33554432 + o.off.toNat)

  | .ldd o => some (8448 + o.d.val, 25165824 + o.base.val * 33554432 + o.off.toNat)

  | .stb o => some (8960 + (o.off.toNat / 4096), o.src.val * 262144 + o.base.val * 33554432 + (o.off.toNat % 4096))

  | .sth o => some (8960 + (o.off.toNat / 4096), 4096 + o.src.val * 262144 + o.base.val * 33554432 + (o.off.toNat % 4096))

  | .stw o => some (8960 + (o.off.toNat / 4096), 8192 + o.src.val * 262144 + o.base.val * 33554432 + (o.off.toNat % 4096))

  | .std o => some (8960 + (o.off.toNat / 4096), 12288 + o.src.val * 262144 + o.base.val * 33554432 + (o.off.toNat % 4096))

  | .ldaq o => some (9472 + o.d.val, o.base.val * 33554432 + o.size.code + bit01 o.sgn * 4 + o.scope.code * 8 + o.off.toNat * 64)

  | .strl o => some (9984, o.src.val * 262144 + o.base.val * 33554432 + o.size.code + o.scope.code * 8 + o.off.toNat * 64)

  | .amoadd o => some (10496 + o.d.val, o.addr.val * 33554432 + o.src.val * 262144 + bit01 o.dbl * 16 + o.scope.code * 32 + o.ord.code * 256)

  | .amomin o => some (10496 + o.d.val, 1 + o.addr.val * 33554432 + o.src.val * 262144 + bit01 o.dbl * 16 + o.scope.code * 32 + o.ord.code * 256)

  | .amomax o => some (10496 + o.d.val, 2 + o.addr.val * 33554432 + o.src.val * 262144 + bit01 o.dbl * 16 + o.scope.code * 32 + o.ord.code * 256)

  | .amominu o => some (10496 + o.d.val, 3 + o.addr.val * 33554432 + o.src.val * 262144 + bit01 o.dbl * 16 + o.scope.code * 32 + o.ord.code * 256)

  | .amomaxu o => some (10496 + o.d.val, 4 + o.addr.val * 33554432 + o.src.val * 262144 + bit01 o.dbl * 16 + o.scope.code * 32 + o.ord.code * 256)

  | .amoand o => some (10496 + o.d.val, 5 + o.addr.val * 33554432 + o.src.val * 262144 + bit01 o.dbl * 16 + o.scope.code * 32 + o.ord.code * 256)

  | .amoor o => some (10496 + o.d.val, 6 + o.addr.val * 33554432 + o.src.val * 262144 + bit01 o.dbl * 16 + o.scope.code * 32 + o.ord.code * 256)

  | .amoxor o => some (10496 + o.d.val, 7 + o.addr.val * 33554432 + o.src.val * 262144 + bit01 o.dbl * 16 + o.scope.code * 32 + o.ord.code * 256)

  | .amoswp o => some (10496 + o.d.val, 8 + o.addr.val * 33554432 + o.src.val * 262144 + bit01 o.dbl * 16 + o.scope.code * 32 + o.ord.code * 256)

  | .cas o => some (11136 + o.d.val, o.addr.val * 2199023255552 + o.expect.val * 17179869184 + o.new.val * 134217728 + bit01 o.dbl + o.scope.code * 2 + o.ord.code * 16)

  | .beq o => some (12544, o.a.val * 33554432 + o.b.val * 262144 + o.loff.toNat * 32 + o.slot.val)

  | .bne o => some (12544, 32768 + o.a.val * 33554432 + o.b.val * 262144 + o.loff.toNat * 32 + o.slot.val)

  | .blt o => some (12544, 65536 + o.a.val * 33554432 + o.b.val * 262144 + o.loff.toNat * 32 + o.slot.val)

  | .bge o => some (12544, 98304 + o.a.val * 33554432 + o.b.val * 262144 + o.loff.toNat * 32 + o.slot.val)

  | .bltu o => some (12544, 131072 + o.a.val * 33554432 + o.b.val * 262144 + o.loff.toNat * 32 + o.slot.val)

  | .bgeu o => some (12544, 163840 + o.a.val * 33554432 + o.b.val * 262144 + o.loff.toNat * 32 + o.slot.val)

  | .jmp o => some (13056, o.loff.toNat * 32 + o.slot.val)

  | .call o => some (13568, o.loff.toNat * 32 + o.slot.val)

  | .jr r => some (13952, r.val * 512)

  | .callr r => some (13952, 1 + r.val * 512)

  | .ret => some (14336, 0)

  | .bmany o => some (15104, (32 + o.a.val) * 33554432 + o.loff.toNat * 32 + o.slot.val)

  | .bmnone o => some (15104, 32768 + (32 + o.a.val) * 33554432 + o.loff.toNat * 32 + o.slot.val)

  | .nop => some (16384, 0)

  | .yield => some (16385, 0)

  | .halt => some (16386, 0)

  | .eret => some (16387, 0)

  | .brk => some (16388, 0)

  | .csrrw o => some (17152 + o.d.val, o.a.val * 33554432 + o.csr.val)

  | .csrrs o => some (17152 + o.d.val, 4096 + o.a.val * 33554432 + o.csr.val)

  | .csrrc o => some (17152 + o.d.val, 8192 + o.a.val * 33554432 + o.csr.val)

  | .fenceSv => some (17408, 0)

  | .fenceVs => some (17416, 0)

  | .fenceVv => some (17424, 0)

  | .fenceAcq r => some (17432 + r.code, 0)

  | .fenceRel r => some (17440 + r.code, 0)

  | .fenceFull r => some (17448 + r.code, 0)

  | .trap r => some (18176, r.toNat)

  | .waitm o => some (18688 + o.d.val, o.addr.val * 33554432 + o.cmp.val * 262144 + bit01 o.dbl + o.cond.code * 2 + o.scope.code * 8)

  | .invrdc o => some (19200, o.base.val * 33554432 + o.len.val * 262144)

  | .wbl2 o => some (19200, 1 + o.base.val * 33554432 + o.len.val * 262144)

  | .invl1 o => some (19200, 2 + o.base.val * 33554432 + o.len.val * 262144)

  | .pref o => some (19200, 3 + o.base.val * 33554432 + o.len.val * 262144 + bit01 o.lvl * 4)

  | .publish o => some (19712, o.base.val * 33554432 + o.len.val * 262144)

  | .launch rd rr => some (20096 + rd.val, rr.val * 512)

  | .seal ri rl => some (20736, ri.val * 33554432 + rl.val * 262144)

  | .sealq rd ri => some (20736 + rd.val, 1 + ri.val * 33554432)

  | .qpush o => some (22784, o.q.val * 4 + o.w0.val * 33554432 + o.w1.val * 262144)

  | .qpop o => some (22784 + o.d.val, 1 + o.q.val * 4 + o.st.val * 33554432)

  | .qtrypop o => some (22784 + o.d.val, 2 + o.q.val * 4 + o.st.val * 33554432)

  | .qstat o => some (22784 + o.d.val, 3 + o.q.val * 4)

  | .ginit o => some (23296, o.gate.val * 33554432 + o.count.val * 262144 + o.scope.code * 8)

  | .garr o => some (23296 + o.d.val, 1 + o.gate.val * 33554432 + o.count.val * 262144 + o.scope.code * 8)

  | .gwait o => some (23296, 2 + o.gate.val * 33554432 + o.phase.val * 262144 + o.scope.code * 8)

  | .garw o => some (23296 + o.d.val, 3 + o.gate.val * 33554432 + o.count.val * 262144 + o.scope.code * 8)

  | .gqry o => some (23296 + o.d.val, 4 + o.gate.val * 33554432 + o.scope.code * 8)

  | .vcfg o => some (24704, o.list.val * 512 + o.nv.val + o.c.val * 4)

  | .setvl o => some (25216 + o.d.val, o.a.val * 512 + o.w.code)

  | .setvr o => some (25728 + o.d.val, o.a.val * 512 + o.w.code)

  | .setvlb o => some (26368 + o.d.val, o.a.val * 33554432 + o.w.code * 32768 + o.loff.toNat * 32 + o.slot.val)

  | .vadd o => some (33024 + (64 + o.d.val), (64 + o.a.val) * 33554432 + o.b.code * 262144 + o.b.sx * 256 + o.w.code * 64 + o.m.val * 16384)

  | .vsub o => some (33024 + (64 + o.d.val), 1 + (64 + o.a.val) * 33554432 + o.b.code * 262144 + o.b.sx * 256 + o.w.code * 64 + o.m.val * 16384)

  | .vmul o => some (33024 + (64 + o.d.val), 2 + (64 + o.a.val) * 33554432 + o.b.code * 262144 + o.b.sx * 256 + o.w.code * 64 + o.m.val * 16384)

  | .vmulh o => some (33024 + (64 + o.d.val), 3 + (64 + o.a.val) * 33554432 + o.b.code * 262144 + o.b.sx * 256 + o.w.code * 64 + o.m.val * 16384)

  | .vmulhu o => some (33024 + (64 + o.d.val), 4 + (64 + o.a.val) * 33554432 + o.b.code * 262144 + o.b.sx * 256 + o.w.code * 64 + o.m.val * 16384)

  | .vmin o => some (33024 + (64 + o.d.val), 5 + (64 + o.a.val) * 33554432 + o.b.code * 262144 + o.b.sx * 256 + o.w.code * 64 + o.m.val * 16384)

  | .vmax o => some (33024 + (64 + o.d.val), 6 + (64 + o.a.val) * 33554432 + o.b.code * 262144 + o.b.sx * 256 + o.w.code * 64 + o.m.val * 16384)

  | .vminu o => some (33024 + (64 + o.d.val), 7 + (64 + o.a.val) * 33554432 + o.b.code * 262144 + o.b.sx * 256 + o.w.code * 64 + o.m.val * 16384)

  | .vmaxu o => some (33024 + (64 + o.d.val), 8 + (64 + o.a.val) * 33554432 + o.b.code * 262144 + o.b.sx * 256 + o.w.code * 64 + o.m.val * 16384)

  | .vand o => some (33024 + (64 + o.d.val), 9 + (64 + o.a.val) * 33554432 + o.b.code * 262144 + o.b.sx * 256 + o.w.code * 64 + o.m.val * 16384)

  | .vor o => some (33024 + (64 + o.d.val), 10 + (64 + o.a.val) * 33554432 + o.b.code * 262144 + o.b.sx * 256 + o.w.code * 64 + o.m.val * 16384)

  | .vxor o => some (33024 + (64 + o.d.val), 11 + (64 + o.a.val) * 33554432 + o.b.code * 262144 + o.b.sx * 256 + o.w.code * 64 + o.m.val * 16384)

  | .vandn o => some (33024 + (64 + o.d.val), 12 + (64 + o.a.val) * 33554432 + o.b.code * 262144 + o.b.sx * 256 + o.w.code * 64 + o.m.val * 16384)

  | .vshl o => some (33024 + (64 + o.d.val), 13 + (64 + o.a.val) * 33554432 + o.b.code * 262144 + o.b.sx * 256 + o.w.code * 64 + o.m.val * 16384)

  | .vshr o => some (33024 + (64 + o.d.val), 14 + (64 + o.a.val) * 33554432 + o.b.code * 262144 + o.b.sx * 256 + o.w.code * 64 + o.m.val * 16384)

  | .vsra o => some (33024 + (64 + o.d.val), 15 + (64 + o.a.val) * 33554432 + o.b.code * 262144 + o.b.sx * 256 + o.w.code * 64 + o.m.val * 16384)

  | .vadds o => some (33024 + (64 + o.d.val), 16 + (64 + o.a.val) * 33554432 + o.b.code * 262144 + o.b.sx * 256 + o.w.code * 64 + o.m.val * 16384)

  | .vsubs o => some (33024 + (64 + o.d.val), 17 + (64 + o.a.val) * 33554432 + o.b.code * 262144 + o.b.sx * 256 + o.w.code * 64 + o.m.val * 16384)

  | .vabsd o => some (33024 + (64 + o.d.val), 21 + (64 + o.a.val) * 33554432 + o.b.code * 262144 + o.b.sx * 256 + o.w.code * 64 + o.m.val * 16384)

  | .vpopc o => some (33024 + (64 + o.d.val), 18 + (64 + o.a.val) * 33554432 + o.w.code * 64 + o.m.val * 16384)

  | .vclz o => some (33024 + (64 + o.d.val), 19 + (64 + o.a.val) * 33554432 + o.w.code * 64 + o.m.val * 16384)

  | .vctz o => some (33024 + (64 + o.d.val), 20 + (64 + o.a.val) * 33554432 + o.w.code * 64 + o.m.val * 16384)

  | .vaddi o => some (33536 + (64 + o.d.val), (64 + o.a.val) * 33554432 + o.w.code * 262144 + o.imm.toNat)

  | .vsubi o => some (33536 + (64 + o.d.val), 1048576 + (64 + o.a.val) * 33554432 + o.w.code * 262144 + o.imm.toNat)

  | .vandi o => some (33536 + (64 + o.d.val), 9437184 + (64 + o.a.val) * 33554432 + o.w.code * 262144 + o.imm.toNat)

  | .vori o => some (33536 + (64 + o.d.val), 10485760 + (64 + o.a.val) * 33554432 + o.w.code * 262144 + o.imm.toNat)

  | .vxori o => some (33536 + (64 + o.d.val), 11534336 + (64 + o.a.val) * 33554432 + o.w.code * 262144 + o.imm.toNat)

  | .vshli o => some (33536 + (64 + o.d.val), 13631488 + (64 + o.a.val) * 33554432 + o.w.code * 262144 + o.imm.toNat)

  | .vshri o => some (33536 + (64 + o.d.val), 14680064 + (64 + o.a.val) * 33554432 + o.w.code * 262144 + o.imm.toNat)

  | .vsrai o => some (33536 + (64 + o.d.val), 15728640 + (64 + o.a.val) * 33554432 + o.w.code * 262144 + o.imm.toNat)

  | .vaddsi o => some (33536 + (64 + o.d.val), 16777216 + (64 + o.a.val) * 33554432 + o.w.code * 262144 + o.imm.toNat)

  | .vsubsi o => some (33536 + (64 + o.d.val), 17825792 + (64 + o.a.val) * 33554432 + o.w.code * 262144 + o.imm.toNat)

  | .vfadd o => some (34048 + (64 + o.d.val), (64 + o.a.val) * 33554432 + o.b.code * 262144 + o.b.sx * 128 + o.fmt.code * 8 + o.rm.code * 32 + o.m.val * 16384)

  | .vfsub o => some (34048 + (64 + o.d.val), 1 + (64 + o.a.val) * 33554432 + o.b.code * 262144 + o.b.sx * 128 + o.fmt.code * 8 + o.rm.code * 32 + o.m.val * 16384)

  | .vfmul o => some (34048 + (64 + o.d.val), 2 + (64 + o.a.val) * 33554432 + o.b.code * 262144 + o.b.sx * 128 + o.fmt.code * 8 + o.rm.code * 32 + o.m.val * 16384)

  | .vfdiv o => some (34048 + (64 + o.d.val), 3 + (64 + o.a.val) * 33554432 + o.b.code * 262144 + o.b.sx * 128 + o.fmt.code * 8 + o.rm.code * 32 + o.m.val * 16384)

  | .vfmin o => some (34048 + (64 + o.d.val), 4 + (64 + o.a.val) * 33554432 + o.b.code * 262144 + o.b.sx * 128 + o.fmt.code * 8 + o.m.val * 16384)

  | .vfmax o => some (34048 + (64 + o.d.val), 5 + (64 + o.a.val) * 33554432 + o.b.code * 262144 + o.b.sx * 128 + o.fmt.code * 8 + o.m.val * 16384)

  | .vfsgnj o => some (34048 + (64 + o.d.val), 6 + (64 + o.a.val) * 33554432 + o.b.code * 262144 + o.b.sx * 128 + o.fmt.code * 8 + o.m.val * 16384)

  | .vfma o => some (34688 + (64 + o.d.val), (64 + o.a.val) * 2199023255552 + o.b.code * 17179869184 + o.b.sx * 64 + (64 + o.c.val) * 134217728 + o.fmt.code * 4 + o.rm.code * 16 + o.m.val * 8388608)

  | .vfms o => some (34688 + (64 + o.d.val), 1 + (64 + o.a.val) * 2199023255552 + o.b.code * 17179869184 + o.b.sx * 64 + (64 + o.c.val) * 134217728 + o.fmt.code * 4 + o.rm.code * 16 + o.m.val * 8388608)

  | .vfnma o => some (34688 + (64 + o.d.val), 2 + (64 + o.a.val) * 2199023255552 + o.b.code * 17179869184 + o.b.sx * 64 + (64 + o.c.val) * 134217728 + o.fmt.code * 4 + o.rm.code * 16 + o.m.val * 8388608)

  | .vfnms o => some (34688 + (64 + o.d.val), 3 + (64 + o.a.val) * 2199023255552 + o.b.code * 17179869184 + o.b.sx * 64 + (64 + o.c.val) * 134217728 + o.fmt.code * 4 + o.rm.code * 16 + o.m.val * 8388608)

  | .vfsqrt o => some (35072 + (64 + o.d.val), (64 + o.a.val) * 33554432 + o.fmt.code * 8 + o.rm.code * 32 + o.m.val * 16384)

  | .vfrcp o => some (35072 + (64 + o.d.val), 1 + (64 + o.a.val) * 33554432 + o.fmt.code * 8 + o.rm.code * 32 + o.m.val * 16384)

  | .vfrsq o => some (35072 + (64 + o.d.val), 2 + (64 + o.a.val) * 33554432 + o.fmt.code * 8 + o.rm.code * 32 + o.m.val * 16384)

  | .vfexp2 o => some (35072 + (64 + o.d.val), 3 + (64 + o.a.val) * 33554432 + o.fmt.code * 8 + o.rm.code * 32 + o.m.val * 16384)

  | .vflog2 o => some (35072 + (64 + o.d.val), 4 + (64 + o.a.val) * 33554432 + o.fmt.code * 8 + o.rm.code * 32 + o.m.val * 16384)

  | .vfabs o => some (35072 + (64 + o.d.val), 5 + (64 + o.a.val) * 33554432 + o.fmt.code * 8 + o.m.val * 16384)

  | .vfneg o => some (35072 + (64 + o.d.val), 6 + (64 + o.a.val) * 33554432 + o.fmt.code * 8 + o.m.val * 16384)

  | .vfclass o => some (35072 + (64 + o.d.val), 7 + (64 + o.a.val) * 33554432 + o.fmt.code * 8 + o.m.val * 16384)

  | .vcvt o => some (35584 + (64 + o.d.val), (64 + o.a.val) * 33554432 + o.src.val + o.dst.val * 16 + o.rm.code * 256 + bit01 o.sat * 1024 + o.m.val * 16384)

  | .vcmpeq o => some (36096 + (32 + o.d.val), (64 + o.a.val) * 33554432 + o.b.code * 262144 + o.b.sx * 32 + o.w.code * 8 + o.m.val * 16384)

  | .vcmpne o => some (36096 + (32 + o.d.val), 1 + (64 + o.a.val) * 33554432 + o.b.code * 262144 + o.b.sx * 32 + o.w.code * 8 + o.m.val * 16384)

  | .vcmplt o => some (36096 + (32 + o.d.val), 2 + (64 + o.a.val) * 33554432 + o.b.code * 262144 + o.b.sx * 32 + o.w.code * 8 + o.m.val * 16384)

  | .vcmpge o => some (36096 + (32 + o.d.val), 3 + (64 + o.a.val) * 33554432 + o.b.code * 262144 + o.b.sx * 32 + o.w.code * 8 + o.m.val * 16384)

  | .vcmpltu o => some (36096 + (32 + o.d.val), 4 + (64 + o.a.val) * 33554432 + o.b.code * 262144 + o.b.sx * 32 + o.w.code * 8 + o.m.val * 16384)

  | .vcmpgeu o => some (36096 + (32 + o.d.val), 5 + (64 + o.a.val) * 33554432 + o.b.code * 262144 + o.b.sx * 32 + o.w.code * 8 + o.m.val * 16384)

  | .vfcmpeq o => some (36608 + (32 + o.d.val), (64 + o.a.val) * 33554432 + o.b.code * 262144 + o.b.sx * 32 + o.fmt.code * 8 + o.m.val * 16384)

  | .vfcmpne o => some (36608 + (32 + o.d.val), 1 + (64 + o.a.val) * 33554432 + o.b.code * 262144 + o.b.sx * 32 + o.fmt.code * 8 + o.m.val * 16384)

  | .vfcmplt o => some (36608 + (32 + o.d.val), 2 + (64 + o.a.val) * 33554432 + o.b.code * 262144 + o.b.sx * 32 + o.fmt.code * 8 + o.m.val * 16384)

  | .vfcmple o => some (36608 + (32 + o.d.val), 3 + (64 + o.a.val) * 33554432 + o.b.code * 262144 + o.b.sx * 32 + o.fmt.code * 8 + o.m.val * 16384)

  | .vfcmpgt o => some (36608 + (32 + o.d.val), 4 + (64 + o.a.val) * 33554432 + o.b.code * 262144 + o.b.sx * 32 + o.fmt.code * 8 + o.m.val * 16384)

  | .vfcmpge o => some (36608 + (32 + o.d.val), 5 + (64 + o.a.val) * 33554432 + o.b.code * 262144 + o.b.sx * 32 + o.fmt.code * 8 + o.m.val * 16384)

  | .vfcmpun o => some (36608 + (32 + o.d.val), 6 + (64 + o.a.val) * 33554432 + o.b.code * 262144 + o.b.sx * 32 + o.fmt.code * 8 + o.m.val * 16384)

  | .vsel o => some (37120 + (64 + o.d.val), (64 + o.a.val) * 33554432 + o.b.code * 262144 + o.b.sx * 4 + o.w.code + o.m.val * 16384)

  | .vmv o => some (37632 + (64 + o.d.val), (64 + o.a.val) * 33554432 + o.w.code * 8 + o.m.val * 16384)

  | .vbcast o => some (37632 + (64 + o.d.val), 1 + o.a.val * 33554432 + o.w.code * 8 + o.m.val * 16384)

  | .vmvxs o => some (37632 + o.d.val, 2 + (64 + o.a.val) * 33554432 + o.pos.val * 262144 + o.w.code * 8 + bit01 o.sgn * 32)

  | .vmvsx o => some (37632 + (64 + o.d.val), 3 + o.a.val * 33554432 + o.pos.val * 262144 + o.w.code * 8)

  | .viota o => some (37632 + (64 + o.d.val), 4 + (32 + o.a.val) * 33554432 + o.w.code * 8 + o.m.val * 16384)

  | .vredsum o => some (39168 + (64 + o.d.val), (64 + o.a.val) * 33554432 + o.axis.code * 16 + o.m.val * 16384 + o.w.code * 32 + bit01 o.sat * 512)

  | .vredmin o => some (39168 + (64 + o.d.val), 1 + (64 + o.a.val) * 33554432 + o.axis.code * 16 + o.m.val * 16384 + o.w.code * 32)

  | .vredmax o => some (39168 + (64 + o.d.val), 2 + (64 + o.a.val) * 33554432 + o.axis.code * 16 + o.m.val * 16384 + o.w.code * 32)

  | .vredminu o => some (39168 + (64 + o.d.val), 3 + (64 + o.a.val) * 33554432 + o.axis.code * 16 + o.m.val * 16384 + o.w.code * 32)

  | .vredmaxu o => some (39168 + (64 + o.d.val), 4 + (64 + o.a.val) * 33554432 + o.axis.code * 16 + o.m.val * 16384 + o.w.code * 32)

  | .vredand o => some (39168 + (64 + o.d.val), 5 + (64 + o.a.val) * 33554432 + o.axis.code * 16 + o.m.val * 16384 + o.w.code * 32)

  | .vredor o => some (39168 + (64 + o.d.val), 6 + (64 + o.a.val) * 33554432 + o.axis.code * 16 + o.m.val * 16384 + o.w.code * 32)

  | .vredxor o => some (39168 + (64 + o.d.val), 7 + (64 + o.a.val) * 33554432 + o.axis.code * 16 + o.m.val * 16384 + o.w.code * 32)

  | .vredfsum o => some (39168 + (64 + o.d.val), 8 + (64 + o.a.val) * 33554432 + o.axis.code * 16 + o.m.val * 16384 + o.fmt.code * 32 + o.rm.code * 128)

  | .vredfmin o => some (39168 + (64 + o.d.val), 9 + (64 + o.a.val) * 33554432 + o.axis.code * 16 + o.m.val * 16384 + o.fmt.code * 32)

  | .vredfmax o => some (39168 + (64 + o.d.val), 10 + (64 + o.a.val) * 33554432 + o.axis.code * 16 + o.m.val * 16384 + o.fmt.code * 32)

  | .vredmini o => some (39680 + (64 + o.d.val), (64 + o.a.val) * 33554432 + o.axis.code * 4 + o.m.val * 16384 + o.w.code * 8)

  | .vredmaxi o => some (39680 + (64 + o.d.val), 1 + (64 + o.a.val) * 33554432 + o.axis.code * 4 + o.m.val * 16384 + o.w.code * 8)

  | .vredfmini o => some (39680 + (64 + o.d.val), 2 + (64 + o.a.val) * 33554432 + o.axis.code * 4 + o.m.val * 16384 + o.fmt.code * 8)

  | .vredfmaxi o => some (39680 + (64 + o.d.val), 3 + (64 + o.a.val) * 33554432 + o.axis.code * 4 + o.m.val * 16384 + o.fmt.code * 8)

  | .vscansum o => some (40192 + (64 + o.d.val), (64 + o.a.val) * 33554432 + o.axis.code * 16 + o.m.val * 16384 + o.w.code * 32)

  | .vxscansum o => some (40192 + (64 + o.d.val), 8 + (64 + o.a.val) * 33554432 + o.axis.code * 16 + o.m.val * 16384 + o.w.code * 32)

  | .vscanmax o => some (40192 + (64 + o.d.val), 1 + (64 + o.a.val) * 33554432 + o.axis.code * 16 + o.m.val * 16384 + o.w.code * 32)

  | .vxscanmax o => some (40192 + (64 + o.d.val), 9 + (64 + o.a.val) * 33554432 + o.axis.code * 16 + o.m.val * 16384 + o.w.code * 32)

  | .vscanmaxu o => some (40192 + (64 + o.d.val), 2 + (64 + o.a.val) * 33554432 + o.axis.code * 16 + o.m.val * 16384 + o.w.code * 32)

  | .vxscanmaxu o => some (40192 + (64 + o.d.val), 10 + (64 + o.a.val) * 33554432 + o.axis.code * 16 + o.m.val * 16384 + o.w.code * 32)

  | .vscanfsum o => some (40192 + (64 + o.d.val), 3 + (64 + o.a.val) * 33554432 + o.axis.code * 16 + o.m.val * 16384 + o.fmt.code * 32 + o.rm.code * 128)

  | .vxscanfsum o => some (40192 + (64 + o.d.val), 11 + (64 + o.a.val) * 33554432 + o.axis.code * 16 + o.m.val * 16384 + o.fmt.code * 32 + o.rm.code * 128)

  | .vscanfmax o => some (40192 + (64 + o.d.val), 4 + (64 + o.a.val) * 33554432 + o.axis.code * 16 + o.m.val * 16384 + o.fmt.code * 32)

  | .vxscanfmax o => some (40192 + (64 + o.d.val), 12 + (64 + o.a.val) * 33554432 + o.axis.code * 16 + o.m.val * 16384 + o.fmt.code * 32)

  | .vcompress o => some (41216 + (64 + o.d.val), (64 + o.a.val) * 33554432 + o.w.code * 8 + o.m.val * 16384 + o.cnt.val * 128)

  | .vexpand o => some (41216 + (64 + o.d.val), 1 + (64 + o.a.val) * 33554432 + o.w.code * 8 + o.m.val * 16384)

  | .vgathr o => some (41216 + (64 + o.d.val), 2 + (64 + o.a.val) * 33554432 + o.w.code * 8 + o.m.val * 16384 + (64 + o.idx.val) * 262144)

  | .vslideup o => some (41216 + (64 + o.d.val), 3 + (64 + o.a.val) * 33554432 + o.w.code * 8 + o.m.val * 16384 + o.k.val * 262144)

  | .vslidedn o => some (41216 + (64 + o.d.val), 4 + (64 + o.a.val) * 33554432 + o.w.code * 8 + o.m.val * 16384 + o.k.val * 262144)

  | .vtrans o => some (41216 + (64 + o.d.val), 5 + (64 + o.a.val) * 33554432 + o.w.code * 8 + o.m.val * 16384)

  | .vrowbc o => some (41216 + (64 + o.d.val), 6 + (64 + o.a.val) * 33554432 + o.w.code * 8 + o.m.val * 16384 + o.k.val * 262144)

  | .mand o => some (43264 + (32 + o.d.val), (32 + o.a.val) * 33554432 + (32 + o.b.val) * 262144 + o.m.val * 16384)

  | .mor o => some (43264 + (32 + o.d.val), 1 + (32 + o.a.val) * 33554432 + (32 + o.b.val) * 262144 + o.m.val * 16384)

  | .mxor o => some (43264 + (32 + o.d.val), 2 + (32 + o.a.val) * 33554432 + (32 + o.b.val) * 262144 + o.m.val * 16384)

  | .mandn o => some (43264 + (32 + o.d.val), 3 + (32 + o.a.val) * 33554432 + (32 + o.b.val) * 262144 + o.m.val * 16384)

  | .mnot o => some (43264 + (32 + o.d.val), 4 + (32 + o.a.val) * 33554432 + o.m.val * 16384)

  | .mset o => some (43264 + (32 + o.d.val), 5 + o.a.val * 33554432 + o.m.val * 16384)

  | .mcnt o => some (43264 + o.d.val, 6 + (32 + o.a.val) * 33554432 + o.m.val * 16384)

  | .many o => some (43264 + o.d.val, 7 + (32 + o.a.val) * 33554432 + o.m.val * 16384)

  | .mfst o => some (43264 + o.d.val, 8 + (32 + o.a.val) * 33554432 + o.m.val * 16384)

  | .vld o => some (45312 + (64 + o.d.val), o.base.val * 33554432 + o.pitch.val * 262144 + o.w.code + o.m.val * 16384)

  | .vlds o => some (45312 + (64 + o.d.val), 4 + o.base.val * 33554432 + o.pitch.val * 262144 + o.w.code + o.m.val * 16384)

  | .vldx o => some (46336 + (64 + o.d.val), o.base.val * 33554432 + (64 + o.idx.val) * 262144 + o.w.code + o.m.val * 16384)

  | .vldff o => some (46848 + (64 + o.d.val), o.base.val * 33554432 + o.pitch.val * 262144 + o.w.code + o.m.val * 16384)

  | .vst o => some (47360 + (64 + o.d.val), o.base.val * 33554432 + o.pitch.val * 262144 + o.w.code + o.m.val * 16384)

  | .vsts o => some (47360 + (64 + o.d.val), 4 + o.base.val * 33554432 + o.pitch.val * 262144 + o.w.code + o.m.val * 16384)

  | .vstx o => some (47872 + (64 + o.d.val), o.base.val * 33554432 + (64 + o.idx.val) * 262144 + o.w.code + o.m.val * 16384)

  | .vstxO o => some (47872 + (64 + o.d.val), 4 + o.base.val * 33554432 + (64 + o.idx.val) * 262144 + o.w.code + o.m.val * 16384)

  | .vamoadd o => some (48384 + (64 + o.d.val), o.base.val * 33554432 + (64 + o.idx.val) * 262144 + (2 + bit01 o.dbl) * 16 + o.scope.code * 64 + o.ord.code * 512 + bit01 o.ret * 2048 + o.m.val * 16384)

  | .vamomin o => some (48384 + (64 + o.d.val), 1 + o.base.val * 33554432 + (64 + o.idx.val) * 262144 + (2 + bit01 o.dbl) * 16 + o.scope.code * 64 + o.ord.code * 512 + bit01 o.ret * 2048 + o.m.val * 16384)

  | .vamomax o => some (48384 + (64 + o.d.val), 2 + o.base.val * 33554432 + (64 + o.idx.val) * 262144 + (2 + bit01 o.dbl) * 16 + o.scope.code * 64 + o.ord.code * 512 + bit01 o.ret * 2048 + o.m.val * 16384)

  | .vamominu o => some (48384 + (64 + o.d.val), 3 + o.base.val * 33554432 + (64 + o.idx.val) * 262144 + (2 + bit01 o.dbl) * 16 + o.scope.code * 64 + o.ord.code * 512 + bit01 o.ret * 2048 + o.m.val * 16384)

  | .vamomaxu o => some (48384 + (64 + o.d.val), 4 + o.base.val * 33554432 + (64 + o.idx.val) * 262144 + (2 + bit01 o.dbl) * 16 + o.scope.code * 64 + o.ord.code * 512 + bit01 o.ret * 2048 + o.m.val * 16384)

  | .vamoand o => some (48384 + (64 + o.d.val), 5 + o.base.val * 33554432 + (64 + o.idx.val) * 262144 + (2 + bit01 o.dbl) * 16 + o.scope.code * 64 + o.ord.code * 512 + bit01 o.ret * 2048 + o.m.val * 16384)

  | .vamoor o => some (48384 + (64 + o.d.val), 6 + o.base.val * 33554432 + (64 + o.idx.val) * 262144 + (2 + bit01 o.dbl) * 16 + o.scope.code * 64 + o.ord.code * 512 + bit01 o.ret * 2048 + o.m.val * 16384)

  | .vamoxor o => some (48384 + (64 + o.d.val), 7 + o.base.val * 33554432 + (64 + o.idx.val) * 262144 + (2 + bit01 o.dbl) * 16 + o.scope.code * 64 + o.ord.code * 512 + bit01 o.ret * 2048 + o.m.val * 16384)

  | .vamoswp o => some (48384 + (64 + o.d.val), 8 + o.base.val * 33554432 + (64 + o.idx.val) * 262144 + (2 + bit01 o.dbl) * 16 + o.scope.code * 64 + o.ord.code * 512 + bit01 o.ret * 2048 + o.m.val * 16384)

  | .stra o => some (48896 + (64 + o.d.val), o.desc.val * 33554432 + o.start.val * 262144 + o.slot.val * 4 + o.w.code * 16)

  | .strx o => some (48896 + (64 + o.d.val), 1 + o.desc.val * 33554432 + o.start.val * 262144 + o.slot.val * 4 + o.w.code * 16)

  | .stroff o => some (48896, 2 + o.slot.val * 4)

  | .strpos o => some (48896 + o.d.val, 3 + o.slot.val * 4)

  | .mmaIp o => some (49536 + (64 + o.d.val), (64 + o.a.val) * 2199023255552 + v0Code o.b * 17179869184 + bit01 o.bsrc * 4096 + o.wslot.val * 8192 + (32 + o.kmask.val) * 134217728 + o.cmask.val * 8388608 + bit01 o.ta * 16384 + o.accf.val * 1024 + o.bfmt.val * 64 + o.afmt.val * 4)

  | .mmaOp o => some (49536 + (64 + o.d.val), 1 + (64 + o.a.val) * 2199023255552 + v0Code o.b * 17179869184 + bit01 o.bsrc * 4096 + o.wslot.val * 8192 + (32 + o.kmask.val) * 134217728 + o.cmask.val * 8388608 + bit01 o.ta * 16384 + o.accf.val * 1024 + o.bfmt.val * 64 + o.afmt.val * 4)

  | .mmaRw o => some (49536 + (64 + o.d.val), 2 + (64 + o.a.val) * 2199023255552 + v0Code o.b * 17179869184 + bit01 o.bsrc * 4096 + o.wslot.val * 8192 + (32 + o.kmask.val) * 134217728 + o.cmask.val * 8388608 + bit01 o.ta * 16384 + o.accf.val * 1024 + o.bfmt.val * 64 + o.afmt.val * 4)

  | .mzero o => some (49792 + (64 + o.d.val), o.g.val * 2)

  | .msets r => some (49792, 1 + r.val * 512)

  | .wbld o => some (50432, o.values.val * 33554432 + o.scales.val * 262144 + o.fmt.val + o.slot.val * 16 + o.m.val * 16384)

  | .mdrain o => some (50944 + (64 + o.d.val), (64 + o.a.val) * 33554432 + o.g.val * 1024 + bit01 o.sat * 256 + o.rm.code * 64 + o.ofmt.val * 4 + o.accf.val + o.m.val * 16384)

  | .mdrainZ o => some (50944 + (64 + o.d.val), 512 + (64 + o.a.val) * 33554432 + o.g.val * 1024 + bit01 o.sat * 256 + o.rm.code * 64 + o.ofmt.val * 4 + o.accf.val + o.m.val * 16384 + (32 + o.z.val) * 262144)

  | .vsort o => some (53504 + (64 + o.d.val), (64 + o.a.val) * 33554432 + o.w.code + bit01 o.sgn * 4 + bit01 o.desc * 8 + o.m.val * 16384)

  | .vmrg o => some (54144 + (64 + o.d.val), o.cnt.val * 65536 + (64 + o.a.val) * 2199023255552 + (64 + o.b.val) * 17179869184 + o.lens.val * 134217728 + o.w.code)

  | .vunionadd o => some (54656 + (64 + o.d.val), o.cnt.val * 65536 + (64 + o.a.val) * 2199023255552 + (64 + o.b.val) * 17179869184 + o.lens.val * 134217728 + bit01 o.dz * 8 + o.fmt.code * 16 + o.rm.code * 128)

  | .vunionmax o => some (54656 + (64 + o.d.val), 2 + o.cnt.val * 65536 + (64 + o.a.val) * 2199023255552 + (64 + o.b.val) * 17179869184 + o.lens.val * 134217728 + bit01 o.dz * 8 + o.fmt.code * 16)

  | .vunionfst o => some (54656 + (64 + o.d.val), 4 + o.cnt.val * 65536 + (64 + o.a.val) * 2199023255552 + (64 + o.b.val) * 17179869184 + o.lens.val * 134217728 + bit01 o.dz * 8 + o.fmt.code * 16)

  | .vinteradd o => some (54656 + (64 + o.d.val), 1 + o.cnt.val * 65536 + (64 + o.a.val) * 2199023255552 + (64 + o.b.val) * 17179869184 + o.lens.val * 134217728 + bit01 o.dz * 8 + o.fmt.code * 16 + o.rm.code * 128)

  | .vintermax o => some (54656 + (64 + o.d.val), 3 + o.cnt.val * 65536 + (64 + o.a.val) * 2199023255552 + (64 + o.b.val) * 17179869184 + o.lens.val * 134217728 + bit01 o.dz * 8 + o.fmt.code * 16)

  | .vinterfst o => some (54656 + (64 + o.d.val), 5 + o.cnt.val * 65536 + (64 + o.a.val) * 2199023255552 + (64 + o.b.val) * 17179869184 + o.lens.val * 134217728 + bit01 o.dz * 8 + o.fmt.code * 16)

  | .vintermul o => some (54656 + (64 + o.d.val), 7 + o.cnt.val * 65536 + (64 + o.a.val) * 2199023255552 + (64 + o.b.val) * 17179869184 + o.lens.val * 134217728 + bit01 o.dz * 8 + o.fmt.code * 16 + o.rm.code * 128)

  | .vtopk o => some (55040 + (64 + o.d.val), o.cnt.val * 128 + (64 + o.a.val) * 33554432 + o.k.val * 262144 + o.fmt.code + bit01 o.nz * 8 + o.m.val * 16384)

  | .vsegrsum o => some (55552 + (64 + o.d.val), o.cnt.val * 128 + (64 + o.a.val) * 33554432 + o.m.val * 16384 + o.w.code * 8)

  | .vsegrmin o => some (55552 + (64 + o.d.val), 1 + o.cnt.val * 128 + (64 + o.a.val) * 33554432 + o.m.val * 16384 + o.w.code * 8)

  | .vsegrmax o => some (55552 + (64 + o.d.val), 2 + o.cnt.val * 128 + (64 + o.a.val) * 33554432 + o.m.val * 16384 + o.w.code * 8)

  | .vsegrminu o => some (55552 + (64 + o.d.val), 3 + o.cnt.val * 128 + (64 + o.a.val) * 33554432 + o.m.val * 16384 + o.w.code * 8)

  | .vsegrmaxu o => some (55552 + (64 + o.d.val), 4 + o.cnt.val * 128 + (64 + o.a.val) * 33554432 + o.m.val * 16384 + o.w.code * 8)

  | .vsegrfsum o => some (55552 + (64 + o.d.val), 5 + o.cnt.val * 128 + (64 + o.a.val) * 33554432 + o.m.val * 16384 + o.fmt.code * 8 + o.rm.code * 32)

  | .vsegrfmin o => some (55552 + (64 + o.d.val), 6 + o.cnt.val * 128 + (64 + o.a.val) * 33554432 + o.m.val * 16384 + o.fmt.code * 8)

  | .vsegrfmax o => some (55552 + (64 + o.d.val), 7 + o.cnt.val * 128 + (64 + o.a.val) * 33554432 + o.m.val * 16384 + o.fmt.code * 8)

  | .xopen o => some (57600, o.round.val * 33554432 + o.spill.val * 262144 + o.role.val * 8)

  | .xclose r => some (57600, 1 + r.val * 33554432)

  | .xfloor o => some (57600, 2 + o.round.val * 33554432 + o.floor.val * 262144)

  | .xstat o => some (57600 + o.d.val, 3 + o.round.val * 33554432)

  | .xsplit o => some (57600 + o.d.val, 4 + o.round.val * 33554432 + o.desc.val * 262144)

  | .xround r => some (57600, 5 + r.val * 33554432)

  | .xsend o => some (58112 + v0Code o.pay, (64 + o.keys.val) * 33554432 + o.round.val * 262144 + o.m.val * 16384)

  | .xsendMc o => some (58112 + v0Code o.pay, 1 + (64 + o.keys.val) * 33554432 + o.round.val * 262144 + o.group.val * 2 + o.m.val * 16384)

  | .xrecv o => some (58624 + (64 + o.d.val), o.cnt.val * 128 + v0Code o.pay * 33554432 + o.round.val * 262144 + bit01 o.nb * 64)

  | .cpy o => some (59776 + o.pitches.val, o.src.val * 2199023255552 + o.dst.val * 17179869184 + o.shape.val * 134217728 + o.c0.val * 8192 + o.csh.val * 512 + o.scope.code * 64 + o.map.val + o.rsv.val * 1048576)

  | .cpySh o => some (59776 + o.pitches.val, 524288 + o.src.val * 2199023255552 + o.dst.val * 17179869184 + o.shape.val * 134217728 + o.c0.val * 8192 + o.csh.val * 512 + o.scope.code * 64 + o.map.val + o.rsv.val * 1048576)

  | .cmwait o => some (60160, o.mask.val * 33554432 + o.map.val + bit01 o.plane * 64)

  | .cmtest o => some (60160 + o.d.val, 128 + o.mask.val * 33554432 + o.map.val + bit01 o.plane * 64)

  | .cmclr o => some (60160, 256 + o.mask.val * 33554432 + o.map.val)

  | .illegalInstruction _ _ | .stripctlSeal | .vlgcapWrite _ _ _ | .tlbinvAll | .tlbinvContext _ | .tlbinvPage _ _ | .waitmWake _ | .waitmTimeout _ | .qpushWake _ | .qpopWake _ | .gwaitWake _ | .stripAutoClose _ | .stripCommitComplete _ | .streamRefill _ _ _ | .gridGrant _ | .mergeUnitGrant _ | .mergePointEmit _ _ _ _ | .exceptionRecordArrival _ _ _ _ | .multicastIngressCopy _ _ _ _ | .multicastHoldRelease _ _ _ _ | .chunkRead _ _ _ | .chunkLanded _ _ _ | .vectorGroupComplete _ | .viqRetire _ | .recheckResolution _ _ | .recheckPriorityTimeout _ | .laneGroupRetirement _ _ | .testKernelPlacement _ _ _ _ _ | .testKernelVerdict _ _ _ _ _ | .remoteCopyExpiry _ _ _ | .launchportWrite _ _ | .lpstatErrClear _ | .schedulerTakeRecord | .launchPlacement | .preemptRequest | .forcedSave _ | .saveCompletion _ | .launchRestore | .stageSchedulerEvaluation _ | .launchCompletion _ | .removalHartTimeout _ | .removalComplete _ | .tlbinvrAll | .tlbinvrContext _ | .tlbinvrPage _ _ | .tlbInvalidationComplete | .hostMemRead _ _ | .hostMemWrite _ _ | .remoteAccessIngress _ | .violationLogClear _ | .remoteAccessTimeout _ | .linkLaneLoss _ _ | .linkRetrainComplete _ | .registerWrite _ _ | .pwrctlP0 | .pwrctlP1 | .pwrctlRet | .pwrctlOff | .pwrstatErrClear | .powerTransitionComplete | .autoP0Entry | .thermalThrottle _ | .throttleRelease | .thermalTrip | .packageReset _ _ | .sdieSelfTestPass _ | .bulkTrainingComplete _ | .portTrained _ | .cxlLinkUp | .dieFullService _ | .rechargeComplete | .undervoltageDetect | .supplyOutOfSpec | .powerFailWindowEnd | .holdupEngineWrite | .mbAttestation _ | .mbExtendMr _ _ | .mbWriteAccessEntry _ _ _ _ _ | .mbRemoveLaunch _ | .mbDiscardSlot _ | .mbDebugRequest _ _ | .mbEnterRma _ | .mbstatClear _ | .debugHalt _ _ | .uncorrectableError _ | .manufactureToSecure => none


/-- The tail length code of a head (R38, R46). -/
def tailWords (head : Nat) : Nat := head / 128 % 4

/-- One line of code as 32 words (R37); missing words read 0. -/
def lineWord (line : List Nat) (i : Nat) : Nat := line.getD i 0

/-- The words of a line that the tails of the first `n` heads take (R38). -/
def tailsBefore (line : List Nat) : Nat → Nat
  | 0 => 0
  | n + 1 => tailsBefore line n + tailWords (lineWord line (1 + n))

/-- The number of heads, w0 [15:11] (R37). -/
def lineHeadCount (line : List Nat) : Nat := lineWord line 0 / 2048

/-- The gap words of a line are those between the last head and the lowest tail word (R37). -/
def gapNonzero (line : List Nat) (n e : Nat) : Bool :=
  (List.range 32).any fun i => decide (n < i ∧ i ≤ e) && decide (lineWord line i ≠ 0)

/-- The line checks 1a to 1d, lowest reason code first (R39, R56). -/
def lineError (line : List Nat) : Option IllegalReason :=
  let n := lineHeadCount line
  let taken := tailsBefore line n
  if n = 0 then some .noHeads
  else if lineWord line 0 % 2048 ≠ 0 then some .headerBits
  else if taken ≤ 31 ∧ gapNonzero line n (31 - taken) then some .gapWord
  else if 31 < n + taken then some .overflow
  else none

/-- The tail of slot `i` (R38): its lowest-addressed word is least significant. -/
def slotTail (line : List Nat) (i : Nat) : Nat :=
  let k := tailWords (lineWord line (1 + i))
  let lo := 32 - tailsBefore line (i + 1)
  match k with
  | 0 => 0
  | 1 => lineWord line lo
  | 2 => lineWord line lo + lineWord line (lo + 1) * 65536
  | _ => lineWord line lo + lineWord line (lo + 1) * 65536 + lineWord line (lo + 2) * 4294967296

/-- What a slot of a line holds. -/
inductive Slot where
  /-- The line fails a check of R39; the word is w0. -/
  | badLine (reason : IllegalReason) (w0 : Nat)
  /-- The slot is at or above N (R45). -/
  | noSlot
  /-- The slot's head fails a check of R56; the word is the head. -/
  | badInstr (reason : IllegalReason) (head : Nat)
  /-- The slot holds an instruction. -/
  | instr (i : Instr)
deriving DecidableEq, Repr

/-- Slot `i` of a line: line checks, slot range, then the head (R39, R45, R56). -/
def decodeSlot (line : List Nat) (i : Nat) : Slot :=
  match lineError line with
  | some r => .badLine r (lineWord line 0)
  | none =>
    if lineHeadCount line ≤ i then .noSlot
    else
      match decodeInstr (lineWord line (1 + i)) (slotTail line i) with
      | .ok ins => .instr ins
      | .error r => .badInstr r (lineWord line (1 + i))

/-- Bytes as little-endian 16-bit words (R37). -/
def wordsOfBytes : List Byte → List Nat
  | a :: b :: rest => (a.toNat + 256 * b.toNat) :: wordsOfBytes rest
  | [a] => [a.toNat]
  | [] => []

/-- Words as little-endian bytes (R37). -/
def bytesOfWords : List Nat → List Byte
  | [] => []
  | w :: rest => BitVec.ofNat 8 w :: BitVec.ofNat 8 (w / 256) :: bytesOfWords rest

/-- The words of a tail, lowest address first. -/
def tailList (head t : Nat) : List Nat :=
  match tailWords head with
  | 0 => []
  | 1 => [t % 65536]
  | 2 => [t % 65536, t / 65536 % 65536]
  | _ => [t % 65536, t / 65536 % 65536, t / 4294967296 % 65536]

/-- A line of the given heads and tails: heads upwards from w1, tails downwards from w31, in head order
(R37, R61). -/
def layLine (items : List (Nat × Nat)) : List Nat :=
  let heads := items.map fun it => it.1
  let tails := (items.map fun it => tailList it.1 it.2).reverse.flatten
  (items.length * 2048) :: heads ++ List.replicate (31 - heads.length - tails.length) 0 ++ tails

/-- Whether one more instruction with `k` tail words fits a line of `n` heads and `t` tail words (R61). -/
def fitsLine (n t k : Nat) : Bool := n = 0 || decide (n + 1 + t + k ≤ 31)

/-- Line filling in source order (R61): `cur` is the open line, oldest first, `t` its tail words. -/
def fillLines : List (Nat × Nat) → List (Nat × Nat) → Nat → List (List Nat)
  | [], cur, _ => if cur.isEmpty then [] else [layLine cur]
  | it :: rest, cur, t =>
    let k := tailWords it.1
    if fitsLine cur.length t k then fillLines rest (cur ++ [it]) (t + k)
    else layLine cur :: fillLines rest [it] k

/-- A program as code lines (R61); `none` if some item is not an encoded instruction. -/
def assemble (p : List Instr) : Option (List (List Nat)) :=
  (p.mapM encode).map fun items => fillLines items [] 0

/-- The head and tail of an opcode-table word: a row of at most 16 bits is the head alone, a longer one has
the head in its highest table word (log entry 1, DEDUCED from the table's "fixed" fields). -/
def tableHeadTail (nbits w : Nat) : Nat × Nat :=
  if nbits ≤ 16 then (w % 65536, 0)
  else if nbits ≤ 32 then (w / 65536 % 65536, w % 65536)
  else if nbits ≤ 48 then (w / 4294967296 % 65536, w % 4294967296)
  else (w / 281474976710656 % 65536, w % 281474976710656)

/-- The one-slot line that carries an opcode-table word. -/
def tableLine (nbits w : Nat) : List Nat := layLine [tableHeadTail nbits w]

/-- The instruction that the decoder reads from an opcode-table word. -/
def decodeTableWord (nbits w : Nat) : Option Instr :=
  match decodeSlot (tableLine nbits w) 0 with
  | .instr i => some i
  | _ => none


end Sys2Proof

end
end

