-- ==== Sys2Proof/Machine/State.lean ====
section
/-! DEFINITION. The state of a package: every register, queue, table and unit the spec names, as plain data,
the reasons a step can stop, and the state right after reset. -/

namespace Sys2Proof.Machine

/-- Why the machine stops with a fault. -/
inductive Fault where
  /-- Raised by `step` when the head of the agenda is an encoded instruction, not an event of the machine:
  such an input does not exist (safe: the machine stops). -/
  | notAnInput
deriving DecidableEq, Repr

/-- Why an instruction has no meaning in this model. -/
inductive Refusal where
  /-- Raised by the dispatch for an instruction without a meaning (safe: the machine stops). -/
  | notModelled (mnemonic : String)
deriving DecidableEq, Repr

/-- Memory as a sparse list in canonical form: addresses strictly rising, no entry 0, an unlisted address reads 0
(log entry 3). -/
abbrev Mem := List Host.Cell

/-- The privilege levels (R6). -/
inductive Level where
  | u | s
deriving DecidableEq, Repr

/-- The page kinds (R226). -/
inductive PageKind where
  | rc | so | un
deriving DecidableEq, Repr

/-- The trap CSRs (R369, R377) and XLINFO (R349). -/
structure TrapCsrs where
  sub : BitVec 4
  cause : BitVec 8
  tpc : Word
  tval : Word
  tvec : Word
  spl : Bool
  inTrap : Bool
  pmask : Bool
  ordTrap : Bool
  pfGroup : Bool
  xlinfo : BitVec 12
deriving DecidableEq, Repr

/-- What translates a hart's addresses (R351, R363). -/
structure XlateCtx where
  ctxid : BitVec 16
  ptroot : Word
  strbase : Word
deriving DecidableEq, Repr

/-- The matrix shape (R165). -/
structure MShape where
  m : Nat
  n : Nat
  k : Nat
deriving DecidableEq, Repr

/-- A restart point (R17, R22): VRESUME as a trap or a CSR write left it, the LW whose groups it counts, and, after a trap, the
VL of the tile with the elements that were complete there (VL is 0 after a write). -/
structure Resume where
  groups : Nat
  lw : Nat
  vl : Nat
  elems : Nat
deriving DecidableEq, Repr

/-- The tile configuration and vector status of a hart (R12, R13, R117, R118, R143, R165, R370). `vresumeAt` is what VRESUME
stands for, so that a restore on another LW repeats and skips no element (R17, R88). -/
structure VState where
  vl : Nat
  vrows : Nat
  nvCode : Fin 4
  carried : List VReg
  share : Fin 4
  vresume : Nat
  vresumeAt : Option Resume
  cnt : Nat
  osrc : Bool
  opos : Nat
  order : Bool
  fflags : BitVec 5
  mshape : MShape
deriving DecidableEq, Repr

/-- A store waiting in a strip store buffer (R24, R238); `after` is the VIQ sequence number it follows, `strip` the
strip that was open at its place in program order, 0 when none was, and `ctx` and `va` what its address was translated
from (R353). -/
structure StoreEntry where
  pa : Nat
  bytes : List Byte
  kind : PageKind
  after : Nat
  strip : Nat
  ctx : BitVec 16
  va : Nat
deriving DecidableEq, Repr

/-- A strip that has not committed (R23, R24, R385, R386): its checkpoint and its record of rewinds. `id` is the VIQ
sequence number of the SETVL or SETVLB that opened it. A strip that has closed commits once the VIQ entries up to
`closedAt` have retired; `sealed` says that it can no longer be rewound, `byTimer` that no instruction closed it.
`noMajority` lists the instructions that met no majority in it (R205). -/
structure Strip where
  id : Nat
  regs : List (XReg × Word)
  vl : Nat
  vrows : Nat
  opener : Option XReg
  resume : Word
  shadows : List (VReg × Mem)
  positions : List (Option Nat)
  rewinds : Nat
  errGranule : Option Nat
  noMajority : List Word
  since : Nat
  closedAt : Nat
  sealed : Bool
  byTimer : Bool
deriving DecidableEq, Repr

/-- A fetched stream element, or the kind and address of its failure (R262). -/
inductive StreamElem where
  | value (v : Word)
  | fail (kind : BitVec 4) (addr : Word) (xlinfo : Option Nat)
deriving DecidableEq, Repr

/-- One active stream slot (R258 to R263); `again` says that the tile at POS is fetched again at the pop that resumes the stream,
after a stream fault, a pop returned or a restore (R242, R263). -/
structure StreamSlot where
  reg : VReg
  width : Width
  indirect : Bool
  base : Word
  estride : Word
  rlen : Nat
  rpitch : Word
  idx : Word
  count : Nat
  pos : Nat
  xctx : XlateCtx
  level : Level
  fetched : List StreamElem
  again : Bool
deriving DecidableEq, Repr

/-- One chunk map: a bit per chunk and plane (R265), and the scope of the copy that each chunk last belonged to (R271). -/
structure ChunkMap where
  released : BitVec 64
  landed : BitVec 64
  sh : BitVec 64
  busy : BitVec 64
  scopes : List (Nat × Scope)
deriving DecidableEq, Repr

/-- A recorded copy failure: its kind and value of R269, and what XLINFO receives at delivery (R349); `ecc` names the granule
of an error that a page walk of the copy engine met, in place of a kind (R380, log entry 63). -/
structure CopyFail where
  kind : Nat
  addr : Word
  xlinfo : Option Nat
  ecc : Option Nat
deriving DecidableEq, Repr

/-- Bytes of one aligned destination word that a copy has read and not written: poisoned source bytes poison the
granules they reach (R241, R379). -/
structure CopyPiece where
  pa : Nat
  bytes : List Byte
  poison : Bool
deriving DecidableEq, Repr

/-- An outstanding copy (R266 to R270). -/
structure Copy where
  src : Word
  dst : Word
  spitch : Word
  dpitch : Word
  rows : Nat
  rowBytes : Nat
  c0 : Nat
  csize : Nat
  scope : Scope
  map : Fin 64
  sh : Bool
  gate : Option Nat
  next : Nat
  inFlight : List (Nat × List CopyPiece)
  failure : Option CopyFail
  reported : Bool
deriving DecidableEq, Repr

/-- Where a copy's addresses are translated (R354). -/
structure CopyCtx where
  copy : Copy
  xctx : XlateCtx
  level : Level
deriving DecidableEq, Repr

/-- One weight-buffer slot: its descriptor, K mask, values and scales (R166, R185); `stale` marks data that a
restore must fetch again (R188). -/
structure WeightSlot where
  valid : Bool
  fmt : Nat
  k : Nat
  n : Nat
  vbase : Word
  sbase : Word
  masked : Bool
  mask : Mem
  values : List Byte
  scales : List Byte
  stale : Bool
deriving DecidableEq, Repr

/-- Phase of a VIQ entry's recheck (R201, R203). -/
inductive RecheckPhase where
  | off | waiting | held | confirmed
deriving DecidableEq, Repr

/-- A posted vector-class instruction (R8, R90): its instruction, the values it captured and its progress. `x0` to `x3`
are captured scalar operands in the order of the instruction's fields, `strip` is the strip open when it was posted;
elements of the tile below position `start` were complete then; `done` counts complete element groups, and elements below
`skip` are complete (R22); `aborted` says that the round it waits in was aborted (R305). -/
structure VEntry where
  instr : VInstr
  seq : Nat
  pc : Word
  next : Word
  level : Level
  vl : Nat
  vrows : Nat
  nvCode : Fin 4
  carried : List VReg
  mshape : MShape
  strip : Nat
  x0 : Word
  x1 : Word
  x2 : Word
  x3 : Word
  start : Nat
  done : Nat
  skip : Nat
  m15Only : Bool
  begun : Bool
  complete : Bool
  icount : Word
  aborted : Bool
deriving DecidableEq, Repr

/-- What a VIQ entry has produced and not yet delivered (R78, R142, R144, R201): flags, scalar result, count, violation,
the prior contents of its destinations with their error marks, the pops it made with the tiles that the stream registers held
before them, and its recheck. `stamp` is the tick from which it waits for a recheck entry, then the cycle its primary run completed (R201, R206). -/
structure VResult where
  fflags : BitVec 5
  scalar : Option (XReg × Word)
  count : Option Nat
  order : Option (Bool × Nat)
  prior : List (VReg × Mem)
  priorMask : Option (MReg × Mem)
  priorBad : List ErrorPlace
  pops : List (Fin 4 × Nat)
  tiles : List (VReg × Mem)
  phase : RecheckPhase
  stamp : Nat
  waited : Bool
deriving DecidableEq, Repr

/-- A VIQ slot. -/
structure VSlot where
  e : VEntry
  r : VResult
deriving DecidableEq, Repr

/-- A history-buffer entry (R9): the prior value of one register, of the call stack or of a CSR, and the newest VIQ
entry when it was recorded. -/
inductive HistItem where
  | x (after : Nat) (r : XReg) (old : Word)
  | calls (after : Nat) (old : List Word) (csptr : Word)
  | csr (after : Nat) (num : Fin 4096) (old : Word)
deriving DecidableEq, Repr

/-- What a hart that does not issue is waiting for (R276, R333). -/
inductive Wait where
  | none
  | waitm (addr : Nat)
  | gate (id : Nat)
  | qpush (q : Fin 64)
  | qpop (q : Fin 64) (since : Nat) (surplus : Bool)
  | launch
  | remote (timedOut : Bool)
  | vector
deriving DecidableEq, Repr

/-- The scalar registers, program counter and call stack of a hart. INSTRET (R115) is the sum of `instret`, the scalar
instructions, and `vret`, the vector-class instructions retired. -/
structure Scalar where
  x : Vector Word 32
  pc : Word
  lineHeads : Nat
  level : Level
  calls : List Word
  csptr : Word
  instret : Word
  vret : Word
deriving DecidableEq, Repr

/-- The control CSRs of a hart (R195, R198, R199, R303, R327 to R330, R382, R383, R388, R397, R407). -/
structure Control where
  schkmask : BitVec 32
  rewinds : BitVec 16
  vlgcapEn : Bool
  rchkmode : Fin 3
  rchkskip : BitVec 32
  preqReq : Bool
  preqLeft : BitVec 32
  preqSince : Nat
  pdeadline : BitVec 32
  pdeadlinePlaced : BitVec 32
  prio : Fin 8
  lprio : Fin 8
  livetab : Word
  usemask : BitVec 32
  xstatus : Word
  holdgrant : BitVec 32
  pfstat : Word
deriving DecidableEq, Repr

/-- Who a hart is: its place, its launch, its stage and its index in the stage (R7, R30, R316). `serial` numbers placements: it
stays when the hart moves, and no other hart has it. -/
structure Ident where
  id : HartId
  seq : Nat
  stage : Fin 8
  index : Nat
  serial : Nat
deriving DecidableEq, Repr

/-- A GARW that has made its arrival and waits (R276): its address, its gate and the phase it read. -/
structure GarwWait where
  pc : Word
  gate : Nat
  phase : Bool
deriving DecidableEq, Repr

/-- Marks on a hart that are not CSRs (R215, R276, R372, R389, R399, R365, R374, R380). `garw` lists the GARW
instructions that have arrived and wait, the newest first; `asyncAt` is the newest VIQ entry older than the asynchronous trap being
handled; `test` is the class and lane group of an in-field test kernel. -/
structure Marks where
  wait : Wait
  garw : List GarwWait
  powerFail : Bool
  kill : Option (BitVec 8)
  removed : Bool
  stopped : Bool
  halted : Bool
  sealed : Bool
  debugHalted : Bool
  debugStep : Bool
  resuming : Bool
  pmaskLive : Bool
  forced : Bool
  badRegs : List ErrorPlace
  saving : Bool
  savedLive : Option (BitVec 64)
  launchAnswer : Option (Sum (BitVec 8) Nat)
  migrating : Option Nat
  asyncAt : Nat
  test : Option (Fin 23 × Fin 8)
deriving DecidableEq, Repr

/-- A hart: registers, vector unit share, strips, streams, copies and queues. `strip` is the open strip, `closing` are the strips that have
closed and not committed, oldest first (R24). `shChunks` names the landed chunks of
CPY.SH copies whose SH bit is set, with their copy (R257). `lead` is the model's own run-ahead
allowance (log entry 6). -/
structure Hart where
  ident : Ident
  scalar : Scalar
  xctx : XlateCtx
  trap : TrapCsrs
  ctl : Control
  v : VState
  vrf : Mem
  masks : Mem
  strip : Option Strip
  closing : List Strip
  sbuf : List StoreEntry
  streams : Vector (Option StreamSlot) 4
  chunks : Vector ChunkMap 64
  copies : List CopyCtx
  shChunks : List (Fin 64 × Nat × Copy)
  weights : Vector WeightSlot 2
  viq : List VSlot
  hist : List HistItem
  nextSeq : Nat
  lead : Nat
  marks : Marks
deriving DecidableEq, Repr

/-- A hardware queue (R321): its depth, the launch it is bound to and its entries, head first. -/
structure Queue where
  depth : Nat
  launch : Option Nat
  entries : List (Word × Word)
deriving DecidableEq, Repr

/-- A gate (R272). -/
structure Gate where
  exp : BitVec 16
  arr : BitVec 16
  ph : Bool
  owner : Option (BitVec 16)
  binder : Option Nat
deriving DecidableEq, Repr

/-- A core's own state: lanes and classes (R16, R194), its units' rotations (R160, R178, R268), the lane groups marked for
retirement (R210), tests (R215), queues,
gates, the verdicts that firmware keeps of it (R208; no group for a no-majority event), the classes fenced for good, and
places with an error that cannot be corrected. -/
structure Core where
  lanemap : BitVec 8
  cap : BitVec 23
  l1Bytes : Nat
  mergeLast : Fin 4
  gridLast : Fin 4
  copyLast : Fin 4
  marked : BitVec 8
  testPending : Bool
  testKernel : Option (Fin 23 × Fin 8)
  testPassed : Bool
  queues : List (Nat × Queue)
  gates : List (Nat × Gate)
  verdicts : List (Fin 23 × Option (Fin 8) × Nat)
  mismatches : List (Fin 23 × Fin 8 × Nat)
  fenced : BitVec 23
  bad : List ErrorPlace
deriving DecidableEq, Repr

/-- A stage entry of a launch record (R27). -/
structure StageRec where
  entry : Word
  usemask : BitVec 32
  hmin : Nat
  hmax : Nat
  outq : Option (Fin 64)
  qdepth : Nat
  share : Fin 4
deriving DecidableEq, Repr

/-- One item of a must-save declaration (R395), with the length SEAL recorded (R399). -/
structure HoldItem where
  vaddr : Word
  maxlen : Nat
  id : BitVec 32
  len : Nat
deriving DecidableEq, Repr

/-- A must-save declaration (R395). -/
structure HoldDecl where
  units : Nat
  ctxtag : Word
  items : List HoldItem
deriving DecidableEq, Repr

/-- The class of a restored item (R400, R406). -/
structure RestoredItem where
  cls : Fin 4
  fault : Bool
  poison : Bool
  restored : Bool
  len : Nat
deriving DecidableEq, Repr

/-- Where a launch stands (R29, R331, R337, R389). -/
inductive LaunchPhase where
  | queued | running | saved | removing
deriving DecidableEq, Repr

/-- The record of a launch (R26). -/
structure LaunchRec where
  prio : Fin 8
  migrate : Bool
  rchk : Fin 3
  argptr : Word
  pdeadl : BitVec 32
  doneptr : Word
  doneval : Word
  stages : List StageRec
deriving DecidableEq, Repr

/-- A launch the scheduler has accepted; `holdgrant` and `pfstat` are what its harts read of its declaration and its
restored items (R397, R407). -/
structure Launch where
  seq : Nat
  ctxid : BitVec 16
  record : LaunchRec
  hold : Option HoldDecl
  ptroot : Word
  strbase : Word
  slot : Option (Fin 64)
  restored : List RestoredItem
  holdgrant : BitVec 32
  pfstat : Word
  phase : LaunchPhase
  stage0Halted : Bool
  discarded : Nat
  removal : Option (BitVec 8 × Option HartId)
  savedHarts : List Hart
deriving DecidableEq, Repr

/-- A record address waiting at a port or handed over by a hart (R29, R33, R311); `arrival` orders them. -/
structure LaunchReq where
  addr : Word
  ctx : BitVec 16
  prio : Fin 8
  hart : Option HartId
  arrival : Nat
deriving DecidableEq, Repr

/-- The package scheduler and its ports (R32 to R36, R312, R331). -/
structure Sched where
  fifo : List LaunchReq
  lpErr : BitVec 8
  lpCode : BitVec 8
  lpEn : Bool
  lpCtx : BitVec 16
  arrivals : Nat
  nextSeq : Nat
  launches : List Launch
deriving DecidableEq, Repr

/-- An item of a lane (R280, R284): what came over the link, or what a merge point infers from a record that goes to another port
or on the other lane, a floor (`bound`) or the end of the input there (`shut`), which take no room (R285). The SENDER and SEQ
of a floor or bound say that what follows it on its lane comes after that record in the order of R281. -/
inductive XItem where
  | data (r : XRecord)
  | floor (f : Nat) (past : Option (Nat × Nat))
  | close
  | bound (f : Nat) (past : Option (Nat × Nat))
  | shut
deriving DecidableEq, Repr

/-- One input of one output port of a merge point: the items of its unicast and its multicast lane in order; a lane is
closed once CLOSE is its head (R280, R281, R284). -/
structure XInput where
  uni : List XItem
  mc : List XItem
deriving DecidableEq, Repr

/-- One output port of a merge point: the point and the input it leads to (none at an egress merge, whose port leads to
receiver `lo`), the receiver indices it serves, its splitter register, its inputs, the highest key or floor emitted, and the
combiner's held record (R282 to R284, R287). -/
structure XPort where
  next : Option (Nat × Nat)
  lo : Nat
  hi : Nat
  splitter : Nat
  inputs : List XInput
  emitted : Option Nat
  closed : Bool
  combining : Option XRecord
deriving DecidableEq, Repr

/-- A merge point of a round (R283, R291): its output ports, the multicast items held for an input and a port, and the
multicast items an input has not copied yet. -/
structure XPoint where
  ports : List XPort
  hold : List (Nat × Nat × XItem)
  ingress : List (Nat × XItem)
deriving DecidableEq, Repr

/-- A sender of a round (R279, R288, R300); `owner` is the placement number of the hart that opened the role, none where a hart of
another package did (R304, R424). -/
structure XSender where
  hart : Nat
  opened : Bool
  closed : Bool
  sent : Nat
  kept : Option Nat
  owner : Option Nat
deriving DecidableEq, Repr

/-- A receiver of a round (R289, R296, R301), its `owner` as a sender's. -/
structure XReceiver where
  hart : Nat
  opened : Bool
  spill : Word
  fifo : List XRecord
  sortedClosed : Bool
  exceptions : List XRecord
  exLost : Bool
  popped : Nat
  ended : Bool
  owner : Option Nat
deriving DecidableEq, Repr

/-- The state of a round (R279). -/
inductive RoundState where
  | armed | opened | draining | aborted
deriving DecidableEq, Repr

/-- A round's descriptor as XROUND read it (R277). -/
structure RoundDesc where
  pwidth : Nat
  comb : Nat
  cfmt : Nat
  climit : Nat
  sampleExp : Nat
  sampling : Bool
  splits : List Nat
  groups : List (Nat × Nat)
  endgate : Option Nat
deriving DecidableEq, Repr

/-- A round that is not IDLE (R277 to R293); `links` are the fabric ports of this package that its traffic uses (R306). -/
structure Round where
  ctx : BitVec 16
  id : BitVec 16
  state : RoundState
  desc : RoundDesc
  senders : List XSender
  receivers : List XReceiver
  points : List XPoint
  links : List Nat
  samples : List (Nat × Nat × Nat)
deriving DecidableEq, Repr

/-- The completion record of a finished round (R293). -/
structure Completion where
  ctx : BitVec 16
  id : BitVec 16
  reachedDone : Bool
  sampling : Bool
  nrecv : Nat
  samples : Nat
  proposal : List Nat
deriving DecidableEq, Repr

/-- A TLB entry (R352): the page or block it covers, under which CTXID, what it maps to. -/
structure TlbEntry where
  ctx : BitVec 16
  vpage : Nat
  block : Bool
  leaf : Word
  stripe : Option (Nat × Nat × Nat × Nat)
deriving DecidableEq, Repr

/-- One access-table entry (R357) at its target, class and number. -/
structure AccessEntry where
  target : Fin 11
  cls : Fin 5
  index : Fin 64
  w0 : Word
  w1 : Word
deriving DecidableEq, Repr

/-- A violation log (R360). -/
structure VLog where
  entries : List (Nat × Word × Word)
  next : Nat
  drops : Nat
deriving DecidableEq, Repr

/-- The F-die registers (R415); `tlbInv` holds the invalidations that TLBINVR started and that are not complete: KIND, CTX and VPN
(R353). -/
structure FDie where
  ctxtab : Word
  rtvec : Word
  evring : Word
  evWraps : Nat
  evNext : Nat
  hwin : Word
  tlbInv : List (Nat × BitVec 16 × Nat)
deriving DecidableEq, Repr

/-- The power states (R365, R419). -/
inductive PowerState where
  | p0 | p1 | ret | off
deriving DecidableEq, Repr

/-- Power, clocks, links and bring-up (R401, R402, R415 to R421); `unsealed` says that a hart that received cause 0x1A in the
window has ended without SEAL. -/
structure Power where
  state : PowerState
  req : PowerState
  target : Option PowerState
  err : Bool
  throttled : Bool
  window : Bool
  endgame : Bool
  unsealed : Bool
  poweredOff : Bool
  portUp : BitVec 32
  bootOk : Bool
  cxlUp : Bool
  full : BitVec 4
  bulkOk : BitVec 4
  sdOk : BitVec 4
  lanes : List Nat
  retrains : List Nat
deriving DecidableEq, Repr

/-- A hold-up directory slot with the declaration of its owner (R405). -/
structure HoldSlot where
  state : Fin 4
  ctxid : BitVec 16
  epoch : BitVec 32
  ctxtag : Word
  begun : BitVec 64
  derated : Bool
  second : Bool
  prio : Fin 8
  accepted : Nat
  ptroot : Word
  strbase : Word
  items : List HoldItem
  bases : List Nat
  classes : List RestoredItem
deriving DecidableEq, Repr

/-- One 64-byte write of the hold-up engine (R403): the first directory write of a slot, the directory write of an
item, a data block, or a seal record. -/
inductive HoldWrite where
  | slot (n : Fin 64)
  | item (n : Fin 64) (i : Nat)
  | block (n : Fin 64) (i off : Nat)
  | sealRecord (n : Fin 64) (i : Nat)
deriving DecidableEq, Repr

/-- The hold-up unit (R393, R394, R403 to R408); `reserve` is what is left for item data, `allowance`
what is left of the 0.44 J for directory and seal writes, page walks and shut-down, in 1/1024 of a microjoule; `fault` and `poison` are those of the item the engine saves, `second` and `derated` what the detector found. -/
structure Holdup where
  emj : Nat
  charging : Bool
  capunits : Nat
  slots : List (Fin 64 × HoldSlot)
  plan : List HoldWrite
  reserve : Nat
  allowance : Nat
  fault : Bool
  poison : Bool
  second : Bool
  derated : Bool
  mdie : Mem
deriving DecidableEq, Repr

/-- The lifecycle states (R364). -/
inductive Lifecycle where
  | manufacture | secure | rma
deriving DecidableEq, Repr

/-- The management controller: mailbox, measurements, lifecycle, debug and telemetry (R364 to R368, R421, R422). `command` is the
code and payload length of a command that was written to MBCMD and has not been served. -/
structure Mgmt where
  busy : Bool
  done : Bool
  ovr : Bool
  result : BitVec 8
  respLen : Nat
  payload : List Byte
  removing : Option Nat
  command : Option (Nat × Nat)
  lifecycle : Lifecycle
  debugReq : DebugState
  unlocked : Bool
  mrs : List (List Byte)
  corrected : List (Nat × Nat)
  nonces : Nat
deriving DecidableEq, Repr

/-- A copy of a line homed in another package, in the L1 of a core or the RDC of a die: its page kind, its bytes and the
cycle it was filled at (R222, R237). -/
structure RemoteCopy where
  unit : Nat
  line : Nat
  kind : PageKind
  bytes : List Byte
  filled : Nat
deriving DecidableEq, Repr

/-- Copies of lines homed in other packages, and unordered stores not yet sent home in their order (R222, R237): each of a
hart named by its launch, stage and index, since the hart may be saved and restored elsewhere. -/
structure FarCopies where
  rdc : List RemoteCopy
  l1 : List RemoteCopy
  pendingUn : List ((Nat × Nat × Nat) × Nat × List Byte)
deriving DecidableEq, Repr

/-- Another package as this one meets it: its memory by local address, the L1 bytes of its cores (R220) and its harts, by
context and hart number (R295). -/
structure Peer where
  mem : Mem
  l1 : List (Nat × Nat)
  harts : List (BitVec 16 × Nat)
deriving DecidableEq, Repr

/-- What the package gave the outside (R359, R413): answers to host and remote accesses. -/
inductive Answer where
  | data (bytes : List Byte) (poisoned : Bool)
  | ok
  | dropped
  | completerAbort
  | error
deriving DecidableEq, Repr

/-- Memory and its error state (R218 to R222, R379): `poison` and `transient` list 32-byte granules of physical addresses. -/
structure Store where
  mem : Mem
  poison : List Nat
  transient : List Nat
  host : Mem
  peers : List (Nat × Peer)
  far : FarCopies
deriving DecidableEq, Repr

/-- What a hart of another package does in a round that this package takes part in (R296, R297, R300, R301), or, with `lost`, that
a link of another package or of a stage that carries the round has lost every lane (R306). -/
inductive PeerAct where
  | opened (send recv : Bool) (spill : Word)
  | sent (x : XRecord)
  | floored (f : Nat)
  | closed
  | received (n : Nat)
  | lost
deriving DecidableEq, Repr

/-- What happens to the package from outside its harts: an event of the opcode table; a corrected error of a kind on a die
(R378); a link reset that restores a port's lanes (R391); the runtime's choice of the L1 bytes of a core (R220); another
package as it now is, or gone; a round armed in another package (R295), and what a hart there does in a round. -/
inductive Input where
  | event (i : Instr)
  | corrected (die : Fin 4) (kind : Fin 6)
  | linkReset (port : Fin 32)
  | l1Size (core : Fin 256) (size : Fin 4)
  | peer (pkg : BitVec 17) (p : Option Peer)
  | peerRound (ctx id : BitVec 16) (d : RoundDesc) (sends recvs : List Nat)
  | peerAct (ctx id : BitVec 16) (n : Nat) (act : PeerAct)
deriving DecidableEq, Repr

/-- The state of a package. `hart` is the hart that moves next and `others` are the other placed harts; `agenda`
holds the inputs to come, each with the tick from which it lands, `turns` the harts to move next when they are prescribed, `tick` numbers free
values: these three are the model's own (log entries 4 and 10). `savedTests` are the test kernels that gave up their slots
(R215). -/
structure State where
  hart : Hart
  others : List Hart
  agenda : List (Nat × Input)
  turns : List HartId
  tick : Nat
  cycle : Nat
  pkg : BitVec 17
  store : Store
  tlb : List TlbEntry
  access : List AccessEntry
  vlogs : List (Fin 11 × VLog)
  cores : List (Nat × Core)
  sched : Sched
  savedTests : List Hart
  rounds : List Round
  completions : List Completion
  fdie : FDie
  power : Power
  holdup : Holdup
  mgmt : Mgmt
  lastAnswer : Option Answer
deriving DecidableEq, Repr

/-- A hart that no launch holds: every register at the value of log entry 22. -/
def Hart.idle (id : HartId) : Hart where
  ident := ⟨id, 0, 0, 0, 0⟩
  scalar := ⟨Vector.replicate 32 0, 0, 1, .u, [], 0, 0, 0⟩
  xctx := ⟨0, 0, 0⟩
  trap := ⟨0, 0, 0, 0, 0, false, false, false, false, false, 0⟩
  ctl := ⟨0, 0, true, 0, 0, false, 0, 0, 0, 0, 0, 0, 0, 0, 0, 0, 0⟩
  v := ⟨0, 1, 0, [], 0, 0, none, 0, false, 0, false, 0, ⟨0, 0, 0⟩⟩
  vrf := []
  masks := []
  strip := none
  closing := []
  sbuf := []
  streams := Vector.replicate 4 none
  chunks := Vector.replicate 64 ⟨BitVec.allOnes 64, BitVec.allOnes 64, 0, 0, []⟩
  copies := []
  shChunks := []
  weights := Vector.replicate 2 ⟨false, 0, 0, 0, 0, 0, false, [], [], [], false⟩
  viq := []
  hist := []
  nextSeq := 1
  lead := 0
  marks := ⟨.none, [], false, none, false, false, true, false, false, false, false, false, false, [], false, none, none, none, 0, none⟩

/-- A core as boot leaves it (log entry 8): eight working lane groups, every class but mxf64 (R212). -/
def Core.boot : Core where
  lanemap := 0xFF
  cap := 0x7FDFFF
  l1Bytes := 0
  mergeLast := 3
  gridLast := 3
  copyLast := 3
  marked := 0
  testPending := false
  testKernel := none
  testPassed := false
  queues := []
  gates := []
  verdicts := []
  mismatches := []
  fenced := 0
  bad := []

/-- The access entry that permits a class everything at one target (R357). -/
def AccessEntry.everything (target : Fin 11) : AccessEntry := ⟨target, 4, 0, 0x7, 0xFFFFFF0000⟩

/-- The package right after reset: nothing placed, no input to come. The part this stands for is the model's choice (R1,
R366, log entry 8): a GS2560-A, whose fused lifecycle state is SECURE. -/
def State.reset : State where
  hart := Hart.idle 0
  others := []
  agenda := []
  turns := []
  tick := 0
  cycle := 0
  pkg := 0
  store := ⟨[], [], [], [], [], ⟨[], [], []⟩⟩
  tlb := []
  access := (List.finRange 11).map AccessEntry.everything
  vlogs := []
  cores := []
  sched := ⟨[], 0, 0, false, 0, 0, 0, []⟩
  savedTests := []
  rounds := []
  completions := []
  fdie := ⟨0, 0, 0, 0, 0, 0, []⟩
  power := ⟨.p1, .p0, none, false, false, false, false, false, false, 0, false, false, 0, 0, 0, List.replicate 32 4,
    List.replicate 32 0⟩
  holdup := ⟨2400, true, 7168, [], [], 0, 0, false, false, false, false, []⟩
  mgmt := ⟨false, false, false, 0, 0, [], none, none, .secure, .none, false, List.replicate 8 (List.replicate 32 0), [], 0⟩
  lastAnswer := none

end Sys2Proof.Machine
end

