-- ==== Sys2Proof/Machine/Mem.lean ====
section
/-! DEFINITION. Sparse memory: reading and writing bytes and little-endian words (R3), in canonical form. -/

namespace Sys2Proof.Machine

/-- The byte at an address; an unlisted address reads 0 (log entry 3). -/
def memRead : Mem → Nat → Byte
  | [], _ => 0
  | (b, v) :: rest, a => if a = b then v else memRead rest a

/-- Memory with one byte written, in canonical form. -/
def memWrite : Mem → Nat → Byte → Mem
  | [], a, v => if v = 0 then [] else [(a, v)]
  | (b, w) :: rest, a, v =>
    if a < b then (if v = 0 then (b, w) :: rest else (a, v) :: (b, w) :: rest)
    else if a = b then (if v = 0 then rest else (a, v) :: rest)
    else (b, w) :: memWrite rest a v

/-- Every listed address is above `lo`, addresses rise strictly, and no entry is 0. -/
def memWfFrom : Nat → Mem → Bool
  | _, [] => true
  | lo, (a, v) :: rest => decide (lo ≤ a) && decide (v ≠ 0) && memWfFrom (a + 1) rest

/-- The canonical form of a memory. -/
def Memory.wf (m : Mem) : Bool := memWfFrom 0 m

/-- The `n` bytes from address `a`. -/
def readBytes (m : Mem) (a : Nat) : Nat → List Byte
  | 0 => []
  | n + 1 => memRead m a :: readBytes m (a + 1) n

/-- Memory with bytes written from address `a`. -/
def writeBytes : Mem → Nat → List Byte → Mem
  | m, _, [] => m
  | m, a, b :: rest => writeBytes (memWrite m a b) (a + 1) rest

/-- Bytes as a little-endian number (R3). -/
def leNat : List Byte → Nat
  | [] => 0
  | b :: rest => b.toNat + 256 * leNat rest

/-- The low `n` bytes of a number, little-endian (R3). -/
def natBytes : Nat → Nat → List Byte
  | 0, _ => []
  | n + 1, v => BitVec.ofNat 8 v :: natBytes n (v / 256)

/-- The little-endian number of `n` bytes at an address. -/
def readNat (m : Mem) (a n : Nat) : Nat := leNat (readBytes m a n)

/-- Memory with the low `n` bytes of a number written little-endian. -/
def writeNat (m : Mem) (a n v : Nat) : Mem := writeBytes m a (natBytes n v)

/-- The entries of a memory inside [lo, hi). -/
def memSlice (m : Mem) (lo hi : Nat) : Mem := m.filter fun c => decide (lo ≤ c.1) && decide (c.1 < hi)

/-- Memory without the entries inside [lo, hi). -/
def memDrop (m : Mem) (lo hi : Nat) : Mem := m.filter fun c => !(decide (lo ≤ c.1) && decide (c.1 < hi))

/-- Memory with the region [lo, hi) taken from another memory. -/
def memRestore (m src : Mem) (lo hi : Nat) : Mem :=
  m.filter (fun c => decide (c.1 < lo)) ++ memSlice src lo hi ++ m.filter (fun c => decide (hi ≤ c.1))

/-- One list element replaced. -/
def listSet {α : Type} : List α → Nat → α → List α
  | [], _, _ => []
  | _ :: rest, 0, v => v :: rest
  | a :: rest, n + 1, v => a :: listSet rest n v

/-- The value of a key in an association list. -/
def assocGet {κ α : Type} [DecidableEq κ] : List (κ × α) → κ → Option α
  | [], _ => none
  | (k, v) :: rest, q => if k = q then some v else assocGet rest q

/-- An association list with one key set. -/
def assocSet {κ α : Type} [DecidableEq κ] : List (κ × α) → κ → α → List (κ × α)
  | [], q, v => [(q, v)]
  | (k, w) :: rest, q, v => if k = q then (q, v) :: rest else (k, w) :: assocSet rest q v

/-- An association list without a key. -/
def assocErase {κ α : Type} [DecidableEq κ] (l : List (κ × α)) (q : κ) : List (κ × α) :=
  l.filter fun p => decide (p.1 ≠ q)

end Sys2Proof.Machine
end

