-- ==== Sys2Proof/Machine/Sha.lean ====
section
/-! DEFINITION. SHA-256 (FIPS 180-4) and RSASSA-PKCS1-v1_5 verification over RSA-3072, as the management controller
and the hold-up engine use them (R215, R364 to R368, R405). -/

namespace Sys2Proof.Machine

/-- The primes below 312: the first 64. -/
def smallPrimes : List Nat :=
  (List.range 312).filter fun n => decide (2 ≤ n) && (List.range 18).all fun d => d < 2 || n ≤ d || n % d != 0

/-- The greatest number of `bits` bits above `acc` whose `deg`-th power is at most `n`. -/
def floorRoot (deg n : Nat) : Nat → Nat → Nat
  | 0, acc => acc
  | bits + 1, acc => floorRoot deg n bits (if (acc + 2 ^ bits) ^ deg ≤ n then acc + 2 ^ bits else acc)

/-- The first 32 bits of the fractional part of the root of degree `deg` of a number: what SHA-256 takes its constants
from. -/
def rootFraction (deg p : Nat) : BitVec 32 := BitVec.ofNat 32 (floorRoot deg (p * 2 ^ (32 * deg)) 37 0)

/-- The 64 round constants: from cube roots. -/
def shaConstants : List (BitVec 32) := smallPrimes.map (rootFraction 3)

/-- The initial digest words: from square roots. -/
def shaStart : List (BitVec 32) := (smallPrimes.take 8).map (rootFraction 2)

/-- The exclusive or of a word turned right by each of some distances. -/
def turned (w : BitVec 32) (by_ : List Nat) : BitVec 32 := (by_.map fun n => w.rotateRight n).foldl (· ^^^ ·) 0

/-- The mixing of the eight working words with a schedule word already added to its constant. -/
def shaMix (wk : BitVec 32) : List (BitVec 32) → List (BitVec 32)
  | [p, q, r, s, t, u, v, w] =>
    let x := w + turned t [6, 11, 25] + (v ^^^ (t &&& (u ^^^ v))) + wk
    [x + turned p [2, 13, 22] + ((p &&& q) ||| (r &&& (p ||| q))), p, q, r, s + x, t, u, v]
  | ws => ws

/-- The schedule word that follows a window of sixteen. -/
def shaNext (w : List (BitVec 32)) : BitVec 32 :=
  let at_ := fun i => w.getD i 0
  (turned (at_ 14) [17, 19] ^^^ at_ 14 >>> 10) + (turned (at_ 1) [7, 18] ^^^ at_ 1 >>> 3) + at_ 9 + at_ 0

/-- The words after the rounds of the given constants, each with the window of schedule words it starts from. -/
def shaTurns (w ws : List (BitVec 32)) : List (BitVec 32) → List (BitVec 32)
  | [] => ws
  | k :: ks => shaTurns (w.tail ++ [shaNext w]) (shaMix (w.headD 0 + k) ws) ks

/-- The digest words after `n` blocks of sixteen words. -/
def shaAbsorb : Nat → List (BitVec 32) → List (BitVec 32) → List (BitVec 32)
  | 0, _, ds => ds
  | n + 1, msg, ds => shaAbsorb n (msg.drop 16) (List.zipWith (· + ·) ds (shaTurns (msg.take 16) ds shaConstants))

/-- `n` words from big-endian bytes. -/
def wordsOfBig : Nat → List Byte → List (BitVec 32)
  | 0, _ => []
  | n + 1, bs => BitVec.ofNat 32 (leNat (bs.take 4).reverse) :: wordsOfBig n (bs.drop 4)

/-- SHA-256 of a byte string. -/
def sha256 (msg : List Byte) : List Byte :=
  let n := msg.length
  let blocks := (n + 72) / 64
  let padded := msg ++ 0x80 :: (natBytes (64 * blocks - n - 1) (8 * n)).reverse
  (shaAbsorb blocks (wordsOfBig (16 * blocks) padded) shaStart).flatMap fun d => (natBytes 4 d.toNat).reverse

/-- Square-and-multiply over the bits of the exponent, lowest first. -/
def modPowBits (m : Nat) : Nat → Nat → Nat → Nat → Nat
  | 0, _, _, acc => acc
  | fuel + 1, b, e, acc =>
    modPowBits m fuel (b * b % m) (e / 2) (if e % 2 = 1 then acc * b % m else acc)

/-- b to the power e modulo m. -/
def modPow (b e m : Nat) : Nat := modPowBits m (Nat.log2 e + 1) (b % m) e (1 % m)

/-- The encoded message of RSASSA-PKCS1-v1_5 with SHA-256 for a 384-byte modulus. -/
def pkcs1Encode (digest : List Byte) : List Byte :=
  [0x00, 0x01] ++ List.replicate 330 0xFF ++ [0x00] ++
    [0x30, 0x31, 0x30, 0x0d, 0x06, 0x09, 0x60, 0x86, 0x48, 0x01, 0x65, 0x03, 0x04, 0x02, 0x01, 0x05, 0x00, 0x04, 0x20] ++
    digest

/-- A byte string as a big-endian number. -/
def beNat (bs : List Byte) : Nat := leNat bs.reverse

/-- Whether a 384-byte signature over a digest verifies under key `k` (log entry 18). -/
def rsaVerify (k : Nat) (digest signature : List Byte) : Bool :=
  signature.length == 384 &&
    modPow (beNat signature) (Config.rsaPublic k) (Config.rsaModulus k) == beNat (pkcs1Encode digest)

/-- The 384-byte signature over a digest by a key the device holds (R368). -/
def rsaSign (k : Nat) (digest : List Byte) : List Byte :=
  (natBytes 384 (modPow (beNat (pkcs1Encode digest)) (Config.rsaPrivate k) (Config.rsaModulus k))).reverse

end Sys2Proof.Machine
end

