-- ==== Sys2Proof/Machine/Device.lean ====
section
/-! DEFINITION. The harts of the package, its cores, and the device register space (R32 to R36, R394, R412 to R422). -/

namespace Sys2Proof.Machine

/-- The state with its current hart changed. -/
def State.withHart (s : State) (f : Hart → Hart) : State := { s with hart := f s.hart }

/-- The placed harts, the current one first; a halted current hart is none. -/
def State.placed (s : State) : List Hart := if s.hart.marks.halted then s.others else s.hart :: s.others

/-- The harts that launches and firmware hold saved (R215, R336). -/
def State.savedHarts (s : State) : List Hart := (s.sched.launches.flatMap fun l => l.savedHarts) ++ s.savedTests

/-- The core number of a hart (R7). -/
def Hart.core (h : Hart) : Nat := h.ident.id.val / 4

/-- The hart number within its core (R7). -/
def Hart.slot (h : Hart) : Nat := h.ident.id.val % 4

/-- The C-die number of a hart (R7). -/
def Hart.die (h : Hart) : Nat := h.ident.id.val / 256

/-- The name of a hart that stays when it moves: launch, stage and index. -/
def Ident.key (i : Ident) : Nat × Nat × Nat := (i.seq, i.stage.val, i.index)

/-- The hart number N of R278. -/
def State.hartNumber (s : State) (h : Hart) : Nat := s.pkg.toNat * 1024 + h.ident.id.val

/-- The state of core `c`. -/
def State.core (s : State) (c : Nat) : Core := (assocGet s.cores c).getD Core.boot

/-- The state with core `c` changed. -/
def State.setCore (s : State) (c : Nat) (k : Core) : State := { s with cores := assocSet s.cores c k }

/-- A hart by its number, the current one included. -/
def State.findHart (s : State) (h : HartId) : Option Hart := s.placed.find? fun k => k.ident.id == h

/-- The first hart of a list that satisfies `p`, and the list with `put` in its place. -/
def pickHart (p : Hart → Bool) (put : List Hart) : List Hart → Option (Hart × List Hart)
  | [] => none
  | h :: rest =>
    if p h then some (h, put ++ rest)
    else
      match pickHart p put rest with
      | some (g, r) => some (g, h :: r)
      | none => none

/-- The state with hart `h` current, the present one in its place among the others; unchanged if `h` is not placed. -/
def State.focus (s : State) (h : HartId) : State :=
  if s.hart.ident.id = h && !s.hart.marks.halted then s
  else
    match pickHart (fun k => k.ident.id == h) (if s.hart.marks.halted then [] else [s.hart]) s.others with
    | some (g, rest) => { s with hart := g, others := rest }
    | none => s

/-- A current hart that is placed put back among the others behind `n` of them, with `h` current again. -/
def State.putBack (s : State) (n : Nat) (h : Hart) : State :=
  { s with hart := h, others := if s.hart.marks.halted then s.others else s.others.take n ++ s.hart :: s.others.drop n }

/-- `f` applied with hart `h` current, and the old current hart restored; unchanged if `h` is not placed. What acts on a hart does
not change the order in which the harts issue (R315). -/
def State.onHart (s : State) (h : HartId) (f : State → State) : State :=
  match s.findHart h with
  | some _ =>
    if s.hart.marks.halted then (f (s.focus h)).putBack (s.others.takeWhile fun k => k.ident.id != h).length s.hart
    else (f (s.focus h)).focus s.hart.ident.id
  | none => s

/-- Every placed hart changed. -/
def State.mapHarts (s : State) (f : Hart → Hart) : State :=
  { s with hart := f s.hart, others := s.others.map f }

/-- A fresh number for a free value (log entry 10). -/
def State.fresh (s : State) : State := { s with tick := s.tick + 1 }

/-- A launch by its acceptance number. -/
def State.launch (s : State) (seq : Nat) : Option Launch := s.sched.launches.find? fun l => l.seq == seq

/-- The state with one launch changed. -/
def State.updateLaunch (s : State) (seq : Nat) (f : Launch → Launch) : State :=
  { s with sched := { s.sched with launches := s.sched.launches.map fun l => if l.seq = seq then f l else l } }

/-- A running launch whose remaining harts are all saved waits as a saved launch (R331, R337). -/
def State.settleSaved (s : State) (seq : Nat) : State :=
  if s.placed.any fun j => j.ident.seq == seq then s
  else
    s.updateLaunch seq fun l =>
      if l.phase = .running && !l.savedHarts.isEmpty then { l with phase := .saved } else l

/-- Units that an item of a declaration holds (R396). -/
def itemUnits (maxlen : Nat) : Nat := (maxlen + 64 + 65535) / 65536

/-- Units that a slot holds. -/
def HoldSlot.units (h : HoldSlot) : Nat := (h.items.map fun i => itemUnits i.maxlen).sum

/-- GRANTED of HUSTAT (R394): units of the slots that are not free. -/
def State.granted (s : State) : Nat := (s.holdup.slots.map fun p => if p.2.state = 0 then 0 else p.2.units).sum

/-- HUSTAT (R394). -/
def State.hustat (s : State) : Nat :=
  s.holdup.emj % 65536 * 2 ^ 32 + bit01 s.holdup.charging * 2 ^ 31 + s.granted % 8192 * 65536 + s.holdup.capunits

/-- The addresses in the FIFO of a port; what a hart's LAUNCH handed over is in none (R33, R311). -/
def State.portFifo (s : State) (p : Nat) : List LaunchReq := s.sched.fifo.filter fun r => r.prio.val == p && r.hart.isNone

/-- FULL of LPSTAT (R34): the priorities whose FIFO holds 16 addresses. -/
def State.lpFull (s : State) : Nat :=
  ((List.range 8).map fun p =>
    if 16 ≤ (s.portFifo p).length then 2 ^ p else 0).sum

/-- LPSTAT (R34). -/
def State.lpstat (s : State) : Nat := s.sched.lpCode.toNat * 2 ^ 32 + s.lpFull * 256 + s.sched.lpErr.toNat

/-- LPCTX (R35). -/
def State.lpctx (s : State) : Nat := bit01 s.sched.lpEn * 65536 + s.sched.lpCtx.toNat

/-- The code of a power state (R415). -/
def PowerState.code : PowerState → Nat
  | .p0 => 0
  | .p1 => 1
  | .ret => 2
  | .off => 3

/-- The power state of a code (R415). -/
def PowerState.ofCode : Nat → PowerState
  | 0 => .p0
  | 1 => .p1
  | 2 => .ret
  | _ => .off

/-- The F-die register at an offset (R415). -/
def State.fdieRead (s : State) (off : Nat) : Nat :=
  match off with
  | 0x000 => s.fdie.ctxtab.toNat
  | 0x008 => s.fdie.rtvec.toNat
  | 0x010 => bit01 (!s.fdie.tlbInv.isEmpty)
  | 0x018 => s.hustat
  | 0x020 => s.fdie.evring.toNat
  | 0x028 => s.fdie.evWraps * 2 ^ 32 + s.fdie.evNext
  | 0x030 => s.fdie.hwin.toNat
  | 0x038 => s.power.req.code
  | 0x040 => bit01 s.power.err * 512 + bit01 s.power.throttled * 256 + s.power.state.code
  | 0x048 => s.power.portUp.toNat * 65536 + bit01 s.power.bootOk * 8192 + bit01 s.power.cxlUp * 4096 +
      s.power.full.toNat * 256 + s.power.bulkOk.toNat * 16 + s.power.sdOk.toNat
  | 0x050 => 1
  | _ => 0

/-- MBSTAT (R422). -/
def State.mbstat (s : State) : Nat :=
  s.mgmt.respLen * 65536 + s.mgmt.result.toNat * 256 + bit01 s.mgmt.ovr * 4 + bit01 s.mgmt.done * 2 + bit01 s.mgmt.busy

/-- One byte of a little-endian register. -/
def regByte (v i : Nat) : Byte := BitVec.ofNat 8 (v / 256 ^ i)

/-- One byte of telemetry (R421). -/
def State.telemetryByte (s : State) (off : Nat) : Byte :=
  if off < 0x400 then
    let d := off / 256
    let w := off % 256
    if w < 0x10 then regByte (Config.telemetry (2 * d + w / 8) s.tick).toNat (w % 8)
    else if w < 0x40 then regByte ((assocGet s.mgmt.corrected (6 * d + (w / 8 - 2))).getD 0) (w % 8)
    else 0
  else if off < 0x420 then BitVec.ofNat 8 (s.power.lanes.getD (off - 0x400) 0)
  else if off < 0x4A0 then regByte (s.power.retrains.getD ((off - 0x420) / 4) 0) (off % 4)
  else 0

/-- The violation log of a target. -/
def State.vlog (s : State) (t : Fin 11) : VLog := (assocGet s.vlogs t).getD ⟨[], 0, 0⟩

/-- One byte of the access tables and logs (R412, R357, R360). -/
def State.accessByte (s : State) (off : Nat) : Byte :=
  let t := off / 0x2000
  let o := off % 0x2000
  if 11 ≤ t then 0
  else if o < 0x1400 then
    match s.access.find? fun e => e.target.val == t && e.cls.val == o / 0x400 && e.index.val == o % 0x400 / 16 with
    | some e => regByte (if o % 16 < 8 then e.w0.toNat else e.w1.toNat) (o % 8)
    | none => 0
  else if o < 0x1500 then
    match (s.vlog (Fin.ofNat 11 t)).entries.find? fun e => e.1 == (o - 0x1400) / 16 with
    | some e => regByte (if o % 16 < 8 then e.2.1.toNat else e.2.2.toNat) (o % 8)
    | none => 0
  else if o < 0x1508 then
    regByte ((s.vlog (Fin.ofNat 11 t)).drops * 256 + (s.vlog (Fin.ofNat 11 t)).next) (o % 8)
  else 0

/-- One byte of the device register space below the host window; a reserved place in a block reads 0 (R4, R32). -/
def State.deviceByte (s : State) (la : Nat) : Byte :=
  let o := la - 0xF000000000
  if o < 0x100 then
    (if 0x40 ≤ o ∧ o < 0x48 then regByte s.lpstat (o % 8)
     else if 0x48 ≤ o ∧ o < 0x50 then regByte s.lpctx (o % 8) else 0)
  else if 0x1000 ≤ o ∧ o < 0x2000 then regByte (s.fdieRead ((o - 0x1000) / 8 * 8)) (o % 8)
  else if 0x10008 ≤ o ∧ o < 0x10010 then regByte s.mbstat (o % 8)
  else if 0x11000 ≤ o ∧ o < 0x12000 then s.mgmt.payload.getD (o - 0x11000) 0
  else if 0x20000 ≤ o ∧ o < 0x21000 then s.telemetryByte (o - 0x20000)
  else if 0x100000 ≤ o ∧ o < 0x116000 then s.accessByte (o - 0x100000)
  else 0

/-- The bytes of a device read. -/
def State.deviceRead (s : State) (la : Nat) : Nat → List Byte
  | 0 => []
  | n + 1 => s.deviceByte la :: s.deviceRead (la + 1) n

/-- A launch rejected at a priority (R34, R36). -/
def State.rejectPort (s : State) (p : Fin 8) (code : BitVec 8) : State :=
  { s with sched := { s.sched with lpErr := s.sched.lpErr ||| BitVec.ofNat 8 (2 ^ p.val), lpCode := code } }

/-- A write of LAUNCHPORTp: reasons 0x0A, 0x01 and 0x08 are decided at the port (R28, R33). -/
def State.portWrite (s : State) (p : Fin 8) (v : Word) : State :=
  if !s.sched.lpEn then s.rejectPort p 0x0A
  else if v.toNat % 256 ≠ 0 ∨ 2 ^ 57 ≤ v.toNat then s.rejectPort p 0x01
  else if 16 ≤ (s.portFifo p.val).length then s.rejectPort p 0x08
  else
    { s with sched := { s.sched with
        fifo := s.sched.fifo ++ [⟨v, s.sched.lpCtx, p, none, s.sched.arrivals⟩]
        arrivals := s.sched.arrivals + 1 } }

/-- W1C of LPSTAT.ERR (R34). -/
def State.clearLpErr (s : State) (mask : BitVec 8) : State :=
  { s with sched := { s.sched with lpErr := s.sched.lpErr &&& ~~~mask } }

/-- A write of LPCTX; a nonzero reserved bit leaves it unchanged (R35). -/
def State.writeLpctx (s : State) (v : Word) : State :=
  if 2 ^ 17 ≤ v.toNat then s
  else { s with sched := { s.sched with lpEn := v.getLsbD 16, lpCtx := v.setWidth 16 } }

/-- TLB entries that an invalidation of a KIND matches (R353). -/
def tlbMatch (kind : Nat) (ctx : BitVec 16) (vpn : Nat) (e : TlbEntry) : Bool :=
  match kind with
  | 0 => true
  | 1 => e.ctx == ctx
  | _ => e.ctx == ctx && (if e.block then e.vpage == vpn / 8192 else e.vpage == vpn)

/-- The TLB entries matching an invalidation dropped (R353). -/
def State.tlbDrop (s : State) (kind : Nat) (ctx : BitVec 16) (vpn : Nat) : State :=
  { s with tlb := s.tlb.filter fun e => !tlbMatch kind ctx vpn e }

/-- A write of TLBINVR: the invalidation starts beside those under way, and reads return 1 until all are complete (R353). -/
def State.tlbInvalidateRegister (s : State) (kind : Nat) (ctx : BitVec 16) (vpn : Nat) : State :=
  let s := s.tlbDrop kind ctx vpn
  { s with fdie := { s.fdie with tlbInv := s.fdie.tlbInv ++ [(kind, ctx, vpn)] } }

/-- A hart placed or saved exists, a test kernel's included (R215, R419). -/
def State.anyHart (s : State) : Bool :=
  !s.placed.isEmpty || !s.savedTests.isEmpty || s.sched.launches.any fun l => !l.savedHarts.isEmpty

/-- A request written to PWRCTL.REQ: refused, or pursued (R419). -/
def State.powerRequest (s : State) (req : PowerState) : State :=
  let refused : Bool :=
    match req with
    | .p0 => false
    | .p1 => s.power.state == .ret
    | _ => s.anyHart
  if refused then { s with power := { s.power with err := true } }
  else { s with power := { s.power with req := req, target := some req } }

/-- The condition of a transition to P0 (R419). -/
def State.p0Ready (s : State) : Bool := s.power.full == 0xF && !s.power.throttled

/-- What entering RET or OFF does: modified lines are home already, cached copies are dropped, VRF and weight buffers
are lost, the ports are disabled (R419). -/
def State.enterRetention (s : State) (st : PowerState) : State :=
  { s with
    power := { s.power with state := st, target := none }
    store := { s.store with transient := [], far := { s.store.far with rdc := [], l1 := [] } }
    sched := { s.sched with lpEn := false } }

/-- A power transition completes (R419): RET and OFF are entered with no hart placed or saved. -/
def State.powerComplete (s : State) : State :=
  match s.power.target with
  | none => s
  | some .p0 => if s.p0Ready then { s with power := { s.power with state := .p0, target := none } } else s
  | some .p1 => { s with power := { s.power with state := .p1, target := none } }
  | some st => if s.anyHart then s else s.enterRetention st

/-- A write of an F-die register; a reserved bit set leaves it unchanged (R415). So does the reserved value KIND = 3 of TLBINVR,
of which no rule says what it does (the model's choice, log entry 67). RTVEC keeps the bits that R42 reserves in a program
counter (the model's choice, log entry 79). -/
def State.fdieWrite (s : State) (off : Nat) (v : Word) : State :=
  let n := v.toNat
  match off with
  | 0x000 => if 2 ^ 57 ≤ n ∨ n % 2 ^ 21 / 2 ≠ 0 then s else { s with fdie := { s.fdie with ctxtab := v } }
  | 0x008 => { s with fdie := { s.fdie with rtvec := v } }
  | 0x010 =>
    if n % 128 / 4 ≠ 0 ∨ n % 4 = 3 then s
    else s.tlbInvalidateRegister (n % 4) (BitVec.ofNat 16 (n / 128)) (n / 2 ^ 23)
  | 0x020 =>
    if 2 ^ 57 ≤ n ∨ n % 4096 / 16 ≠ 0 ∨ 8 < n % 16 then s else { s with fdie := { s.fdie with evring := v } }
  | 0x030 => if 2 ^ 40 ≤ n ∨ n % 2 ^ 35 ≠ 0 then s else { s with fdie := { s.fdie with hwin := v } }
  | 0x038 => if 4 ≤ n then s else s.powerRequest (PowerState.ofCode n)
  | 0x040 =>
    if 1024 ≤ n ∨ n % 256 / 8 ≠ 0 then s
    else if v.getLsbD 9 then { s with power := { s.power with err := false } } else s
  | _ => s

/-- W1C of MBSTAT (R422). -/
def State.clearMbstat (s : State) (mask : BitVec 2) : State :=
  { s with mgmt := { s.mgmt with
      done := s.mgmt.done && !mask.getLsbD 0
      ovr := s.mgmt.ovr && !mask.getLsbD 1 } }

/-- The payload buffer of the mailbox with bytes written (R422). -/
def payloadWrite (p : List Byte) (off : Nat) : List Byte → List Byte
  | [] => p
  | b :: rest =>
    payloadWrite (listSet (if p.length ≤ off then p ++ List.replicate (off + 1 - p.length) 0 else p) off b) (off + 1) rest

/-- One access-table entry set (R357). -/
def State.setAccess (s : State) (e : AccessEntry) : State :=
  { s with access :=
      s.access.filter (fun f => !(f.target == e.target && f.cls == e.cls && f.index == e.index)) ++ [e] }

/-- The entry at a place of an access table; unlisted entries are 0. -/
def State.accessEntry (s : State) (t : Fin 11) (c : Fin 5) (k : Fin 64) : AccessEntry :=
  (s.access.find? fun f => f.target == t && f.cls == c && f.index == k).getD ⟨t, c, k, 0, 0⟩

/-- A violation log cleared (R360). -/
def State.clearVlog (s : State) (t : Fin 11) : State := { s with vlogs := assocSet s.vlogs t ⟨[], 0, 0⟩ }

/-- A write of MBCMD (R422): while BUSY it is dropped and OVR is set; else the mailbox is BUSY with the command. -/
def State.writeMbcmd (s : State) (v : Word) : State :=
  if s.mgmt.busy then { s with mgmt := { s.mgmt with ovr := true } }
  else { s with mgmt := { s.mgmt with busy := true, command := some (v.toNat % 256, v.toNat / 65536 % 4096) } }

/-- A word of an access-table entry without its reserved bits, which are not stored (R4, R357, log entry 67). -/
def accessWord (second : Bool) (v : Word) : Word := v &&& (if second then 0xFFFFFF0000 else 0xFFFFFF000F)

/-- A write of up to 8 bytes to the device register space below the host window by a class (R358, R412): a register
takes an aligned 8-byte write, the payload buffer any; only the management controller writes tables and logs. -/
def State.deviceWrite (s : State) (cls : Fin 5) (la : Nat) (bytes : List Byte) : State :=
  let o := la - 0xF000000000
  let v : Word := BitVec.ofNat 64 (leNat bytes)
  if 0x11000 ≤ o ∧ o < 0x12000 then
    { s with mgmt := { s.mgmt with payload := payloadWrite s.mgmt.payload (o - 0x11000) bytes } }
  else if bytes.length ≠ 8 ∨ o % 8 ≠ 0 then s
  else if o < 0x40 then s.portWrite (Fin.ofNat 8 (o / 8)) v
  else if o = 0x40 then s.clearLpErr (v.setWidth 8)
  else if o = 0x48 then s.writeLpctx v
  else if 0x1000 ≤ o ∧ o < 0x2000 then s.fdieWrite (o - 0x1000) v
  else if o = 0x10000 then s.writeMbcmd v
  else if o = 0x10008 then s.clearMbstat (BitVec.ofNat 2 (v.toNat / 2))
  else if 0x100000 ≤ o ∧ o < 0x116000 ∧ cls = 4 then
    let t := Fin.ofNat 11 ((o - 0x100000) / 0x2000)
    let q := (o - 0x100000) % 0x2000
    if q < 0x1400 then
      let e := s.accessEntry t (Fin.ofNat 5 (q / 0x400)) (Fin.ofNat 64 (q % 0x400 / 16))
      s.setAccess (if q % 16 = 0 then { e with w0 := accessWord false v } else { e with w1 := accessWord true v })
    else if q = 0x1500 ∧ v.getLsbD 4 then s.clearVlog t
    else s
  else s

end Sys2Proof.Machine
end

