-- ==== Sys2Proof/Machine/Access.lean ====
section
/-! DEFINITION. Physical accesses: the address map (R219, R220, R412), the access tables and violation logs (R356 to
R360), memory of other packages (R221, R222, R237, R391), poison (R379). -/

namespace Sys2Proof.Machine

/-- What an access does (R357, R360). -/
inductive AccessKind where
  | load | store | atomic | fetch
deriving DecidableEq, Repr

/-- The code of an access kind in a violation log (R360). -/
def AccessKind.code : AccessKind → Nat
  | .load => 0
  | .store => 1
  | .atomic => 2
  | .fetch => 3

/-- Who makes an access: master class (0 core, 1 copy engine, 2 fabric ingress, 3 host, 4 management controller),
context and place (R356, R360). -/
structure Requester where
  cls : Fin 5
  ctx : BitVec 16
  pkg : BitVec 17
  core : Nat
deriving DecidableEq, Repr

/-- What a read at a physical address answers; `ecc` names a granule that cannot be corrected. -/
inductive PhysRes where
  | bytes (bs : List Byte) (ecc : Option Nat)
  | error
  | noPath
deriving DecidableEq, Repr

/-- Where a local address lies (R219, R412). -/
inductive Region where
  | bulk (die : Nat)
  | near (die : Nat)
  | clm (core off : Nat)
  | device (off : Nat)
  | hostWindow (off : Nat)
  | reserved
deriving DecidableEq, Repr

/-- The region of a local address (R219, R412). -/
def region (la : Nat) : Region :=
  if la < 0x8000000000 then .bulk (la / 0x2000000000)
  else if la < 0x8400000000 then
    (if (la - 0x8000000000) % 0x100000000 < 0x18000000 then .near ((la - 0x8000000000) / 0x100000000) else .reserved)
  else if 0x9000000000 ≤ la ∧ la < 0x9040000000 then
    .clm ((la - 0x9000000000) / 0x400000) ((la - 0x9000000000) % 0x400000)
  else if 0xF000000000 ≤ la ∧ la < 0xF800000000 then .device (la - 0xF000000000)
  else if 0xF800000000 ≤ la ∧ la < 0x10000000000 then .hostWindow (la - 0xF800000000)
  else .reserved

/-- The package of a physical address (R7). -/
def paPkg (pa : Nat) : Nat := pa / 2 ^ 40 % 2 ^ 17

/-- The local part of a physical address (R219). -/
def paLocal (pa : Nat) : Nat := pa % 2 ^ 40

/-- The host physical address of a host window offset (R413). -/
def State.hostAddr (s : State) (off : Nat) : Nat := s.fdie.hwin.toNat / 2 ^ 35 * 2 ^ 35 + off

/-- Whether an access entry permits an access of a kind to a 64 KiB unit (R357). -/
def AccessEntry.permits (e : AccessEntry) (k : AccessKind) (unit : Nat) : Bool :=
  e.w0.getLsbD 0 && decide (e.w0.toNat / 65536 % 2 ^ 24 ≤ unit) && decide (unit ≤ e.w1.toNat / 65536 % 2 ^ 24) &&
    match k with
    | .load => e.w0.getLsbD 1
    | .store => e.w0.getLsbD 2
    | .atomic => e.w0.getLsbD 1 && e.w0.getLsbD 2
    | .fetch => e.w0.getLsbD 3 && e.cls == 0

/-- Whether the table of a target permits an access of a class (R357). -/
def State.permits (s : State) (t : Fin 11) (cls : Fin 5) (k : AccessKind) (addr : Nat) : Bool :=
  s.access.any fun e => e.target == t && e.cls == cls && e.permits k (addr / 65536 % 2 ^ 24)

/-- A refused access recorded in the log of its target (R360). -/
def State.logViolation (s : State) (t : Fin 11) (r : Requester) (k : AccessKind) (pa : Nat) : State :=
  let l := s.vlog t
  let named := r.cls = 3 ∨ r.cls = 4
  let w0 : Word := BitVec.ofNat 64 (pa % 2 ^ 57)
  let w1 : Word := BitVec.ofNat 64
    ((if named then 0 else r.ctx.toNat) * 2 ^ 48 + r.pkg.toNat * 2 ^ 31 +
      (if r.cls = 0 then r.core else 0) * 2 ^ 23 + r.cls.val * 2 ^ 20 + k.code * 2 ^ 18 + 1)
  let old := l.entries.any fun e => e.1 == l.next
  let log : VLog :=
    ⟨assocSet l.entries l.next (w0, w1), (l.next + 1) % 16, if old then min (l.drops + 1) (2 ^ 24 - 1) else l.drops⟩
  { s with vlogs := assocSet s.vlogs t log }

/-- The target that guards a region (R356). -/
def Region.target : Region → Option (Fin 11)
  | .bulk d => some (Fin.ofNat 11 (d % 4))
  | .near d => some (Fin.ofNat 11 (4 + d % 4))
  | .clm c _ => some (Fin.ofNat 11 (4 + c / 64 % 4))
  | .device _ => some 10
  | .hostWindow _ => some 10
  | .reserved => none

/-- Whether an offset of the device register space lies in a block of R412; every other offset is reserved. The extents
of the blocks beyond their registers are the model's choice (log entry 30). -/
def deviceBlock (off : Nat) : Bool :=
  decide (off < 0x100) || decide (0x1000 ≤ off ∧ off < 0x2000) || decide (0x10000 ≤ off ∧ off < 0x12000) ||
    decide (0x20000 ≤ off ∧ off < 0x21000) || decide (0x100000 ≤ off ∧ off < 0x116000)

/-- Whether the storage behind a region answers: bulk memory of a die in full service (R416), near memory and
scratchpad of a die that passed its self-test, never the queue and L1 regions of a CLM (R220). -/
def State.present (s : State) : Region → Bool
  | .bulk d => s.power.full.getLsbD d
  | .near d => s.power.sdOk.getLsbD d
  | .clm c off => s.power.sdOk.getLsbD (c / 64) && decide (off < 0x3C0000 - (s.core c).l1Bytes)
  | .device off => deviceBlock off
  | .hostWindow _ => s.power.cxlUp
  | .reserved => false

/-- The checks of an access to this package: the region exists, its target permits it (R356 to R360); a refusal is
logged. The Boolean says that the access may proceed. -/
def State.checkLocal (s : State) (r : Requester) (k : AccessKind) (pa : Nat) : State × Bool :=
  let la := paLocal pa
  let g := region la
  match g.target with
  | none => (s, false)
  | some t =>
    if !s.permits t r.cls k la then (s.logViolation t r k pa, false)
    else
      match g with
      | .hostWindow off =>
        if !s.permits 8 r.cls k (s.hostAddr off) then (s.logViolation 8 r k pa, false) else (s, s.present g)
      | _ => (s, s.present g)

/-- The 32-byte granules that `n` bytes at a physical address touch. -/
def granules (pa n : Nat) : List Nat := (List.range ((pa + n + 31) / 32 - pa / 32)).map fun i => pa / 32 + i

/-- The first granule of a read that cannot be corrected (R379). -/
def State.eccAt (s : State) (pa n : Nat) : Option Nat :=
  (granules pa n).find? fun g => s.store.poison.contains g || s.store.transient.contains g

/-- Bytes of this package's storage at a local address. -/
def State.localBytes (s : State) (la n : Nat) : List Byte :=
  match region la with
  | .device _ => s.deviceRead la n
  | .hostWindow off => readBytes s.store.host (s.hostAddr off) n
  | _ => readBytes s.store.mem la n

/-- Whether a fabric port carries traffic (R391, R415). -/
def State.portUsable (s : State) (p : Nat) : Bool := s.power.portUp.getLsbD p && s.power.lanes.getD p 0 != 0

/-- Whether some path leads to another package: direct links inside the quad, or stage 1 (R283, R391). -/
def State.hasPath (s : State) (pkg : Nat) : Bool :=
  let stage1 := (List.range 26).any fun i => s.portUsable (6 + i)
  if pkg / 4 = s.pkg.toNat / 4 then
    let k := (((List.range 4).filter fun i => i ≠ s.pkg.toNat % 4).takeWhile fun i => i ≠ pkg % 4).length
    s.portUsable (2 * k) || s.portUsable (2 * k + 1) || stage1
  else stage1

/-- Bytes overlaid by later stores to the same addresses, in order. -/
def overlay (base : Nat) (bs : List Byte) : List (Nat × List Byte) → List Byte
  | [] => bs
  | (pa, ws) :: rest =>
    overlay base
      ((bs.zipIdx).map fun p =>
        if pa ≤ base + p.2 ∧ base + p.2 < pa + ws.length then ws.getD (base + p.2 - pa) p.1 else p.1) rest

/-- Whether another package answers at a local address: it has no state here for its devices and its host (R219, R220, log
entries 16 and 49). -/
def Peer.answers (p : Peer) (la : Nat) : Bool :=
  match region la with
  | .bulk _ => true
  | .near _ => true
  | .clm c off => decide (off < 0x3C0000 - (assocGet p.l1 c).getD 0)
  | _ => false

/-- Whether a line at a local address may be cached: never CLM (R218). -/
def cacheableAt (la : Nat) : Bool :=
  match region la with
  | .bulk _ => true
  | .near _ => true
  | _ => false

/-- Whether a copy of a line has not reached the end of its life: 32,768 cycles after its fill, but for an unordered line
(R222, R237). -/
def RemoteCopy.live (c : RemoteCopy) (now : Nat) : Bool := c.kind == .un || decide (now < c.filled + 32768)

/-- A live copy of a line in a cache unit. -/
def findCopy (l : List RemoteCopy) (now unit line : Nat) (kind : PageKind) : Option (List Byte) :=
  (l.find? fun c => c.unit == unit && c.line == line && c.kind == kind && c.live now).map fun c => c.bytes

/-- A copy put into a cache in place of an older one of the line. -/
def installCopy (l : List RemoteCopy) (c : RemoteCopy) : List RemoteCopy :=
  c :: l.filter fun d => !(d.unit == c.unit && d.line == c.line && d.kind == c.kind)

/-- The first granule of a read that fails in a cached copy (R379). -/
def State.transientAt (s : State) (pa n : Nat) : Option Nat := (granules pa n).find? fun g => s.store.transient.contains g

/-- A cacheable read of another package's memory by a hart or its copy engine: from an L1 or RDC copy, which an error of its
own may spoil but none of the home, or from the home, filling both with a line that holds no error (R222, R223, R379). -/
def State.cachedRemote (s : State) (core pa n : Nat) (kind : PageKind) (m : Mem) : State × PhysRes :=
  let line := pa / 128
  let far := s.store.far
  let part := fun (bs : List Byte) => (bs.drop (pa % 128)).take n
  match (findCopy far.l1 s.cycle core line kind).or (findCopy far.rdc s.cycle (core / 64) line kind) with
  | some bs => (s, .bytes (part bs) (s.transientAt pa n))
  | none =>
    let bs := readBytes m (paLocal pa / 128 * 128) 128
    if (s.eccAt (line * 128) 128).isSome then (s, .bytes (part bs) (s.eccAt pa n))
    else
      let l1 :=
        if (s.core core).l1Bytes = 0 then far.l1 else installCopy far.l1 ⟨core, line, kind, bs, s.cycle⟩
      ({ s with store := { s.store with far := { far with
          rdc := installCopy far.rdc ⟨core / 64, line, kind, bs, s.cycle⟩, l1 := l1 } } },
        .bytes (part bs) none)

/-- The release-consistent copies of a line dropped, in the units that `hit` names (R224, R229). -/
def State.dropLine (s : State) (line : Nat) (hit : Bool → Nat → Bool) : State :=
  let gone := fun (inL1 : Bool) (c : RemoteCopy) => c.line == line && c.kind != .un && hit inL1 c.unit
  { s with store := { s.store with far := { s.store.far with
      rdc := s.store.far.rdc.filter fun c => !gone false c
      l1 := s.store.far.l1.filter fun c => !gone true c } } }

/-- The bytes of an unordered copy of a line after a store to it (R237). -/
def RemoteCopy.stored (c : RemoteCopy) (pa : Nat) (bs : List Byte) : RemoteCopy :=
  if c.kind = .un ∧ c.line = pa / 128 then { c with bytes := overlay (c.line * 128) c.bytes [(pa, bs)] } else c

/-- A read that reached the home of a remote line and found `bs` there: the copies that the core reads through are older, and
go; unordered ones take the bytes read (R229). -/
def State.readHome (s : State) (core pa : Nat) (bs : List Byte) : State :=
  let s := s.dropLine (pa / 128) fun inL1 u => u == (if inL1 then core else core / 64)
  { s with store := { s.store with far := { s.store.far with
      rdc := s.store.far.rdc.map fun c => if c.unit = core / 64 then c.stored pa bs else c
      l1 := s.store.far.l1.map fun c => if c.unit = core then c.stored pa bs else c } } }

/-- The page kind under which a cache answers a read, if any: never one of an SO page, nor of memory that is not cached. -/
def cachedKind (la : Nat) : Option PageKind → Option PageKind
  | some .so => none
  | kind => if cacheableAt la then kind else none

/-- A read of `n` bytes inside one line at a physical address; `kind` is the page kind of an access of a hart or of its copy
engine. What it finds at the home of a remote line, by an atomic or on an SO page, is newer than the copies it leaves (R229). -/
def State.physRead (s : State) (r : Requester) (k : AccessKind) (pa n : Nat) (kind : Option PageKind) :
    State × PhysRes :=
  if paPkg pa = s.pkg.toNat then
    let (s, ok) := s.checkLocal r k pa
    if ok then (s, .bytes (s.localBytes (paLocal pa) n) (s.eccAt pa n)) else (s, .error)
  else
    match assocGet s.store.peers (paPkg pa) with
    | none => (s, .error)
    | some p =>
      if !p.answers (paLocal pa) then (s, .error)
      else if !s.hasPath (paPkg pa) then (s, .noPath)
      else
        let (s, res) :=
          match cachedKind (paLocal pa) kind with
          | some kd => s.cachedRemote r.core pa n kd p.mem
          | none =>
            let bs := readBytes p.mem (paLocal pa) n
            let home := decide (k = AccessKind.atomic) || kind == some PageKind.so
            (if home then s.readHome r.core pa bs else s, PhysRes.bytes bs (s.eccAt pa n))
        match res with
        | .bytes bs ecc => (s, .bytes (overlay pa bs (s.store.far.pendingUn.map fun q => q.2)) ecc)
        | res => (s, res)

/-- Whether a store at a physical address would be accepted by its target; nothing is written. -/
def State.physCheck (s : State) (r : Requester) (k : AccessKind) (pa : Nat) : State × PhysRes :=
  if paPkg pa = s.pkg.toNat then
    let (s, ok) := s.checkLocal r k pa
    (s, if ok then .bytes [] none else .error)
  else
    match assocGet s.store.peers (paPkg pa) with
    | none => (s, .error)
    | some p =>
      (s, if !p.answers (paLocal pa) then .error else if s.hasPath (paPkg pa) then .bytes [] none else .noPath)

/-- Granules wholly inside a store are no longer poisoned (R379). -/
def clearedPoison (poison : List Nat) (pa n : Nat) : List Nat :=
  poison.filter fun g => !(decide (pa ≤ g * 32) && decide (g * 32 + 32 ≤ pa + n))

/-- The granules that a store of `n` bytes fills hold no poison (R379). -/
def State.fillGranules (s : State) (pa n : Nat) : State :=
  { s with store := { s.store with poison := clearedPoison s.store.poison pa n } }

/-- What is left of a pending unordered store when the `n` bytes at `pa` have been written after it (R237). -/
def trimPending (pa n : Nat) (q : (Nat × Nat × Nat) × Nat × List Byte) : List ((Nat × Nat × Nat) × Nat × List Byte) :=
  let (key, a, bs) := q
  (if a < pa then [(key, a, bs.take (pa - a))] else []) ++
    (if pa + n < a + bs.length then [(key, max a (pa + n), bs.drop (pa + n - a))] else [])

/-- Bytes written at their home in another package: copies of the line in this package do not outlive it, unordered ones
follow it, and no older pending store to the same bytes reaches them later (R222, R228, R229, R237, R251). -/
def State.writePeer (s : State) (p : Peer) (pa : Nat) (bs : List Byte) : State :=
  let s := s.dropLine (pa / 128) fun _ _ => true
  { s with store := { s.store with
      peers := assocSet s.store.peers (paPkg pa) { p with mem := writeBytes p.mem (paLocal pa) bs }
      poison := clearedPoison s.store.poison pa bs.length
      far := { s.store.far with
        rdc := s.store.far.rdc.map fun c => c.stored pa bs
        l1 := s.store.far.l1.map fun c => c.stored pa bs
        pendingUn := s.store.far.pendingUn.flatMap (trimPending pa bs.length) } } }

/-- Bytes written at a physical address whose access was checked (R221, R222, R379). -/
def State.physWrite (s : State) (r : Requester) (pa : Nat) (bs : List Byte) : State :=
  let la := paLocal pa
  if paPkg pa = s.pkg.toNat then
    match region la with
    | .device _ => s.deviceWrite r.cls la bs
    | .hostWindow off => { s with store := { s.store with host := writeBytes s.store.host (s.hostAddr off) bs } }
    | _ =>
      { s with store := { s.store with
          mem := writeBytes s.store.mem la bs
          poison := clearedPoison s.store.poison pa bs.length } }
  else
    match assocGet s.store.peers (paPkg pa) with
    | none => s
    | some p => s.writePeer p pa bs

/-- A transient error consumed: the bad copy is dropped, and the next access fetches again (R379). -/
def State.dropTransient (s : State) (g : Nat) : State :=
  if s.store.transient.contains g then
    let s := { s with store := { s.store with transient := s.store.transient.filter fun t => t ≠ g } }
    { s with store := { s.store with far := { s.store.far with
        rdc := s.store.far.rdc.filter fun c => c.line ≠ g / 4
        l1 := s.store.far.l1.filter fun c => c.line ≠ g / 4 } } }
  else s

/-- Whether the granule is poisoned at its home (R379). -/
def State.poisoned (s : State) (pa n : Nat) : Bool := (granules pa n).any fun g => s.store.poison.contains g

/-- Granules of a range poisoned (R379). -/
def State.poisonRange (s : State) (pa n : Nat) : State :=
  { s with store := { s.store with
      poison := s.store.poison ++ (granules pa n).filter fun g => !s.store.poison.contains g } }

/-- The pending stores of one hart sent home in order; older stores to the same bytes do not follow them (R229, R237). -/
def State.sendPending (key : Nat × Nat × Nat) (r : Requester) :
    List ((Nat × Nat × Nat) × Nat × List Byte) → List ((Nat × Nat × Nat) × Nat × List Byte) → State → State
  | [], kept, s => { s with store := { s.store with far := { s.store.far with pendingUn := kept } } }
  | p :: rest, kept, s =>
    if p.1 = key then
      State.sendPending key r rest (kept.flatMap (trimPending p.2.1 p.2.2.length)) (s.physWrite r p.2.1 p.2.2)
    else State.sendPending key r rest (kept ++ [p]) s

/-- Stores to unordered pages sent to their home (R237). -/
def State.sendUnordered (s : State) (h : Hart) : State :=
  State.sendPending h.ident.key ⟨0, 0, s.pkg, h.core⟩ s.store.far.pendingUn [] s

/-- Copies of remote lines dropped in the units that `hit` names: every copy, or all but the unordered ones. -/
def State.dropFar (s : State) (all : Bool) (hit : Bool → Nat → Bool) : State :=
  let gone := fun (inL1 : Bool) (c : RemoteCopy) => hit inL1 c.unit && (all || c.kind != .un)
  { s with store := { s.store with far := { s.store.far with
      rdc := s.store.far.rdc.filter fun c => !gone false c
      l1 := s.store.far.l1.filter fun c => !gone true c } } }

/-- What FENCE.ACQ.s and FENCE.FULL.s drop: the die's RDC copies and the core's L1 copies of remote lines (R237, R254). -/
def State.dropRemote (s : State) (core : Nat) : State := s.dropFar true fun inL1 u => u == if inL1 then core else core / 64

/-- What an acquire drops before the accesses that follow it: at .s and .p the ordered copies in the die's RDC and the core's
L1, at .d those in the core's L1 (R222, R224, R233). -/
def State.dropOrdered (s : State) (core : Nat) (sc : Scope) : State :=
  match sc with
  | .h => s
  | .c => s
  | .d => s.dropFar false fun inL1 u => inL1 && u == core
  | _ => s.dropFar false fun inL1 u => u == if inL1 then core else core / 64

/-- The acceptance of a launch: no ordered copy of a remote line, code included, outlives it in the package (R41, R312). -/
def State.dropEveryCopy (s : State) : State := s.dropFar false fun _ _ => true

end Sys2Proof.Machine
end

