-- ==== Sys2Proof/Machine/Translate.lean ====
section
/-! DEFINITION. Translation: the four-level walk, leaves, stripes, shadow words and the TLB (R225, R346 to R352). -/

namespace Sys2Proof.Machine

/-- Why an access to a virtual address fails: a translation (7) or access (8) fault with its reason and level (R349),
an uncorrectable granule (R380), or no fabric path (R391). -/
inductive AccFault where
  | fault (cause reason level : Nat)
  | ecc (granule : Nat)
  | noPath
deriving DecidableEq, Repr

/-- ACC of XLINFO: 1 fetch, 2 load, 3 store or atomic (R349). -/
def AccessKind.acc : AccessKind → Nat
  | .fetch => 1
  | .load => 2
  | .store => 3
  | .atomic => 3

/-- One bit of a table entry. -/
def entryBit (e i : Nat) : Bool := e / 2 ^ i % 2 == 1

/-- ADDR of a table entry, in place (R347). -/
def entryAddr (e : Nat) : Nat := e % 2 ^ 57 / 65536 * 65536

/-- Whether a valid table entry is malformed at a level (R347). -/
def entryMalformed (e lv : Nat) : Bool :=
  if entryBit e 1 then lv == 3 || e / 2 ^ 57 != 0 || e % 65536 / 4 != 0
  else
    lv == 0 || lv == 1 || e % 65536 / 1024 != 0 || (!entryBit e 9 && e / 2 ^ 57 != 0) || e / 64 % 4 == 3 ||
      (lv == 2 && (e / 65536 % 8192 != 0 || entryBit e 9 || entryBit e 8))

/-- The index of an address at a level (R346). -/
def walkIndex (lv va : Nat) : Nat :=
  match lv with
  | 0 => va / 2 ^ 55 % 4
  | 1 => va / 2 ^ 42 % 8192
  | 2 => va / 2 ^ 29 % 8192
  | _ => va / 2 ^ 16 % 8192

/-- The leaf a walk reached, its level and the address of its entry. -/
structure WalkLeaf where
  leaf : Nat
  level : Nat
  ea : Nat
deriving DecidableEq, Repr

/-- A walker's read of 8 bytes in its own package, as class core (R348, R356). -/
def State.walkRead (s : State) (r : Requester) (lv ea : Nat) : State × Except AccFault Nat :=
  if paPkg ea ≠ s.pkg.toNat then (s, .error (.fault 8 7 lv))
  else
    match s.physRead { r with cls := 0 } .load ea 8 none with
    | (s, .bytes bs none) => (s, .ok (leNat bs))
    | (s, .bytes _ (some g)) => (s, .error (.ecc g))
    | (s, _) => (s, .error (.fault 8 7 lv))

/-- The walk from level `lv` with table address `t` (R348). -/
def State.walkFrom (r : Requester) (va : Nat) : Nat → Nat → Nat → State → State × Except AccFault WalkLeaf
  | 0, lv, _, s => (s, .error (.fault 7 2 lv))
  | fuel + 1, lv, t, s =>
    let ea := t + 8 * walkIndex lv va
    match s.walkRead r lv ea with
    | (s, .error f) => (s, .error f)
    | (s, .ok e) =>
      if !entryBit e 0 then (s, .error (.fault 7 1 lv))
      else if entryMalformed e lv then (s, .error (.fault 7 2 lv))
      else if entryBit e 1 then State.walkFrom r va fuel (lv + 1) (entryAddr e) s
      else (s, .ok ⟨e, lv, ea⟩)

/-- The whole walk of an address (R346, R348). -/
def State.walk (s : State) (r : Requester) (xc : XlateCtx) (va : Nat) : State × Except AccFault WalkLeaf :=
  if 2 ^ 57 ≤ va then (s, .error (.fault 7 3 0))
  else State.walkFrom r va 4 0 (xc.ptroot.toNat % 2 ^ 57 / 32 * 32) s

/-- Whether `n` is a prime from 3 to 65,521 (R225). -/
def stripePrime (n : Nat) : Bool :=
  decide (3 ≤ n) && decide (n ≤ 65521) && (List.range 255).all fun i => decide (n ≤ i + 2) || n % (i + 2) != 0

/-- The exponent of a COUNT that is a power of two from 2 to 65,536 (R225). -/
def stripePower (n : Nat) : Option Nat := ((List.range 16).map fun i => i + 1).find? fun k => n == 2 ^ k

/-- The place of an address in a striped region (R225): package and local address. -/
def stripePlace (vbase lbase pbase count va : Nat) : Option (Nat × Nat) :=
  if va < vbase then none
  else
    let b := (va - vbase) / 256
    let place := fun t => some ((pbase + t) % 2 ^ 17, lbase + 256 * (b / count) + va % 256)
    match stripePower count with
    | some k => place ((b ^^^ (b >>> k) ^^^ (b >>> (2 * k))) % count)
    | none => if stripePrime count then place (b % count) else none

/-- A stripe descriptor read through STRBASE (R351); a descriptor in another package fails as a table there does, with reason 0x7
(R348; the model's choice, log entry 87). -/
def State.readStripe (s : State) (r : Requester) (xc : XlateCtx) (n : Nat) :
    State × Except AccFault (Nat × Nat × Nat × Nat) :=
  if !xc.strbase.getLsbD 0 then (s, .error (.fault 8 9 3))
  else
    let a := xc.strbase.toNat % 2 ^ 57 / 4096 * 4096 + 32 * n
    match s.walkRead r 3 a with
    | (s, .error f) => (s, .error f)
    | (s, .ok vb) =>
      match s.walkRead r 3 (a + 8) with
      | (s, .error f) => (s, .error f)
      | (s, .ok lb) =>
        match s.walkRead r 3 (a + 16) with
        | (s, .error f) => (s, .error f)
        | (s, .ok pc) =>
          match s.walkRead r 3 (a + 24) with
          | (s, .error f) => (s, .error f)
          | (s, .ok v) =>
            let p := pc % 2 ^ 32
            if v ≠ 1 ∨ 2 ^ 57 ≤ vb ∨ vb % 65536 ≠ 0 ∨ 2 ^ 40 ≤ lb ∨ lb % 65536 ≠ 0 ∨ 2 ^ 17 ≤ p then
              (s, .error (.fault 8 9 3))
            else (s, .ok (vb, lb, p, pc / 2 ^ 32))

/-- A usable TLB entry for an address (R352). -/
def State.tlbFind (s : State) (ctx : BitVec 16) (va : Nat) : Option TlbEntry :=
  s.tlb.find? fun e => e.ctx == ctx && e.vpage == (if e.block then va / 2 ^ 29 else va / 65536)

/-- Whether a leaf permits an access of a kind at a level; otherwise the reason (R348). -/
def leafRefuses (e : Nat) (lvl : Level) (k : AccessKind) : Option Nat :=
  let u := entryBit e 5
  let perm :=
    match k with
    | .fetch => entryBit e 4 && u == (lvl == .u)
    | .load => entryBit e 2
    | .store => entryBit e 3
    | .atomic => entryBit e 2 && entryBit e 3
  if !perm then some 4 else if lvl == .u && !u then some 5 else none

/-- The TLB entry for an access to an address, from the TLB or by a walk that fills it; permission is checked before the
stripe descriptor is read (R348, R352). -/
def State.tlbEntry (s : State) (r : Requester) (xc : XlateCtx) (lvl : Level) (k : AccessKind) (va : Nat) :
    State × Except AccFault TlbEntry :=
  match if va < 2 ^ 57 then s.tlbFind xc.ctxid va else none with
  | some e => (s, .ok e)
  | none =>
    match s.walk r xc va with
    | (s, .error f) => (s, .error f)
    | (s, .ok w) =>
      let block := w.level == 2
      let fill := fun (s : State) (st : Option (Nat × Nat × Nat × Nat)) =>
        let e : TlbEntry :=
          ⟨xc.ctxid, if block then va / 2 ^ 29 else va / 65536, block, BitVec.ofNat 64 w.leaf, st⟩
        ({ s with tlb := e :: s.tlb }, Except.ok (ε := AccFault) e)
      if entryBit w.leaf 9 then
        match leafRefuses w.leaf lvl k with
        | some reason => (s, .error (.fault 8 reason w.level))
        | none =>
          match s.readStripe r xc (w.leaf / 2 ^ 57) with
          | (s, .error f) => (s, .error f)
          | (s, .ok st) => fill s (some st)
      else fill s none

/-- The page kind of a leaf (R347). -/
def leafKind (e : Nat) : PageKind :=
  match e / 64 % 4 with
  | 0 => .rc
  | 1 => .so
  | _ => .un

/-- The physical address of an address under a TLB entry (R225, R348). A striped local address at or above 2^40, for which
the spec gives no result, carries into the package identifier (log entry 32). -/
def tlbPlace (e : TlbEntry) (va : Nat) : Option Nat :=
  match e.stripe with
  | some (vb, lb, p, n) => (stripePlace vb lb p n va).map fun q => q.1 * 2 ^ 40 + q.2
  | none =>
    let a := entryAddr e.leaf.toNat
    some (if e.block then a + va % 2 ^ 29 else a + va % 65536)

/-- Translation of an address for an access at a level (R348): physical address and page kind. -/
def State.translate (s : State) (r : Requester) (xc : XlateCtx) (lvl : Level) (k : AccessKind) (va : Nat) :
    State × Except AccFault (Nat × PageKind) :=
  match s.tlbEntry r xc lvl k va with
  | (s, .error f) => (s, .error f)
  | (s, .ok e) =>
    let lv := if e.block then 2 else 3
    match leafRefuses e.leaf.toNat lvl k with
    | some reason => (s, .error (.fault 8 reason lv))
    | none =>
      match tlbPlace e va with
      | some pa => (s, .ok (pa, leafKind e.leaf.toNat))
      | none => (s, .error (.fault 8 9 3))

/-- The shadow word of a page and the addresses of its live and shadow words (R350): live address, shadow address,
live word, shadow word. A page without a shadow mapping gives reason 0, which names no reason of R349. -/
def State.shadowWords (s : State) (r : Requester) (xc : XlateCtx) (va : Nat) :
    State × Except AccFault (Nat × Nat × Nat × Nat) :=
  match s.walk r xc va with
  | (s, .error f) => (s, .error f)
  | (s, .ok w) =>
    if w.level ≠ 3 ∨ !entryBit w.leaf 8 then (s, .error (.fault 8 0 w.level))
    else
      match s.walkRead r 3 (w.ea + 65536) with
      | (s, .error f) => (s, .error f)
      | (s, .ok sh) => (s, .ok (w.ea, w.ea + 65536, w.leaf, sh))

/-- Translation of a CPY.SH destination through the shadow word, refused as a live one is (R349, R350). -/
def State.translateShadow (s : State) (r : Requester) (xc : XlateCtx) (lvl : Level) (va : Nat) :
    State × Except AccFault (Nat × PageKind) :=
  match s.shadowWords r xc va with
  | (s, .error f) => (s, .error f)
  | (s, .ok (_, _, _, sh)) =>
    if !entryBit sh 0 then (s, .error (.fault 7 1 3))
    else if entryMalformed sh 3 then (s, .error (.fault 7 2 3))
    else if (leafRefuses sh lvl .store).isSome then (s, .error (.fault 8 ((leafRefuses sh lvl .store).getD 4) 3))
    else if entryBit sh 9 then
      match s.readStripe r xc (sh / 2 ^ 57) with
      | (s, .error f) => (s, .error f)
      | (s, .ok (vb, lb, p, n)) =>
        match stripePlace vb lb p n va with
        | some q => (s, .ok (q.1 * 2 ^ 40 + q.2, leafKind sh))
        | none => (s, .error (.fault 8 9 3))
    else (s, .ok (entryAddr sh + va % 65536, leafKind sh))

/-- The current hart as a requester. -/
def State.me (s : State) : Requester := ⟨0, s.hart.xctx.ctxid, s.pkg, s.hart.core⟩

/-- The 64-byte line of an address as 32 words, read for execution at a level (R37, R41). A line changed since the launch
was accepted may be the old or the new one (R41); the model reads home memory as it stands (log entry 31). -/
def State.fetchLine (s : State) (lvl : Level) (line : Nat) : State × Except AccFault (List Nat) :=
  match s.translate s.me s.hart.xctx lvl .fetch line with
  | (s, .error f) => (s, .error f)
  | (s, .ok (pa, kind)) =>
    match s.physRead s.me .fetch pa 64 (if kind = .un then none else some kind) with
    | (s, .bytes bs none) => (s, .ok (wordsOfBytes bs))
    | (s, .bytes _ (some g)) => (s, .error (.ecc g))
    | (s, .noPath) => (s, if s.hart.marks.wait = .remote true then .error (.fault 8 8 3) else .error .noPath)
    | (s, .error) => (s, .error (.fault 8 8 3))

end Sys2Proof.Machine
end

