-- ==== Sys2Proof/Machine/Round.lean ====
section
/-! DEFINITION. Rounds as a whole: finding one, its parties' XSTATUS, completion records and the abort (R279, R293, R303
to R305). -/

namespace Sys2Proof.Machine

/-- The round of a context and identifier. -/
def State.round (s : State) (ctx id : BitVec 16) : Option Round := s.rounds.find? fun r => r.ctx == ctx && r.id == id

/-- A round set. -/
def State.setRound (s : State) (r : Round) : State :=
  { s with rounds := s.rounds.map fun q => if q.ctx = r.ctx ∧ q.id = r.id then r else q }

/-- The bits of XSTATUS.ABORT, SPILL, EXCLOST, ORDSENT and ORDVIOL (R303). -/
def xsOrdViol : Nat := 1
/-- XSTATUS.ORDSENT. -/
def xsOrdSent : Nat := 2
/-- XSTATUS.EXCLOST. -/
def xsExLost : Nat := 4
/-- XSTATUS.ABORT. -/
def xsAbort : Nat := 8
/-- XSTATUS.SPILL. -/
def xsSpill : Nat := 16

/-- Bits of XSTATUS set by a round, with LASTRND (R303). -/
def Hart.setXstatus (h : Hart) (id : BitVec 16) (bits : Nat) : Hart :=
  if bits = 0 then h
  else { h with ctl := { h.ctl with
      xstatus := BitVec.ofNat 64 (id.toNat * 2 ^ 48) ||| (h.ctl.xstatus &&& 0xFFFFFFFFFFFF) ||| BitVec.ofNat 64 bits } }

/-- Whether a hart is a party of a round: the one that opened the role, or for a role not opened the one with the hart number
listed (R278, R295, R304). -/
def State.isParty (s : State) (ctx : BitVec 16) (n : Nat) (owner : Option Nat) (h : Hart) : Bool :=
  h.xctx.ctxid == ctx && !h.marks.halted &&
    match owner with
    | some k => h.ident.serial == k
    | none => s.hartNumber h == n

/-- Every hart of a context changed, placed or saved with its launch. -/
def State.mapContext (s : State) (ctx : BitVec 16) (f : Hart → Hart) : State :=
  let g := fun (h : Hart) => if h.xctx.ctxid = ctx then f h else h
  { s.mapHarts g with sched := { s.sched with launches := s.sched.launches.map fun l =>
      if l.ctxid = ctx then { l with savedHarts := l.savedHarts.map f } else l } }

/-- A party of a round changed wherever it is: placed, or saved with its launch (R295). -/
def State.mapParty (s : State) (ctx : BitVec 16) (n : Nat) (owner : Option Nat) (f : Hart → Hart) : State :=
  s.mapContext ctx fun h => if s.isParty ctx n owner h then f h else h

/-- A party of a round, placed or saved (R295). -/
def State.party (s : State) (ctx : BitVec 16) (n : Nat) (owner : Option Nat) : Option Hart :=
  match s.placed.find? (s.isParty ctx n owner) with
  | some h => some h
  | none =>
    s.sched.launches.findSome? fun l => if l.ctxid = ctx then l.savedHarts.find? (s.isParty ctx n owner) else none

/-- Whether a hart number names a hart of a context: one of this package, or one of a present package (R295, R344). -/
def State.partyPresent (s : State) (ctx : BitVec 16) (n : Nat) : Bool :=
  if n / 1024 = s.pkg.toNat then (s.party ctx n none).isSome
  else ((assocGet s.store.peers (n / 1024)).map fun p => p.harts.contains (ctx, n)).getD false

/-- A completion record kept: the latest 8 of the context (R293). -/
def State.keepCompletion (s : State) (c : Completion) : State :=
  let mine := (c :: s.completions.filter fun q => q.ctx == c.ctx).take 8
  { s with completions := mine ++ s.completions.filter fun q => q.ctx != c.ctx }

/-- The completion record kept for a round. -/
def State.completion (s : State) (ctx id : BitVec 16) : Option Completion :=
  s.completions.find? fun c => c.ctx == ctx && c.id == id

/-- The round a posted instruction names: x[S1] or x[S2] [15:0] (R294). -/
def VEntry.roundId (e : VEntry) : BitVec 16 := e.x0.setWidth 16

/-- Whether an instruction may wait in a round (R297, R299 to R301). -/
def waitsInRound : VInstr → Bool
  | .xsend _ _ => true
  | .xclose _ => true
  | .xfloor _ => true
  | .xrecv _ => true
  | .xsplit _ => true
  | _ => false

/-- The exchange instruction of a hart that waits in an aborted round is to end (R305). -/
def Hart.endRoundWait (id : BitVec 16) (h : Hart) : Hart :=
  { h with viq := h.viq.map fun q =>
      if q.e.begun && !q.e.complete && waitsInRound q.e.instr && q.e.roundId == id then
        { q with e := { q.e with aborted := true } }
      else q }

/-- A round aborted (R305): its records are discarded, what waits in it ends, and every party's XSTATUS.ABORT is set. -/
def State.abortRound (s : State) (r : Round) : State :=
  if r.state = .aborted then s
  else
    let dead : Round :=
      { r with state := .aborted, points := [], samples := []
               receivers := r.receivers.map fun q => { q with fifo := [], exceptions := [] } }
    let s := ((s.setRound dead).keepCompletion
      ⟨r.ctx, r.id, false, r.desc.sampling, r.receivers.length, 0, []⟩).mapContext r.ctx (Hart.endRoundWait r.id)
    ((r.senders.map fun q => (q.hart, q.owner)) ++ r.receivers.map fun q => (q.hart, q.owner)).foldl
      (fun t p => t.mapParty r.ctx p.1 p.2 fun h => h.setXstatus r.id xsAbort) s

/-- Whether a hart has opened a role in a round that is not IDLE (R304): itself, not another that now has its hart number. -/
def Round.holds (r : Round) (h : Hart) : Bool :=
  r.ctx == h.xctx.ctxid &&
    ((r.senders.any fun q => q.opened && q.owner == some h.ident.serial) ||
      r.receivers.any fun q => q.opened && q.owner == some h.ident.serial)

/-- Every round in which a hart holds a role aborted (R304). -/
def State.abortRoundsOf (s : State) (h : Hart) : State :=
  s.rounds.foldl (fun t r => if r.holds h then t.abortRound r else t) s

end Sys2Proof.Machine
end

