-- ==== Sys2Proof/Machine/Ops.lean ====
section
/-! DEFINITION. The named operations over registers, the program counter, strips, memory and traps: every meaning is
written with these. Taking an exception (R371, R373) and returning from one (R374) stand here. -/

namespace Sys2Proof.Machine

/-! ### Scalar registers -/

/-- Scalar register `r`; x0 reads 0 (R47). -/
def Hart.readX (h : Hart) (r : XReg) : Word := if r = 0 then 0 else h.scalar.x[r]

/-- Scalar register `r` written; x0 ignores writes (R47). -/
def Hart.writeX (h : Hart) (r : XReg) (v : Word) : Hart :=
  if r = 0 then h
  else { h with
    scalar := { h.scalar with x := h.scalar.x.set r v }
    marks := { h.marks with badRegs := h.marks.badRegs.filter fun b => b != .scalarRegister h.ident.id r } }

/-- x[r] of the current hart. -/
def State.x (s : State) (r : XReg) : Word := s.hart.readX r

/-- x[r] of the current hart written. -/
def State.setX (s : State) (r : XReg) (v : Word) : State := s.withHart fun h => h.writeX r v

/-- The sequence number of the newest VIQ entry of a hart, the last one given when nothing is posted. -/
def Hart.newest (h : Hart) : Nat := (h.viq.getLast?.map fun e => e.e.seq).getD (h.nextSeq - 1)

/-- The VIQ entry that a history entry follows. -/
def HistItem.after : HistItem → Nat
  | .x n _ _ => n
  | .calls n _ _ => n
  | .csr n _ _ => n

/-- A history-buffer entry recorded while the VIQ holds an instruction (R9). -/
def Hart.record (h : Hart) (i : Nat → HistItem) : Hart :=
  if h.viq.isEmpty then h else { h with hist := h.hist ++ [i h.newest] }

/-- x[r] written by a scalar instruction, its prior value recorded (R9). -/
def State.writeX (s : State) (r : XReg) (v : Word) : State :=
  s.withHart fun h => (h.record fun n => .x n r (h.readX r)).writeX r v

/-! ### The program counter -/

/-- SLOT of a program counter (R42). -/
def pcSlot (pc : Word) : Nat := pc.toNat % 32

/-- The line address of a program counter (R42). -/
def pcLine (pc : Word) : Nat := pc.toNat % 2 ^ 57 / 64 * 64

/-- A program counter of a line address and a slot; line arithmetic is modulo 2^57 (R42). -/
def mkPc (line slot : Nat) : Word := BitVec.ofNat 64 (line % 2 ^ 57 / 64 * 64 + slot % 32)

/-- Whether a program counter has a reserved bit set (R42, R45). -/
def pcReserved (pc : Word) : Bool := decide (2 ^ 57 ≤ pc.toNat) || pc.getLsbD 5

/-- The program counter that follows an instruction by R43, given N of its line. -/
def pcNext (pc : Word) (heads : Nat) : Word :=
  if pcSlot pc + 1 < heads then mkPc (pcLine pc) (pcSlot pc + 1) else mkPc (pcLine pc + 64) 0

/-- The program counter after the current instruction (R43). -/
def Hart.nextPc (h : Hart) : Word := pcNext h.scalar.pc h.scalar.lineHeads

/-- The target of a transfer with a signed line offset (R44). -/
def relTarget (pc : Word) (loff : Int) (slot : Nat) : Word :=
  mkPc (((pcLine pc : Int) + 64 * loff) % (2 ^ 57 : Nat)).toNat slot

/-- The hart continues at `pc`; it is in no wait, and VRESUME reads 0 once the instruction at TPC is past (R22). -/
def Hart.goto (h : Hart) (pc : Word) : Hart :=
  { h with
    scalar := { h.scalar with pc := pc }
    v := { h.v with
      vresume := if h.marks.resuming then 0 else h.v.vresume
      vresumeAt := if h.marks.resuming then none else h.v.vresumeAt }
    marks := { h.marks with wait := .none, resuming := false, pmaskLive := false } }

/-- A scalar instruction complete: it counts in INSTRET and the hart continues by R43. -/
def State.advance (s : State) : State :=
  s.withHart fun h => { h.goto h.nextPc with scalar := { (h.goto h.nextPc).scalar with instret := h.scalar.instret + 1 } }

/-- A scalar transfer complete: it counts in INSTRET and the hart continues at `target`. -/
def State.jump (s : State) (target : Word) : State :=
  s.withHart fun h => { h.goto target with scalar := { (h.goto target).scalar with instret := h.scalar.instret + 1 } }

/-- The instruction does not issue in this step; it is tried again after the vector unit has moved (R8 to R10, log
entry 25). -/
def State.stall (s : State) : State :=
  s.withHart fun h => { h with marks := { h.marks with wait := .vector } }

/-- The hart blocks in a wait; the instruction is tried again when it wakes (R276). -/
def State.block (s : State) (w : Wait) : State :=
  s.withHart fun h => { h with marks := { h.marks with wait := w } }

/-! ### The strip store buffer and commits -/

/-- A committed store reaches memory; an unordered store to another package waits for its release (R221, R237). -/
def State.performStore (s : State) (e : StoreEntry) : State :=
  if e.kind = .un ∧ paPkg e.pa ≠ s.pkg.toNat then
    { s with store := { s.store with far := { s.store.far with
        pendingUn := s.store.far.pendingUn ++ [(s.hart.ident.key, e.pa, e.bytes)] } } }
  else s.physWrite s.me e.pa e.bytes

/-- A strip that has not committed, by its number (R24). -/
def Hart.stripOf (h : Hart) (id : Nat) : Option Strip := (h.strip.toList ++ h.closing).find? fun t => t.id == id

/-- The number of the open strip, 0 when none is open. -/
def Hart.stripId (h : Hart) : Nat := (h.strip.map fun t => t.id).getD 0

/-- One strip that has not committed, changed. -/
def Hart.mapStrip (h : Hart) (id : Nat) (f : Strip → Strip) : Hart :=
  let g := fun (t : Strip) => if t.id = id then f t else t
  { h with strip := h.strip.map g, closing := h.closing.map g }

/-- The sequence number of the oldest VIQ entry, or of the next one when nothing is posted. -/
def Hart.oldest (h : Hart) : Nat := (h.viq.head?.map fun q => q.e.seq).getD h.nextSeq

/-- The open strip closes; it commits when the entries posted within it have retired (R24). -/
def Hart.closeStrip (h : Hart) (byTimer : Bool) : Hart :=
  match h.strip with
  | some t => { h with strip := none, closing := h.closing ++ [{ t with closedAt := h.newest, byTimer := byTimer }] }
  | none => h

/-- Every strip that has closed is sealed: no rewind crosses what comes now (R24, R384). -/
def Hart.sealStrips (h : Hart) : Hart := { h with closing := h.closing.map fun t => { t with sealed := true } }

/-- Whether a buffered store is visible by now: every entry it follows has retired, and its strip has committed
(R24, R238). -/
def Hart.visible (h : Hart) (e : StoreEntry) : Bool := decide (e.after < h.oldest) && (h.stripOf e.strip).isNone

/-- The buffered stores that are due become visible, in order (R238, log entry 5). -/
def State.flushStores (s : State) : State :=
  let es := s.hart.sbuf.filter s.hart.visible
  let t := es.foldl State.performStore s
  t.withHart fun h => { h with sbuf := h.sbuf.filter fun e => !s.hart.visible e }

/-- Strips whose entries have all retired are committed, and the stores that are due become visible (R24, R238). -/
def State.settleStores (s : State) : State :=
  (s.withHart fun h => { h with closing := h.closing.filter fun t => decide (h.oldest ≤ t.closedAt) }).flushStores

/-- The open strip commits and is sealed: at once with an empty VIQ, else when the entries posted within it have retired
(R24, R384). -/
def State.commit (s : State) : State := (s.withHart fun h => (h.closeStrip false).sealStrips).settleStores

/-- The open strip commits as its time is up (R24). -/
def State.commitByTimer (s : State) : State := (s.withHart fun h => (h.closeStrip true).sealStrips).settleStores

/-- The strip of the oldest VIQ entry commits at that entry (R24): every entry before it has retired. -/
def State.commitEntry (s : State) (e : VEntry) : State :=
  (s.withHart fun h =>
    { h with
      strip := h.strip.filter fun t => t.id != e.strip
      closing := h.closing.filter fun t => t.id != e.strip }).settleStores

/-- The hart's uncommitted stores are discarded; those of a sealed strip stand (R373, R389, R401). -/
def Hart.discardStores (h : Hart) : Hart :=
  { h with sbuf := h.sbuf.filter fun e => (h.stripOf e.strip).isNone, strip := none, closing := [] }

/-! ### Traps -/

/-- What a trap writes (R369, R375). -/
structure Trap where
  cause : Nat
  tval : Word
  sub : Nat
  pc : Word
  xlinfo : Option Nat
  vresume : Option Nat
deriving DecidableEq, Repr

/-- TVAL of cause 0x01 (R56). -/
def illegalTval (r : IllegalReason) (word : Nat) : Word := BitVec.ofNat 64 (r.code * 65536 + word % 65536)

/-- XLINFO of a fault (R349). -/
def mkXlinfo (acc reason level : Nat) : Nat := acc * 256 + reason * 16 + level

/-- Whether a target is illegal at a level (R45): a reserved bit, or a slot at or above N of a line that can be fetched and is
well formed. A line whose fetch faults leaves the target legal, and the refusal is recorded at the fetch itself (R360); one
that cannot be read for an error or a missing path gives no answer (R380, R391). -/
def State.targetIllegal (s : State) (lvl : Level) (target : Word) : State × Except AccFault Bool :=
  if pcReserved target then (s, .ok true)
  else
    match s.fetchLine lvl (pcLine target) with
    | (_, .error (.fault _ _ _)) => (s, .ok false)
    | (t, .error f) => (t, .error f)
    | (t, .ok words) => (t, .ok ((lineError words).isNone && decide (lineHeadCount words ≤ pcSlot target)))

/-- A hart told of its launch's removal (R206, R389): its VIQ is empty of effects, its recheck entries are freed, and it takes cause 0x1B unless it is the
writer; a hart in a handler stops. -/
def Hart.removeMark (writer : Option HartId) (cause : BitVec 8) (h : Hart) : Hart :=
  let h := { h with
    ctl := { h.ctl with vlgcapEn := false }
    viq := h.viq.map fun q => { q with r := { q.r with phase := .off } }
    marks := { h.marks with removed := true } }
  if some h.ident.id = writer then h
  else if h.trap.inTrap then
    { h.discardStores with viq := [], hist := [], marks := { h.marks with stopped := true, wait := .none } }
  else { h with marks := { h.marks with kill := some cause } }

/-- Every round in which a hart of a launch holds a role, placed or saved, aborted (R304). -/
def State.abortLaunchRounds (s : State) (seq : Nat) : State :=
  let saved := ((s.launch seq).map fun l => l.savedHarts).getD []
  ((s.placed.filter fun h => h.ident.seq == seq) ++ saved).foldl
    State.abortRoundsOf s

/-- What a stopped hart leaves that is due becomes visible (R238, R389). -/
def State.settleStopped (s : State) : State := if s.hart.marks.stopped then s.settleStores else s

/-- The first of the other harts settled, if it has stopped, and put behind the rest. -/
def State.settleNext (s : State) : State :=
  match s.others with
  | [] => s
  | k :: rest =>
    let t := ({ s with hart := k, others := rest }).settleStopped
    { t with hart := s.hart, others := t.others ++ [t.hart] }

/-- `n` of the other harts settled, if they have stopped. -/
def State.settleOthers : Nat → State → State
  | 0, s => s
  | n + 1, s => State.settleOthers n s.settleNext

/-- Every stopped hart settled. -/
def State.settleAll (s : State) : State := State.settleOthers s.others.length s.settleStopped

/-- The removal of a launch begins (R389): steps 1 to 3 and the abort of its rounds, held while a power-fail window is
open. -/
def State.beginRemoval (s : State) (seq : Nat) (cause : BitVec 8) (begun writer : Option HartId) : State :=
  let cause := if cause = 0 then 0x1B else cause
  let s := s.updateLaunch seq fun l =>
    if l.removal.isSome then l else { l with removal := some (cause, begun) }
  if s.power.window then s
  else
    let s := s.abortLaunchRounds seq
    let s := s.updateLaunch seq fun l =>
      { l with
        phase := .removing, savedHarts := []
        record := if l.phase = .queued then { l.record with stages := [] } else l.record }
    (s.mapHarts fun h =>
      if h.ident.seq = seq && !h.marks.halted && !h.marks.removed then h.removeMark writer cause else h).settleAll

/-- A double trap (R373): the hart stops without a handler, its uncommitted stores are discarded, and its launch is
removed with the new cause. -/
def State.doubleTrap (s : State) (cause : Nat) : State :=
  let id := s.hart.ident.id
  let s := s.withHart fun h =>
    { h.discardStores with viq := [], hist := [], marks := { h.marks with stopped := true, wait := .none } }
  let s := s.settleStores
  s.beginRemoval s.hart.ident.seq (BitVec.ofNat 8 cause) (some id) (some id)

/-- The trap CSRs of a trap taken (R371). -/
def TrapCsrs.take (c : TrapCsrs) (lvl : Level) (t : Trap) : TrapCsrs :=
  { c with
    sub := BitVec.ofNat 4 t.sub
    cause := BitVec.ofNat 8 t.cause
    tpc := t.pc
    tval := t.tval
    spl := lvl == .s
    inTrap := true
    pmask := t.cause == 9
    xlinfo := (t.xlinfo.map fun n => BitVec.ofNat 12 n).getD c.xlinfo }

/-- The hart enters its handler (R371 step 4). -/
def Hart.enterHandler (h : Hart) (t : Trap) : Hart :=
  { h with
    scalar := { h.scalar with pc := h.trap.tvec, level := .s }
    trap := h.trap.take h.scalar.level t
    v := { h.v with vresume := t.vresume.getD h.v.vresume }
    marks := { h.marks with wait := .none, resuming := false, pmaskLive := false } }

/-- Taking an exception (R371, R373): a double trap, or the strip commits, the trap CSRs are written, and the hart
continues at TVEC at S. Every older VIQ entry has retired. A line at TVEC that cannot be read for an error or a missing path is
left to the handler's first fetch (log entry 62). -/
def State.enterTrap (s : State) (t : Trap) : State :=
  if s.hart.trap.inTrap then s.doubleTrap t.cause
  else
    match s.targetIllegal .s s.hart.trap.tvec with
    | (s, .ok true) => s.doubleTrap t.cause
    | (s, _) => s.commit.withHart fun h => h.enterHandler t

/-- A synchronous trap of a scalar instruction: taken once the VIQ is empty (R371 step 1). -/
def State.takeTrap (s : State) (t : Trap) : State := if s.hart.viq.isEmpty then s.enterTrap t else s.stall

/-- A trap whose TPC addresses the instruction itself. -/
def State.trap (s : State) (cause : Nat) (tval : Word) : State :=
  s.takeTrap ⟨cause, tval, 0, s.hart.scalar.pc, none, none⟩

/-- A trap whose TPC addresses the instruction that follows, which has completed (R111, R144). -/
def State.trapAfter (s : State) (cause : Nat) (tval : Word) : State :=
  if s.hart.viq.isEmpty then
    let s := s.withHart fun h => { h with scalar := { h.scalar with instret := h.scalar.instret + 1 } }
    s.enterTrap ⟨cause, tval, 0, s.hart.nextPc, none, none⟩
  else s.stall

/-- An illegal instruction: cause 0x01 with the reason and the word (R56). -/
def State.illegal (s : State) (r : IllegalReason) (word : Nat) : State := s.trap 0x01 (illegalTval r word)

/-! ### Strip rewind and machine checks -/

/-- TVAL of cause 0x18 (R381). -/
def checkTval (src : Nat) (sealed again : Bool) (pa : Nat) : Word :=
  BitVec.ofNat 64 (src * 2 ^ 60 + bit01 sealed * 2 ^ 59 + bit01 again * 2 ^ 58 + pa)

/-- Vector register keys in a VRF: register, row and byte (log entry 12). -/
def vkey (r row byte : Nat) : Nat := r * 2 ^ 48 + row * 2 ^ 24 + byte

/-- One carried register restored from its shadow (R385). -/
def restoreShadow (vrf : Mem) (p : VReg × Mem) : Mem := memRestore vrf p.2 (vkey p.1.val 0 0) (vkey (p.1.val + 1) 0 0)

/-- The address of a mask position in the mask file. -/
def mkey (m p : Nat) : Nat := m * 2 ^ 24 + p

/-- A register file with one mask register restored. -/
def restoreMask (masks : Mem) (p : MReg × Mem) : Mem := memRestore masks p.2 (mkey p.1.val 0) (mkey (p.1.val + 1) 0)

/-- One stream slot set. -/
def Hart.setStream (h : Hart) (i : Fin 4) (q : Option StreamSlot) : Hart := { h with streams := h.streams.set i q }

/-- Pops returned to their streams when the instruction does not complete (R263). -/
def Hart.unpop (h : Hart) : List (Fin 4 × Nat) → Hart
  | [] => h
  | (i, p) :: rest =>
    (match h.streams[i] with
    | some q => h.setStream i (some { q with pos := p, fetched := [], again := true })
    | none => h).unpop rest

/-- What an entry has written, taken back: its destinations hold their prior contents, and its pops are returned
(R11, R205, R263). -/
def Hart.takeBack (h : Hart) (q : VSlot) : Hart :=
  { h.unpop q.r.pops with
    vrf := q.r.prior.foldl restoreShadow h.vrf
    masks := match q.r.priorMask with
      | some p => restoreMask h.masks p
      | none => h.masks
    marks := { h.marks with badRegs := h.marks.badRegs ++ q.r.priorBad } }

/-- What a list of entries has written, taken back newest first (R11). -/
def Hart.takeBackAll (h : Hart) (qs : List VSlot) : Hart := qs.foldr (fun q h => h.takeBack q) h

/-- Stream positions restored from a checkpoint; fetched elements are fetched again (R263, R385). -/
def restorePositions (ss : Vector (Option StreamSlot) 4) (ps : List (Option Nat)) : Vector (Option StreamSlot) 4 :=
  Vector.ofFn fun i => ss[i].map fun q => { q with pos := ((ps.getD i.val none).getD q.pos), fetched := [], again := true }

/-- Vector registers that hold new contents hold no error that cannot be corrected (R380). -/
def Hart.cleanRegs (h : Hart) (rs : List VReg) : Hart :=
  { h with marks := { h.marks with badRegs := h.marks.badRegs.filter fun b =>
      !(rs.any fun r => b == .vectorRegister h.ident.id r) } }

/-- The rewind of a strip (R385); `g` is the granule of the error, `pc` the instruction without a majority, `now` the
cycle its auto-close count starts at. Younger strips and their work go with it. -/
def Hart.rewind (h : Hart) (t : Strip) (g : Option Nat) (pc : Option Word) (now : Nat) : Hart :=
  let h := { h.takeBackAll (h.viq.filter fun q => decide (t.id < q.e.seq)) with
    viq := h.viq.filter fun q => decide (q.e.seq ≤ t.id)
    hist := h.hist.filter fun i => decide (i.after < t.id)
    sbuf := h.sbuf.filter fun e => decide (e.after < t.id)
    closing := h.closing.filter fun k => decide (k.id < t.id) }
  let h := (t.regs.foldl (fun k p => k.writeX p.1 p.2) h).cleanRegs (t.shadows.map fun p => p.1)
  let h := match t.opener with
    | some d => h.writeX d (BitVec.ofNat 64 t.vl)
    | none => h
  { h with
    scalar := { h.scalar with pc := t.resume }
    v := { h.v with vl := t.vl, vrows := t.vrows, vresume := 0, vresumeAt := none }
    vrf := t.shadows.foldl restoreShadow h.vrf
    streams := restorePositions h.streams t.positions
    ctl := { h.ctl with rewinds := if h.ctl.rewinds = 0xFFFF then 0xFFFF else h.ctl.rewinds + 1 }
    strip := some { t with
      shadows := [], rewinds := t.rewinds + 1, errGranule := g, noMajority := t.noMajority ++ pc.toList,
      since := now, closedAt := 0, sealed := false, byTimer := false }
    marks := { h.marks with wait := .none, resuming := false, pmaskLive := false } }

/-- Whether a further rewind of a strip escalates (R386): the same granule again, or four rewinds. -/
def Strip.escalates (t : Strip) (g : Option Nat) : Bool := decide (4 ≤ t.rewinds) || (g.isSome && t.errGranule == g)

/-- A strip of the current hart rewound (R385); what waited only for the work that is gone is as if that had never been
posted. -/
def State.rewindTo (s : State) (t : Strip) (g : Option Nat) (pc : Option Word) : State :=
  (s.withHart fun h => h.rewind t g pc s.cycle).settleStores

/-- The granule that stands for the strip store buffer of a hart: no physical address has it. -/
def bufferGranule : Nat := 2 ^ 57

/-- The strip store buffer holds no error any more. -/
def Hart.cleanBuffer (h : Hart) : Hart :=
  { h with marks := { h.marks with badRegs := h.marks.badRegs.filter fun b => b != .storeBuffer h.ident.id } }

/-- An uncorrectable error consumed (R380, R386): the strip that covers the state is rewound, or cause 0x18 is taken by
`trap` with the TVAL of R381. `g` is the granule for memory; `strip` is the consuming instruction's strip, none where no
strip covers the state, as none covers the strip store buffer. -/
def State.consumeError (s : State) (src : Nat) (g : Option Nat) (strip : Option Strip) (trap : Word → State → State) :
    State :=
  let pa := (g.map fun q => q * 32).getD 0
  let s := match g with
    | some q => s.dropTransient q
    | none => s
  if g = some bufferGranule then trap (checkTval 6 true false 0) (s.withHart Hart.cleanBuffer)
  else match strip with
  | some t =>
    if t.sealed then trap (checkTval src true false pa) s
    else if t.escalates g then trap (checkTval src false true pa) s
    else s.rewindTo t g none
  | none => trap (checkTval src true false pa) s

/-- SRC of R381 for a granule of memory. -/
def State.granuleSrc (s : State) (g : Nat) : Nat :=
  if s.store.transient.contains g then 4
  else
    match region (paLocal (g * 32)) with
    | .bulk _ => 1
    | .near _ => 2
    | _ => 3

/-- The trap, machine check, rewind or wait that an access failure of a scalar instruction leads to (R101, R380,
R391). -/
def State.accessFault (s : State) (k : AccessKind) (va : Word) (f : AccFault) : State :=
  match f with
  | .fault c reason lv =>
    s.takeTrap ⟨c, va, k.acc, s.hart.scalar.pc, some (mkXlinfo k.acc reason lv), none⟩
  | .ecc g =>
    if s.hart.viq.isEmpty then s.consumeError (s.granuleSrc g) (some g) s.hart.strip fun v t => t.trap 0x18 v else s.stall
  | .noPath => s.block (.remote false)

/-- An access of a scalar instruction that failed and left state `t`: while older VIQ entries are posted it is as if it
had not been made (R371), else what its failure leads to. -/
def State.failing (s t : State) (k : AccessKind) (va : Word) (f : AccFault) : State :=
  if s.hart.viq.isEmpty then t.accessFault k va f
  else
    match f with
    | .noPath => t.accessFault k va f
    | _ => s.stall

/-! ### Memory of the current hart -/

/-- Translation of an address of the current hart at a level (R346 to R348). -/
def State.locateAt (s : State) (lvl : Level) (k : AccessKind) (va : Word) : State × Except AccFault (Nat × PageKind) :=
  s.translate s.me s.hart.xctx lvl k va.toNat

/-- Translation of an address of the current hart (R346 to R348). -/
def State.locate (s : State) (k : AccessKind) (va : Word) : State × Except AccFault (Nat × PageKind) :=
  s.locateAt s.hart.scalar.level k va

/-- Whether a read takes bytes from a strip store buffer that holds an error (R380). -/
def Hart.readsBadBuffer (h : Hart) (pa n upTo : Nat) : Bool :=
  h.marks.badRegs.contains (.storeBuffer h.ident.id) &&
    h.sbuf.any fun e => decide (e.after < upTo) && decide (e.pa < pa + n) && decide (pa < e.pa + e.bytes.length)

/-- Bytes at a physical address as the current hart sees them: its own buffered stores that precede VIQ entry `upTo`
first (R25, R93). -/
def State.readAt (s : State) (k : AccessKind) (pa n : Nat) (kind : PageKind) (upTo : Nat) :
    State × Except AccFault (List Byte) :=
  match s.physRead s.me k pa n (some kind) with
  | (s, .bytes bs none) =>
    if s.hart.readsBadBuffer pa n upTo then (s, .error (.ecc bufferGranule))
    else (s, .ok (overlay pa bs ((s.hart.sbuf.filter fun e => decide (e.after < upTo)).map fun e => (e.pa, e.bytes))))
  | (s, .bytes _ (some g)) => (s, .error (.ecc g))
  | (s, .error) => (s, .error (.fault 8 8 3))
  | (s, .noPath) => (s, if s.hart.marks.wait = .remote true then .error (.fault 8 8 3) else .error .noPath)

/-- Whether a store of the current hart at a physical address is accepted (R359). -/
def State.checkAt (s : State) (k : AccessKind) (pa : Nat) : State × Except AccFault Unit :=
  match s.physCheck s.me k pa with
  | (s, .bytes _ _) => (s, .ok ())
  | (s, .error) => (s, .error (.fault 8 8 3))
  | (s, .noPath) => (s, if s.hart.marks.wait = .remote true then .error (.fault 8 8 3) else .error .noPath)

/-- Bytes held in a strip store buffer. -/
def bufferedBytes (es : List StoreEntry) : Nat := (es.map fun e => e.bytes.length).sum

/-- Whether a store of `n` bytes would overflow the strip store buffer (R24). -/
def Hart.wouldOverflow (h : Hart) (n : Nat) : Bool := decide (65536 < bufferedBytes h.sbuf + n)

/-- A store entry in program order: before the stores of scalar instructions that follow its VIQ entry. -/
def insertStore (e : StoreEntry) : List StoreEntry → List StoreEntry
  | [] => [e]
  | f :: rest => if e.after < f.after then e :: f :: rest else f :: insertStore e rest

/-- A scalar store enters the strip store buffer, or goes straight to memory when the strip is sealed and nothing is
posted (R24, R101, R238). -/
def State.bufferStore (s : State) (va : Word) (pa : Nat) (bs : List Byte) (kind : PageKind) : State :=
  let e : StoreEntry := ⟨pa, bs, kind, s.hart.newest, s.hart.stripId, s.hart.xctx.ctxid, va.toNat⟩
  if s.hart.strip.isSome || !s.hart.viq.isEmpty then s.withHart fun h => { h with sbuf := h.sbuf ++ [e] }
  else s.performStore e

/-- A scalar store at a checked physical address: an SO store is performed at once (R236); a buffer that would
overflow commits first (R24). -/
def State.writeAt (s : State) (va : Word) (pa : Nat) (bs : List Byte) (kind : PageKind) : State :=
  if kind = .so then s.physWrite s.me pa bs
  else (if s.hart.wouldOverflow bs.length then s.commit else s).bufferStore va pa bs kind

/-- A store of the oldest VIQ entry at a checked physical address (R139). -/
def State.writeVector (s : State) (q : VEntry) (va : Word) (pa : Nat) (bs : List Byte) (kind : PageKind) : State :=
  if kind = .so then s.physWrite s.me pa bs
  else
    (if s.hart.wouldOverflow bs.length then s.commitEntry q else s).withHart fun h =>
      { h with sbuf := insertStore ⟨pa, bs, kind, q.seq - 1, q.strip, h.xctx.ctxid, va.toNat⟩ h.sbuf }

/-- Whether an address is aligned for an access of `n` bytes. -/
def aligned (va : Word) (n : Nat) : Bool := va.toNat % n == 0

/-- Whether a posted instruction stores to memory. -/
def storesMemory : VInstr → Bool
  | .vst _ _ => true
  | .vstx _ _ => true
  | .vamo _ _ => true
  | .xsplit _ => true
  | _ => false

/-- Whether a posted instruction acquires when it retires (R241, R244, R271). -/
def acquires : VInstr → Bool
  | .vamo _ o => o.ord == .aq || o.ord == .ar
  | .xrecv _ => true
  | .cmwait _ => true
  | .cmtest _ => true
  | _ => false

/-- Whether a posted instruction loads from memory: vector loads, images, and what is read through descriptors (R93, R186, R258,
R295). -/
def loadsMemory : VInstr → Bool
  | .vld _ _ => true
  | .vldx _ => true
  | .vldff _ => true
  | .wbld _ => true
  | .stra _ _ => true
  | .xround _ => true
  | _ => false

/-- Whether a vector access is outstanding that a younger scalar load must not overtake at a byte of both: a store, or a load
that has still to read (R93, R230). The load waits whichever bytes they have (log entry 76). -/
def Hart.accessPosted (h : Hart) : Bool := h.viq.any fun q => storesMemory q.e.instr || (loadsMemory q.e.instr && !q.e.complete)

/-- Whether an acquire is outstanding: younger loads and stores of the hart follow it (R230, R271). -/
def Hart.acquirePosted (h : Hart) : Bool := h.viq.any fun e => acquires e.e.instr

/-- The error of a strip store buffer consumed: always cause 0x18 (R380, R381). -/
def State.bufferError (s : State) : State :=
  if s.hart.viq.isEmpty then s.consumeError 6 (some bufferGranule) none fun v t => t.trap 0x18 v else s.stall

/-- Whether the strip store buffer of the current hart holds an error and a store (R380). -/
def State.badBuffer (s : State) : Bool :=
  s.hart.marks.badRegs.contains (.storeBuffer s.hart.ident.id) && !s.hart.sbuf.isEmpty

/-- What an instruction does that commits its strip when `closes` says so: an error in the strip store buffer is consumed before
the faults of the instruction's own accesses (R376, R380). -/
def State.committing (s : State) (closes : Bool) (k : State → State) : State :=
  if closes && s.badBuffer then s.bufferError else k s

/-- A scalar load (R101): alignment, translation, the SO rule of R236, then `k` with the value. -/
def State.load (s : State) (va : Word) (n : Nat) (k : Nat → State → State) : State :=
  if !aligned va n then s.trap 0x06 va
  else if s.hart.accessPosted || s.hart.acquirePosted then s.stall
  else
    match s.locate .load va with
    | (t, .error f) => s.failing t .load va f
    | (t, .ok (pa, kind)) =>
      if kind = .so ∧ !s.hart.viq.isEmpty then s.stall
      else
        t.committing (kind == .so) fun t =>
          let t := if kind = .so then t.commit else t
          match t.readAt .load pa n kind (s.hart.newest + 1) with
          | (u, .error f) => s.failing u .load va f
          | (u, .ok bs) => k (leNat bs) u

/-- A scalar store (R101): alignment, translation, access check, the SO rule of R236, then `k`. -/
def State.storeTo (s : State) (va : Word) (bs : List Byte) (k : State → State) : State :=
  if !aligned va bs.length then s.trap 0x06 va
  else if s.hart.acquirePosted then s.stall
  else
    match s.locate .store va with
    | (t, .error f) => s.failing t .store va f
    | (t, .ok (pa, kind)) =>
      if (kind = .so ∨ s.hart.wouldOverflow bs.length) ∧ !s.hart.viq.isEmpty then s.stall
      else
        t.committing (kind == .so || s.hart.wouldOverflow bs.length) fun t =>
          match t.checkAt .store pa with
          | (u, .error f) => s.failing u .store va f
          | (u, .ok ()) =>
            let u := if kind = .so then u.commit else u
            k (u.writeAt va pa bs kind)

/-- A store that belongs to a call-stack spill or a queue (RC order): `bs` inside one line. A failure is given to
`bad` with the address. -/
def State.storeBlock (s : State) (va : Word) (bs : List Byte) (bad : AccFault → State → State) (k : State → State) :
    State :=
  match s.locate .store va with
  | (s, .error f) => bad f s
  | (s, .ok (pa, kind)) =>
    match s.checkAt .store pa with
    | (s, .error f) => bad f s
    | (s, .ok ()) => k (s.writeAt va pa bs kind)

/-- A load inside one line at RC order; a failure is given to `bad`. -/
def State.loadBlock (s : State) (va : Word) (n : Nat) (bad : AccFault → State → State) (k : List Byte → State → State) :
    State :=
  match s.locate .load va with
  | (s, .error f) => bad f s
  | (s, .ok (pa, kind)) =>
    match s.readAt .load pa n kind (s.hart.newest + 1) with
    | (s, .error f) => bad f s
    | (s, .ok bs) => k bs s

/-! ### Issue -/

/-- Whether the current hart's core runs a class: its capabilities, and for an in-field test kernel the class that it tests (log
entry 40). -/
def State.capable (s : State) (cls : Nat) : Bool :=
  (s.core s.hart.core).cap.getLsbD cls || (s.hart.marks.test.map fun t => t.1.val == cls).getD false

/-- Steps 4 and 5 of R56 (R196, R362): the use mask at U, then the core's capabilities. -/
def State.classed (s : State) (cls : Nat) (k : State → State) : State :=
  if s.hart.scalar.level = .u ∧ !s.hart.ctl.usemask.getLsbD cls then s.trap 0x04 (BitVec.ofNat 64 cls)
  else if !s.capable cls then s.trap 0x03 (BitVec.ofNat 64 cls)
  else k s

/-- The scalar register that a posted instruction will write (R10, R142): D of VMVXS, MCNT, MANY, MFST, STRPOS, XSTAT,
XSPLIT and CMTEST, and the count destinations. -/
def scalarDest : VInstr → Option XReg
  | .vmvxs o => some o.d
  | .mcnt _ o => some o.d
  | .vcompress o => some o.cnt
  | .vtopk o => some o.cnt
  | .vmrg o => some o.cnt
  | .vset _ _ o => some o.cnt
  | .vsegr _ o => some o.cnt
  | .vsegrFsum o => some o.cnt
  | .vsegrFmm _ o => some o.cnt
  | .strpos o => some o.d
  | .xstat o => some o.d
  | .xsplit o => some o.d
  | .xrecv o => some o.cnt
  | .cmtest o => some o.d
  | _ => none

/-- Whether a scalar register awaits a posted instruction (R10). -/
def Hart.pendingX (h : Hart) (r : XReg) : Bool := r != 0 && h.viq.any fun e => scalarDest e.e.instr == some r

/-- Whether a register cannot be corrected (R380). -/
def Hart.badX (h : Hart) (r : XReg) : Bool := h.marks.badRegs.contains (.scalarRegister h.ident.id r)

/-- The open strip when its checkpoint holds a scalar register (R23). -/
def Hart.covering (h : Hart) (r : XReg) : Option Strip := h.strip.filter fun t => t.regs.any fun p => p.1 == r

/-- An uncorrectable scalar register read by an instruction of the scalar side (R380). -/
def State.badRegister (s : State) (r : XReg) : State :=
  if s.hart.viq.isEmpty then s.consumeError 6 none (s.hart.covering r) fun v t => t.trap 0x18 v else s.stall

/-- A scalar instruction of a class that reads registers and writes registers: steps 4 and 5 of R56, the interlocks
of R9 and R10, and errors in the registers read (R380). -/
def State.scalar (s : State) (cls : Nat) (reads writes : List XReg) (k : State → State) : State :=
  s.classed cls fun s =>
    if (reads ++ writes).any s.hart.pendingX then s.stall
    else if !s.hart.viq.isEmpty && decide (64 ≤ s.hart.hist.length) then s.stall
    else
      match reads.find? s.hart.badX with
      | some r => s.badRegister r
      | none => k s

/-- Whether an instruction that takes `s` to `t` traps. -/
def entersHandler (s t : State) : Bool :=
  !s.hart.trap.inTrap && t.hart.trap.inTrap && t.hart.scalar.pc == s.hart.trap.tvec

/-- An instruction that takes `s` to `t`: when it commits stores out of a buffer that holds an error, it consumes the error
instead (R380, log entry 47). -/
def State.drained (s t : State) : State :=
  if s.badBuffer && decide (t.hart.sbuf.length < s.hart.sbuf.length) && !entersHandler s t then s.bufferError else t

/-- A scalar instruction that issues with an empty VIQ only (R10). -/
def State.scalarAlone (s : State) (cls : Nat) (reads writes : List XReg) (k : State → State) : State :=
  s.scalar cls reads writes fun s => if s.hart.viq.isEmpty then s.drained (k s) else s.stall

/-- The registers that a store or an atomic reads beside its address: their values count once the address is known to be
aligned (R376). -/
def State.dataReads (s : State) (va : Word) (n : Nat) (rs : List XReg) (k : State → State) : State :=
  if rs.any s.hart.pendingX then s.stall
  else if !aligned va n then s.trap 0x06 va
  else
    match rs.find? s.hart.badX with
    | some r => s.badRegister r
    | none => k s

/-- The common end of a scalar instruction: x[d] written, the next instruction follows. -/
def State.wrote (s : State) (d : XReg) (v : Word) : State := (s.writeX d v).advance

/-- The check of a transfer's target at a level (R45): an illegal one traps with cause 0x02 and nothing done, one whose line
cannot be read makes the transfer wait or consume the error, and for any other `k` makes the transfer. -/
def State.checkTarget (s : State) (lvl : Level) (target : Word) (k : State → State) : State :=
  match s.targetIllegal lvl target with
  | (t, .error f) => s.failing t .fetch (BitVec.ofNat 64 (pcLine target)) f
  | (t, .ok true) => t.trap 0x02 target
  | (t, .ok false) => k t

/-- A transfer of control (R45): `k` makes the transfer's own effect and the hart continues at the target. -/
def State.transfer (s : State) (target : Word) (k : State → State) : State :=
  s.checkTarget s.hart.scalar.level target fun s => (k s).jump target

/-! ### Rollback -/

/-- A CSR that the scalar side writes without waiting for the VIQ, restored: MSHAPE and CSPTR (R9). -/
def Hart.restoreCsr (h : Hart) (num : Nat) (old : Word) : Hart :=
  if num = 0x009 then
    { h with v := { h.v with mshape := ⟨old.toNat % 1024, old.toNat / 1024 % 1024, old.toNat / 2 ^ 20 % 65536⟩ } }
  else { h with scalar := { h.scalar with csptr := old } }

/-- One history entry undone (R9, R11). -/
def Hart.undo (h : Hart) : HistItem → Hart
  | .x _ r old => h.writeX r old
  | .calls _ old csptr => { h with scalar := { h.scalar with calls := old, csptr := csptr } }
  | .csr _ num old => h.restoreCsr num.val old

/-- The strips after a rollback to entry `e`: those that younger instructions opened are gone, and the entry's own strip is
open again when a younger instruction closed it. -/
def Hart.rollbackStrips (h : Hart) (e : VEntry) : Hart :=
  let own := (h.stripOf e.strip).filter fun t => !t.byTimer
  { h with
    strip := own.map fun t => { t with closedAt := 0, sealed := false }
    closing := h.closing.filter fun t => decide (t.id < e.seq) && (t.byTimer || t.id != e.strip) }

/-- Steps 1 to 3 of R11 for VIQ entry `e` (R11, R204): every younger entry is discarded with what it has written, the
history entries recorded after it are undone newest first, and its later pending stores are dropped; the tile and the shape
are those it captured, and the instructions discarded do not count. -/
def Hart.rollback (h : Hart) (e : VEntry) : Hart :=
  let h := h.takeBackAll (h.viq.filter fun q => decide (e.seq < q.e.seq))
  let undone := (h.hist.filter fun i => decide (e.seq ≤ i.after)).reverse
  let h := (undone.foldl Hart.undo h).rollbackStrips e
  { h with
    viq := h.viq.filter fun q => decide (q.e.seq ≤ e.seq)
    hist := h.hist.filter fun i => !decide (e.seq ≤ i.after)
    sbuf := h.sbuf.filter fun q => !decide (e.seq ≤ q.after)
    v := { h.v with vl := e.vl, vrows := e.vrows, nvCode := e.nvCode, carried := e.carried, mshape := e.mshape }
    scalar := { h.scalar with instret := e.icount } }

/-! ### Return from an exception -/

/-- A suspended copy of kinds 1 to 4 resumes from its failing chunk; one of kind 5 is complete (R269). -/
def resumeCopies : List CopyCtx → List CopyCtx
  | [] => []
  | c :: rest =>
    if c.copy.reported then
      match c.copy.failure with
      | some ⟨5, _, _, _⟩ => resumeCopies rest
      | _ => { c with copy := { c.copy with failure := none, reported := false } } :: resumeCopies rest
    else c :: resumeCopies rest

/-- The GARW waits that stand after ERET to `t`: a return to U elsewhere abandons the wait it does not return to (R276, log
entry 34). -/
def Hart.garwAfter (h : Hart) (t : Word) : List GarwWait :=
  if h.trap.spl then h.marks.garw else h.marks.garw.filter fun w => w.pc == t

/-- The state of a hart after ERET to `t` (R374). -/
def Hart.eret (h : Hart) (t : Word) : Hart :=
  { h with
    scalar := { h.scalar with
      pc := t, level := if h.trap.spl then .s else .u, instret := h.scalar.instret + 1 }
    trap := { h.trap with inTrap := false, pmask := false }
    copies := if h.trap.cause = 0x0B then resumeCopies h.copies else h.copies
    marks := { h.marks with wait := .none, resuming := true, pmaskLive := h.trap.pmask, garw := h.garwAfter t } }

/-- ERET (R374): an illegal target traps; otherwise the level, INTRAP and PMASK are restored and the hart continues
at TPC. -/
def State.eret (s : State) : State :=
  let t := s.hart.trap.tpc
  s.checkTarget (if s.hart.trap.spl then .s else .u) t fun s => s.withHart fun h => h.eret t

end Sys2Proof.Machine
end

