-- ==== Sys2Proof/Machine/Alu.lean ====
section
/-! DEFINITION. Scalar integer instructions (R94 to R98). -/

namespace Sys2Proof.Machine

/-- The answer of a meaning. -/
abbrev Answered := Host.Outcome State Fault Refusal

/-! ### Values -/

/-- The signed order of two words. -/
def wordLt (a b : Word) : Bool := a.slt b

/-- 1 for true, 0 for false. -/
def wordBool (b : Bool) : Word := if b then 1 else 0

/-- A rotation to the left by `n` modulo 64. -/
def wordRol (a : Word) (n : Nat) : Word := (a <<< (n % 64)) ||| (a >>> ((64 - n % 64) % 64))

/-- The high 64 bits of the signed product. -/
def wordMulh (a b : Word) : Word := BitVec.ofInt 64 (a.toInt * b.toInt / (2 ^ 64 : Nat))

/-- The high 64 bits of the unsigned product. -/
def wordMulhu (a b : Word) : Word := BitVec.ofNat 64 (a.toNat * b.toNat / 2 ^ 64)

/-- The signed quotient, truncated toward zero; all ones for b = 0 (R95). -/
def wordDiv (a b : Word) : Word := if b = 0 then BitVec.allOnes 64 else BitVec.ofInt 64 (a.toInt.tdiv b.toInt)

/-- The unsigned quotient; all ones for b = 0 (R95). -/
def wordDivu (a b : Word) : Word := if b = 0 then BitVec.allOnes 64 else BitVec.ofNat 64 (a.toNat / b.toNat)

/-- The signed remainder with the sign of a; a for b = 0 (R95). -/
def wordRem (a b : Word) : Word := if b = 0 then a else BitVec.ofInt 64 (a.toInt.tmod b.toInt)

/-- The unsigned remainder; a for b = 0 (R95). -/
def wordRemu (a b : Word) : Word := if b = 0 then a else BitVec.ofNat 64 (a.toNat % b.toNat)

/-- The number of one bits in the low `n` bits of a number. -/
def countOnes : Nat → Nat → Nat
  | 0, _ => 0
  | n + 1, v => v % 2 + countOnes n (v / 2)

/-- The number of zero bits below the lowest one bit of the low `n` bits; `n` when there is none. -/
def countTrailing : Nat → Nat → Nat
  | 0, _ => 0
  | n + 1, v => if v % 2 = 1 then 0 else 1 + countTrailing n (v / 2)

/-- The number of zero bits above the highest one bit of the low `n` bits; `n` when there is none. -/
def countLeading : Nat → Nat → Nat
  | 0, _ => 0
  | n + 1, v => if v / 2 ^ n % 2 = 1 then 0 else 1 + countLeading n v

/-- The eight bytes of a word in reverse order. -/
def wordSwap (a : Word) : Word := BitVec.ofNat 64 (leNat (natBytes 8 a.toNat).reverse)

/-! ### Shapes -/

/-- An ALU instruction with two sources (R95). -/
def State.alu (s : State) (o : AluOps) (f : Word → Word → Word) : State :=
  s.scalar 0 [o.a, o.b] [o.d] fun s => s.wrote o.d (f (s.x o.a) (s.x o.b))

/-- An ALU instruction with one source (R95). -/
def State.aluUnary (s : State) (o : UnaryOps) (f : Word → Word) : State :=
  s.scalar 0 [o.a] [o.d] fun s => s.wrote o.d (f (s.x o.a))

/-- An instruction with a 25-bit signed immediate (R96). -/
def State.aluImm (s : State) (o : ImmOps) (f : Word → Word → Word) : State :=
  s.scalar 0 [o.a] [o.d] fun s => s.wrote o.d (f (s.x o.a) (o.imm.signExtend 64))

/-- A comparison with a 24-bit signed immediate (R96). -/
def State.aluCmpImm (s : State) (o : CmpImmOps) (f : Word → Word → Bool) : State :=
  s.scalar 0 [o.a] [o.d] fun s => s.wrote o.d (wordBool (f (s.x o.a) (o.imm.signExtend 64)))

/-- A shift by an immediate amount (R96). -/
def State.aluShift (s : State) (o : ShiftImmOps) (f : Word → Nat → Word) : State :=
  s.scalar 0 [o.a] [o.d] fun s => s.wrote o.d (f (s.x o.a) o.amount.val)

/-! ### Meanings -/

/-- ADD (R95). -/
def execAdd (o : AluOps) (s : State) : Answered := .next (s.alu o fun a b => a + b)
/-- SUB (R95). -/
def execSub (o : AluOps) (s : State) : Answered := .next (s.alu o fun a b => a - b)
/-- AND (R95). -/
def execAnd (o : AluOps) (s : State) : Answered := .next (s.alu o fun a b => a &&& b)
/-- OR (R95). -/
def execOr (o : AluOps) (s : State) : Answered := .next (s.alu o fun a b => a ||| b)
/-- XOR (R95). -/
def execXor (o : AluOps) (s : State) : Answered := .next (s.alu o fun a b => a ^^^ b)
/-- ANDN (R95). -/
def execAndn (o : AluOps) (s : State) : Answered := .next (s.alu o fun a b => a &&& ~~~b)
/-- SHL (R95). -/
def execShl (o : AluOps) (s : State) : Answered := .next (s.alu o fun a b => a <<< (b.toNat % 64))
/-- SHR (R95). -/
def execShr (o : AluOps) (s : State) : Answered := .next (s.alu o fun a b => a >>> (b.toNat % 64))
/-- SRA (R95). -/
def execSra (o : AluOps) (s : State) : Answered := .next (s.alu o fun a b => a.sshiftRight (b.toNat % 64))
/-- ROL (R95). -/
def execRol (o : AluOps) (s : State) : Answered := .next (s.alu o fun a b => wordRol a b.toNat)
/-- MUL (R95). -/
def execMul (o : AluOps) (s : State) : Answered := .next (s.alu o fun a b => a * b)
/-- MULH (R95). -/
def execMulh (o : AluOps) (s : State) : Answered := .next (s.alu o wordMulh)
/-- MULHU (R95). -/
def execMulhu (o : AluOps) (s : State) : Answered := .next (s.alu o wordMulhu)
/-- DIV (R95). -/
def execDiv (o : AluOps) (s : State) : Answered := .next (s.alu o wordDiv)
/-- DIVU (R95). -/
def execDivu (o : AluOps) (s : State) : Answered := .next (s.alu o wordDivu)
/-- REM (R95). -/
def execRem (o : AluOps) (s : State) : Answered := .next (s.alu o wordRem)
/-- REMU (R95). -/
def execRemu (o : AluOps) (s : State) : Answered := .next (s.alu o wordRemu)
/-- MIN (R95). -/
def execMin (o : AluOps) (s : State) : Answered := .next (s.alu o fun a b => if wordLt b a then b else a)
/-- MAX (R95). -/
def execMax (o : AluOps) (s : State) : Answered := .next (s.alu o fun a b => if wordLt a b then b else a)
/-- MINU (R95). -/
def execMinu (o : AluOps) (s : State) : Answered := .next (s.alu o fun a b => if b < a then b else a)
/-- MAXU (R95). -/
def execMaxu (o : AluOps) (s : State) : Answered := .next (s.alu o fun a b => if a < b then b else a)
/-- SLT (R95). -/
def execSlt (o : AluOps) (s : State) : Answered := .next (s.alu o fun a b => wordBool (wordLt a b))
/-- SLTU (R95). -/
def execSltu (o : AluOps) (s : State) : Answered := .next (s.alu o fun a b => wordBool (decide (a < b)))
/-- CLZ (R95). -/
def execClz (o : UnaryOps) (s : State) : Answered :=
  .next (s.aluUnary o fun a => BitVec.ofNat 64 (countLeading 64 a.toNat))
/-- CTZ (R95). -/
def execCtz (o : UnaryOps) (s : State) : Answered :=
  .next (s.aluUnary o fun a => BitVec.ofNat 64 (countTrailing 64 a.toNat))
/-- POPC (R95). -/
def execPopc (o : UnaryOps) (s : State) : Answered :=
  .next (s.aluUnary o fun a => BitVec.ofNat 64 (countOnes 64 a.toNat))
/-- BSWAP (R95). -/
def execBswap (o : UnaryOps) (s : State) : Answered := .next (s.aluUnary o wordSwap)
/-- ADDI (R96). -/
def execAddi (o : ImmOps) (s : State) : Answered := .next (s.aluImm o fun a b => a + b)
/-- ANDI (R96). -/
def execAndi (o : ImmOps) (s : State) : Answered := .next (s.aluImm o fun a b => a &&& b)
/-- ORI (R96). -/
def execOri (o : ImmOps) (s : State) : Answered := .next (s.aluImm o fun a b => a ||| b)
/-- XORI (R96). -/
def execXori (o : ImmOps) (s : State) : Answered := .next (s.aluImm o fun a b => a ^^^ b)
/-- SLTI (R96). -/
def execSlti (o : CmpImmOps) (s : State) : Answered := .next (s.aluCmpImm o wordLt)
/-- SLTIU (R96). -/
def execSltiu (o : CmpImmOps) (s : State) : Answered := .next (s.aluCmpImm o fun a b => decide (a < b))
/-- SHLI (R96). -/
def execShli (o : ShiftImmOps) (s : State) : Answered := .next (s.aluShift o fun a n => a <<< n)
/-- SHRI (R96). -/
def execShri (o : ShiftImmOps) (s : State) : Answered := .next (s.aluShift o fun a n => a >>> n)
/-- SRAI (R96). -/
def execSrai (o : ShiftImmOps) (s : State) : Answered := .next (s.aluShift o fun a n => a.sshiftRight n)
/-- ROLI (R96). -/
def execRoli (o : ShiftImmOps) (s : State) : Answered := .next (s.aluShift o wordRol)
/-- LI (R97). -/
def execLi (o : ConstOps) (s : State) : Answered :=
  .next (s.scalar 0 [] [o.d] fun s => s.wrote o.d (o.imm.signExtend 64))
/-- LIH (R97). -/
def execLih (o : ConstOps) (s : State) : Answered :=
  .next (s.scalar 0 [o.d] [o.d] fun s =>
    s.wrote o.d ((o.imm.setWidth 64 <<< 32) ||| ((s.x o.d).setWidth 32).setWidth 64))
/-- SEL (R98). -/
def execSel (o : SelOps) (s : State) : Answered :=
  .next (s.scalar 0 [o.c, o.a, o.b] [o.d] fun s => s.wrote o.d (if s.x o.c ≠ 0 then s.x o.a else s.x o.b))

end Sys2Proof.Machine
end

