-- ==== Sys2Proof/Machine/LoadStore.lean ====
section
/-! DEFINITION. Scalar loads and stores (R99 to R101). -/

namespace Sys2Proof.Machine

/-- The sign extension of an `n`-byte value (R99). -/
def sextBytes (n v : Nat) : Word :=
  BitVec.ofInt 64 (if v / 2 ^ (8 * n - 1) % 2 = 1 then (v : Int) - (2 ^ (8 * n) : Nat) else (v : Int))

/-- The zero extension of a value. -/
def zextBytes (v : Nat) : Word := BitVec.ofNat 64 v

/-- The address of a load (R99). -/
def State.loadAddr (s : State) (o : LoadOps) : Word := s.x o.base + o.off.signExtend 64

/-- The address of a store (R100). -/
def State.storeAddr (s : State) (o : StoreOps) : Word := s.x o.base + o.off.signExtend 64

/-- A scalar load of `n` bytes (R99, R101). -/
def State.loadOp (s : State) (o : LoadOps) (n : Nat) (f : Nat → Word) : State :=
  s.scalar 0 [o.base] [o.d] fun s => s.load (s.loadAddr o) n fun v s => s.wrote o.d (f v)

/-- A scalar store of `n` bytes (R100, R101). -/
def State.storeOp (s : State) (o : StoreOps) (n : Nat) : State :=
  s.scalar 0 [o.base] [] fun s => s.dataReads (s.storeAddr o) n [o.src] fun s =>
    s.storeTo (s.storeAddr o) (natBytes n (s.x o.src).toNat) fun s => s.advance

/-- LDB (R99). -/
def execLdb (o : LoadOps) (s : State) : Answered := .next (s.loadOp o 1 (sextBytes 1))
/-- LDBU (R99). -/
def execLdbu (o : LoadOps) (s : State) : Answered := .next (s.loadOp o 1 zextBytes)
/-- LDH (R99). -/
def execLdh (o : LoadOps) (s : State) : Answered := .next (s.loadOp o 2 (sextBytes 2))
/-- LDHU (R99). -/
def execLdhu (o : LoadOps) (s : State) : Answered := .next (s.loadOp o 2 zextBytes)
/-- LDW (R99). -/
def execLdw (o : LoadOps) (s : State) : Answered := .next (s.loadOp o 4 (sextBytes 4))
/-- LDWU (R99). -/
def execLdwu (o : LoadOps) (s : State) : Answered := .next (s.loadOp o 4 zextBytes)
/-- LDD (R99). -/
def execLdd (o : LoadOps) (s : State) : Answered := .next (s.loadOp o 8 zextBytes)
/-- STB (R100). -/
def execStb (o : StoreOps) (s : State) : Answered := .next (s.storeOp o 1)
/-- STH (R100). -/
def execSth (o : StoreOps) (s : State) : Answered := .next (s.storeOp o 2)
/-- STW (R100). -/
def execStw (o : StoreOps) (s : State) : Answered := .next (s.storeOp o 4)
/-- STD (R100). -/
def execStd (o : StoreOps) (s : State) : Answered := .next (s.storeOp o 8)

end Sys2Proof.Machine
end

