-- ==== Sys2Proof/Machine/Control.lean ====
section
/-! DEFINITION. Control transfer and the call stack (R102 to R109). -/

namespace Sys2Proof.Machine

/-- Whether an integer condition holds of two words (R53). -/
def Cond.holds : Cond → Word → Word → Bool
  | .eq, a, b => a == b
  | .ne, a, b => a != b
  | .lt, a, b => wordLt a b
  | .ge, a, b => !wordLt a b
  | .ltu, a, b => decide (a < b)
  | .geu, a, b => !decide (a < b)

/-- A conditional branch (R102). -/
def State.branch (s : State) (o : BranchOps) (c : Cond) : State :=
  s.scalar 0 [o.a, o.b] [] fun s =>
    if Cond.holds c (s.x o.a) (s.x o.b) then
      s.transfer (relTarget s.hart.scalar.pc o.loff.toInt o.slot.val) fun s => s
    else s.advance

/-- BEQ (R102). -/
def execBeq (o : BranchOps) (s : State) : Answered := .next (s.branch o .eq)
/-- BNE (R102). -/
def execBne (o : BranchOps) (s : State) : Answered := .next (s.branch o .ne)
/-- BLT (R102). -/
def execBlt (o : BranchOps) (s : State) : Answered := .next (s.branch o .lt)
/-- BGE (R102). -/
def execBge (o : BranchOps) (s : State) : Answered := .next (s.branch o .ge)
/-- BLTU (R102). -/
def execBltu (o : BranchOps) (s : State) : Answered := .next (s.branch o .ltu)
/-- BGEU (R102). -/
def execBgeu (o : BranchOps) (s : State) : Answered := .next (s.branch o .geu)

/-- JMP (R103). -/
def execJmp (o : JumpOps) (s : State) : Answered :=
  .next (s.scalar 0 [] [] fun s =>
    s.transfer (relTarget s.hart.scalar.pc o.loff.toInt o.slot.val) fun s => s)

/-- JR (R104). -/
def execJr (target : XReg) (s : State) : Answered :=
  .next (s.scalar 0 [target] [] fun s => s.transfer (s.x target) fun s => s)

/-! ### The call stack -/

/-- SPILLS of CSPTR (R106). -/
def cspSpills (c : Word) : Nat := c.toNat % 128

/-- The address of the next free spill block (R106). -/
def cspNext (c : Word) : Nat := c.toNat % 2 ^ 57 / 128 * 128

/-- CSPTR of a block address and a spill count (R106). -/
def mkCsptr (next spills : Nat) : Word := BitVec.ofNat 64 (next % 2 ^ 57 / 128 * 128 + spills % 128)

/-- A failing spill or fill (R107): cause 0x0C with the address, or the consumption of an error. -/
def State.stackFault (s : State) (k : AccessKind) (va : Word) (f : AccFault) : State :=
  match f with
  | .fault _ _ _ => s.trap 0x0C va
  | f => s.accessFault k va f

/-- The errors of a hart once its call stack is set: a stack that was empty holds none of its own any more (R380). -/
def Hart.errorsAfterCall (h : Hart) : List ErrorPlace :=
  if h.scalar.calls.isEmpty then h.marks.badRegs.filter fun b => b != .callStack h.ident.id else h.marks.badRegs

/-- The call stack and CSPTR set, the old ones recorded as one history entry (R108). -/
def State.setCalls (s : State) (calls : List Word) (csptr : Word) : State :=
  s.withHart fun h =>
    let bad := h.errorsAfterCall
    let h := h.record fun n => .calls n h.scalar.calls h.scalar.csptr
    { h with scalar := { h.scalar with calls := calls, csptr := csptr }, marks := { h.marks with badRegs := bad } }

/-- Whether the call stack holds an error that cannot be corrected; no strip covers it (R380). -/
def State.badCalls (s : State) : Bool := s.hart.marks.badRegs.contains (.callStack s.hart.ident.id)

/-- Bytes of program counters, oldest first (R107). -/
def pcBytes : List Word → List Byte
  | [] => []
  | w :: rest => natBytes 8 w.toNat ++ pcBytes rest

/-- Program counters from bytes (R107). -/
def bytesPcs : Nat → List Byte → List Word
  | 0, _ => []
  | n + 1, bs => BitVec.ofNat 64 (leNat (bs.take 8)) :: bytesPcs n (bs.drop 8)

/-- The common part of a push or a pop: a spill or a fill issues with an empty VIQ only (R108), and an error in the stack is
consumed when words of it are read (R380). -/
def State.stackOp (s : State) (spills reads : Bool) (k : State → State) : State :=
  if (spills || (reads && s.badCalls)) && !s.hart.viq.isEmpty then s.stall
  else if reads && s.badCalls then s.trap 0x18 (checkTval 6 true false 0)
  else s.drained (k s)

/-- A push (R107), then `k`; the open strip commits and is sealed (R384). -/
def State.push (s : State) (pc : Word) (k : State → State) : State :=
  let c := s.hart.scalar.calls
  s.stackOp (decide (32 ≤ c.length)) (decide (32 ≤ c.length)) fun s =>
    let p := s.hart.scalar.csptr
    if c.length < 32 then k (s.commit.setCalls (c ++ [pc]) p)
    else if cspSpills p = 127 then s.trap 0x0C 0xFFFFFFFFFFFFFFFE
    else
      let va : Word := BitVec.ofNat 64 (cspNext p)
      s.committing true fun s =>
        s.commit.storeBlock va (pcBytes (c.take 16)) (fun f t => t.stackFault .store va f) fun s =>
          k (s.setCalls (c.drop 16 ++ [pc]) (mkCsptr (cspNext p + 128) (cspSpills p + 1)))

/-- A pop (R107): `k` receives the return point, and the stack and CSPTR that remain. -/
def State.pop (s : State) (k : Word → List Word → Word → State → State) : State :=
  let c := s.hart.scalar.calls
  s.stackOp c.isEmpty (!c.isEmpty) fun s =>
    let p := s.hart.scalar.csptr
    match c.getLast? with
    | some pc => k pc c.dropLast p s
    | none =>
      if cspSpills p = 0 then s.trap 0x0C 0xFFFFFFFFFFFFFFFF
      else
        let va : Word := BitVec.ofNat 64 ((cspNext p + 2 ^ 57 - 128) % 2 ^ 57)
        s.loadBlock va 128 (fun f t => t.stackFault .load va f) fun bs s =>
          let pcs := bytesPcs 16 bs
          k (pcs.getD 15 0) (pcs.take 15) (mkCsptr (cspNext p + 2 ^ 57 - 128) (cspSpills p - 1)) s

/-- A call (R103, R104): the target is checked, the return point is pushed, and control transfers (R45). -/
def State.callTo (s : State) (target : Word) : State :=
  s.checkTarget s.hart.scalar.level target fun s => s.push s.hart.nextPc fun s => s.jump target

/-- CALL (R103). -/
def execCall (o : JumpOps) (s : State) : Answered :=
  .next (s.scalar 0 [] [] fun s => s.callTo (relTarget s.hart.scalar.pc o.loff.toInt o.slot.val))

/-- CALLR (R104). -/
def execCallr (target : XReg) (s : State) : Answered :=
  .next (s.scalar 0 [target] [] fun s => s.callTo (s.x target))

/-- RET (R105): the pop takes effect with the transfer (R45), and the open strip commits and is sealed (R384). -/
def execRet (s : State) : Answered :=
  .next (s.scalar 0 [] [] fun s =>
    s.pop fun pc calls csptr s => s.transfer pc fun s => s.commit.setCalls calls csptr)

end Sys2Proof.Machine
end

