-- ==== Sys2Proof/Machine/Sync.lean ====
section
/-! DEFINITION. Acquires, releases, atomics, fences, waits and cache maintenance (R246 to R256). -/

namespace Sys2Proof.Machine

/-! ### Scopes and orders -/

/-- Whether a scope is .c or wider (R24). -/
def Scope.shared : Scope → Bool
  | .h => false
  | _ => true

/-- The strip commit of a release, fence or atomic of scope .c or wider; the VIQ is empty (R24). -/
def State.commitAt (s : State) (sc : Scope) : State := if Scope.shared sc then s.commit else s

/-- What an acquire of a scope does: copies of remote lines that could be older than what it orders are dropped (R222,
R224, R233). -/
def State.acquireAt (s : State) (sc : Scope) : State := s.dropOrdered s.hart.core sc

/-- Whether an order makes the access an acquire (R247). -/
def MemOrder.acquires : MemOrder → Bool
  | .aq => true
  | .ar => true
  | _ => false

/-- The acquire half of an atomic (R247). -/
def State.acquireIf (s : State) (o : MemOrder) (sc : Scope) : State := if MemOrder.acquires o then s.acquireAt sc else s

/-- A store that bypasses the strip store buffer (R249). -/
def State.storeDirect (s : State) (va : Word) (pa : Nat) (bs : List Byte) (kind : PageKind) : State :=
  s.performStore ⟨pa, bs, kind, 0, 0, s.hart.xctx.ctxid, va.toNat⟩

/-! ### LDAQ and STRL -/

/-- The address of LDAQ (R248). -/
def State.ldaqAddr (s : State) (o : LdaqOps) : Word := s.x o.base + o.off.signExtend 64

/-- LDAQ (R248). -/
def execLdaq (o : LdaqOps) (s : State) : Answered :=
  .next (s.scalarAlone 1 [o.base] [o.d] fun s =>
    s.load (s.ldaqAddr o) o.size.bytes fun v s =>
      (s.acquireAt o.scope).wrote o.d (if o.sgn then sextBytes o.size.bytes v else zextBytes v))

/-- The address of STRL (R249). -/
def State.strlAddr (s : State) (o : StrlOps) : Word := s.x o.base + o.off.signExtend 64

/-- STRL (R249): of scope .c or wider it commits the strip and bypasses the buffer; of scope .h it is an ordinary
store. -/
def execStrl (o : StrlOps) (s : State) : Answered :=
  .next (s.scalarAlone 1 [o.base] [] fun s => s.dataReads (s.strlAddr o) o.size.bytes [o.src] fun s =>
    let va := s.strlAddr o
    let bs := natBytes o.size.bytes (s.x o.src).toNat
    if Scope.shared o.scope then
      s.committing true fun s =>
        match s.locate .store va with
        | (s, .error f) => s.accessFault .store va f
        | (s, .ok (pa, kind)) =>
          match s.checkAt .store pa with
          | (s, .error f) => s.accessFault .store va f
          | (s, .ok ()) => (s.commit.storeDirect va pa bs kind).advance
    else s.storeTo va bs fun s => s.advance)

/-! ### Read-modify-write -/

/-- Bytes of an atomic: 4 or 8 (R250). -/
def amoBytes (dbl : Bool) : Nat := if dbl then 8 else 4

/-- The new value of an atomic on `bits` bits (R250). -/
def amoValue (op : AmoOp) (bits old b : Nat) : Nat :=
  let lt := fun x y => decide ((if 2 ^ (bits - 1) ≤ x then (x : Int) - (2 ^ bits : Nat) else x) <
    (if 2 ^ (bits - 1) ≤ y then (y : Int) - (2 ^ bits : Nat) else y))
  match op with
  | .add => (old + b) % 2 ^ bits
  | .min => if lt b old then b else old
  | .max => if lt old b then b else old
  | .minu => min old b
  | .maxu => max old b
  | .and => old &&& b
  | .or => old ||| b
  | .xor => old ^^^ b
  | .swp => b

/-- What x[D] receives: the old value, zero-extended for AMOMINU and AMOMAXU (R250). -/
def amoResult (op : AmoOp) (n old : Nat) : Word :=
  match op with
  | .minu => zextBytes old
  | .maxu => zextBytes old
  | _ => sextBytes n old

/-- One atomic access at a physical address (R251): at .c or wider at the point of coherence or at the home, at .h through
the strip store buffer. `f` gives the new value, or none for no write; `k` receives the old one. -/
def State.atomicAt (s : State) (sc : Scope) (va : Word) (pa n : Nat) (kind : PageKind) (f : Nat → Option Nat)
    (bad : AccFault → State → State) (k : Nat → State → State) : State :=
  let s := if Scope.shared sc || kind == .so then s.commit else s
  match s.readAt .atomic pa n (if Scope.shared sc then .so else kind) (s.hart.newest + 1) with
  | (s, .error e) => bad e s
  | (s, .ok bs) =>
    let old := leNat bs
    match f old with
    | none => k old s
    | some v =>
      if Scope.shared sc then k old (s.physWrite s.me pa (natBytes n v))
      else k old (s.writeAt va pa (natBytes n v) kind)

/-- An atomic of the scalar side at an aligned address (R250 to R252). -/
def State.atomic (s : State) (sc : Scope) (o : MemOrder) (va : Word) (n : Nat) (f : Nat → Option Nat)
    (k : Nat → State → State) : State :=
  s.committing (Scope.shared sc) fun s =>
    match s.locate .atomic va with
    | (s, .error e) => s.accessFault .atomic va e
    | (s, .ok (pa, kind)) =>
      s.committing (kind == .so || s.hart.wouldOverflow n) fun s =>
        s.atomicAt sc va pa n kind f (fun e t => t.accessFault .atomic va e) fun old s => k old (s.acquireIf o sc)

/-- AMO (R250, R251). -/
def State.amo (s : State) (op : AmoOp) (o : AmoOps) : State :=
  s.scalarAlone 1 [o.addr] [o.d] fun s => s.dataReads (s.x o.addr) (amoBytes o.dbl) [o.src] fun s =>
    let n := amoBytes o.dbl
    let b := (s.x o.src).toNat % 2 ^ (8 * n)
    s.atomic o.scope o.ord (s.x o.addr) n (fun old => some (amoValue op (8 * n) old b)) fun old s =>
      s.wrote o.d (amoResult op n old)

/-- AMOADD (R250). -/
def execAmoadd (o : AmoOps) (s : State) : Answered := .next (s.amo .add o)
/-- AMOMIN (R250). -/
def execAmomin (o : AmoOps) (s : State) : Answered := .next (s.amo .min o)
/-- AMOMAX (R250). -/
def execAmomax (o : AmoOps) (s : State) : Answered := .next (s.amo .max o)
/-- AMOMINU (R250). -/
def execAmominu (o : AmoOps) (s : State) : Answered := .next (s.amo .minu o)
/-- AMOMAXU (R250). -/
def execAmomaxu (o : AmoOps) (s : State) : Answered := .next (s.amo .maxu o)
/-- AMOAND (R250). -/
def execAmoand (o : AmoOps) (s : State) : Answered := .next (s.amo .and o)
/-- AMOOR (R250). -/
def execAmoor (o : AmoOps) (s : State) : Answered := .next (s.amo .or o)
/-- AMOXOR (R250). -/
def execAmoxor (o : AmoOps) (s : State) : Answered := .next (s.amo .xor o)
/-- AMOSWP (R250). -/
def execAmoswp (o : AmoOps) (s : State) : Answered := .next (s.amo .swp o)

/-- CAS (R252). -/
def execCas (o : CasOps) (s : State) : Answered :=
  .next (s.scalarAlone 1 [o.addr] [o.d] fun s => s.dataReads (s.x o.addr) (amoBytes o.dbl) [o.expect, o.new] fun s =>
    let n := amoBytes o.dbl
    let want := (s.x o.expect).toNat % 2 ^ (8 * n)
    let new := (s.x o.new).toNat % 2 ^ (8 * n)
    s.atomic o.scope o.ord (s.x o.addr) n (fun old => if old = want then some new else none) fun old s =>
      s.wrote o.d (sextBytes n old))

/-! ### Fences -/

/-- Whether every access of the hart's copies is performed, reads alone or writes too; a suspended copy has none to perform
until it resumes (R231, R269). -/
def Hart.copiesDone (h : Hart) (writes : Bool) : Bool :=
  h.copies.all fun c =>
    (c.copy.failure.isSome || decide (c.copy.rows * c.copy.rowBytes ≤ c.copy.next * c.copy.csize)) &&
      (!writes || c.copy.inFlight.isEmpty)

/-- A fence: it issues with an empty VIQ, and waits for the accesses of the hart's copies that it orders (R231, R254). -/
def State.fence (s : State) (copies : Option Bool) (k : State → State) : State :=
  s.scalarAlone 1 [] [] fun s => if (copies.map s.hart.copiesDone).getD true then k s else s.stall

/-- FENCE.SV (R231, R254). -/
def execFenceSv (s : State) : Answered := .next (s.fence none fun s => s.advance)
/-- FENCE.VS (R231, R254). -/
def execFenceVs (s : State) : Answered := .next (s.fence (some true) fun s => s.advance)
/-- FENCE.VV (R231, R254). -/
def execFenceVv (s : State) : Answered := .next (s.fence (some true) fun s => s.advance)

/-- What a fence that acquires drops: at .s every copy of a remote line, unordered ones included (R237, R254). -/
def State.acquireFence (s : State) (sc : Scope) : State := if sc = .s then s.dropRemote s.hart.core else s.acquireAt sc

/-- FENCE.ACQ (R231, R254). -/
def execFenceAcq (sc : Scope) (s : State) : Answered :=
  .next (s.fence (some false) fun s => ((s.commitAt sc).acquireFence sc).advance)

/-- What a release fence of scope .s sends home: the stores to unordered pages (R237, R254). -/
def State.releaseFence (s : State) (sc : Scope) : State := if sc = .s then s.sendUnordered s.hart else s

/-- FENCE.REL (R231, R254). -/
def execFenceRel (sc : Scope) (s : State) : Answered :=
  .next (s.fence (some true) fun s => ((s.commitAt sc).releaseFence sc).advance)

/-- FENCE.FULL (R231, R254). -/
def execFenceFull (sc : Scope) (s : State) : Answered :=
  .next (s.fence (some true) fun s => (((s.commitAt sc).releaseFence sc).acquireFence sc).advance)

/-! ### WAITM -/

/-- The condition of WAITM (R255). -/
def WaitCond.holds : WaitCond → Nat → Nat → Bool
  | .eq, v, c => v == c
  | .ne, v, c => v != c
  | .geu, v, c => decide (c ≤ v)
  | .ltu, v, c => decide (v < c)

/-- WAITM (R255): the hart sleeps while the condition fails, and reads again when it moves (log entry 4). -/
def execWaitm (o : WaitmOps) (s : State) : Answered :=
  .next (s.scalarAlone 1 [o.addr] [o.d] fun s => s.dataReads (s.x o.addr) (amoBytes o.dbl) [o.cmp] fun s =>
    let n := amoBytes o.dbl
    let va := s.x o.addr
    let c := (s.x o.cmp).toNat % 2 ^ (8 * n)
    s.load va n fun v s =>
      if WaitCond.holds o.cond v c then (s.acquireAt o.scope).wrote o.d (zextBytes v)
      else s.block (.waitm va.toNat))

/-- WAITM_WAKE (R255): the sleeping hart looks again. -/
def execWaitmWake (h : HartId) (s : State) : Answered :=
  .next (s.onHart h fun s =>
    match s.hart.marks.wait with
    | .waitm _ => s.block .none
    | _ => s)

/-- WAITM_TIMEOUT (R255): the sleeping hart looks again. -/
def execWaitmTimeout (h : HartId) (s : State) : Answered :=
  .next (s.onHart h fun s =>
    match s.hart.marks.wait with
    | .waitm _ => s.block .none
    | _ => s)

/-! ### Cache maintenance -/

/-- The virtual addresses of the lines that overlap a range, of at most 0x100_0000 bytes (R256). -/
def rangeLines (base len : Nat) : List Nat :=
  let n := min len 0x1000000
  if n = 0 then [] else (List.range ((base + n - 1) / 128 - base / 128 + 1)).map fun i => (base / 128 + i) * 128

/-- The physical lines of a range; lines whose translation fails are skipped (R256). -/
def State.rangePhys (s : State) : List Nat → State × List Nat
  | [] => (s, [])
  | va :: rest =>
    match s.locate .load (BitVec.ofNat 64 va) with
    | (s, .ok (pa, _)) =>
      let (s, l) := s.rangePhys rest
      (s, pa / 128 :: l)
    | (s, .error _) => s.rangePhys rest

/-- A CACHE member that drops copies of lines of other packages (R256). -/
def State.dropCopies (s : State) (o : RangeOps) (drop : List Nat → Bool → FarCopies → FarCopies) : State :=
  s.scalarAlone 1 [o.base, o.len] [] fun s =>
    let len := (s.x o.len).toNat
    let (s, ls) := if 0x1000000 < len then (s, []) else s.rangePhys (rangeLines (s.x o.base).toNat len)
    State.advance { s with store := { s.store with far := drop ls (decide (0x1000000 < len)) s.store.far } }

/-- INVRDC (R256). -/
def execInvrdc (o : RangeOps) (s : State) : Answered :=
  .next (s.dropCopies o fun ls all far =>
    { far with rdc := far.rdc.filter fun c => !(c.unit == s.hart.die && (all || ls.contains c.line)) })

/-- INVL1 (R256). -/
def execInvl1 (o : RangeOps) (s : State) : Answered :=
  .next (s.dropCopies o fun ls all far =>
    { far with l1 := far.l1.filter fun c => !(c.unit == s.hart.core && (all || ls.contains c.line)) })

/-- WBL2 (R256): changes no value that any load returns. -/
def execWbl2 (o : RangeOps) (s : State) : Answered := .next (s.scalarAlone 1 [o.base, o.len] [] fun s => s.advance)

/-- PREF (R256): changes no value that any load returns. -/
def execPref (o : PrefOps) (s : State) : Answered := .next (s.scalarAlone 1 [o.base, o.len] [] fun s => s.advance)

/-- REMOTE_COPY_EXPIRY (R222, R237): the copy of a line in an L1 or an RDC is dropped at the end of its life; no read uses it
from then on, whether this has happened or not. -/
def execRemoteCopyExpiry (inL1 : Bool) (unit line : Nat) (s : State) : Answered :=
  let far := s.store.far
  let gone := fun (c : RemoteCopy) => c.unit == unit && c.line == line && !c.live s.cycle
  .next { s with store := { s.store with far :=
    if inL1 then { far with l1 := far.l1.filter fun c => !gone c }
    else { far with rdc := far.rdc.filter fun c => !gone c } } }

end Sys2Proof.Machine
end

