-- ==== Sys2Proof/Machine/Gate.lean ====
section
/-! DEFINITION. Gates (R272 to R276). -/

namespace Sys2Proof.Machine

/-- A gate nothing has bound (R272). -/
def Gate.unbound : Gate := ⟨0, 0, false, none, none⟩

/-- The state of a gate. -/
def Core.gate (c : Core) (n : Nat) : Gate := (assocGet c.gates n).getD Gate.unbound

/-- The core of a gate identifier (R272). -/
def gateCore (id : Word) : Nat := id.toNat / 2048 % 256

/-- The gate number of a gate identifier (R272). -/
def gateNum (id : Word) : Nat := id.toNat % 2048

/-- Whether the cores are powered (R419) and no endgame has stopped them (R402). -/
def State.coresOn (s : State) : Bool :=
  (s.power.state == .p0 || s.power.state == .p1) && (!s.power.endgame || s.power.window) && !s.power.poweredOff

/-- Whether a core is present and not offline (R194, R275). -/
def State.coreOnline (s : State) (c : Nat) : Bool := s.power.sdOk.getLsbD (c / 64) && (s.core c).cap != 0

/-- The gate of an identifier. -/
def State.gateOf (s : State) (id : Word) : Gate := (s.core (gateCore id)).gate (gateNum id)

/-- The gate of an identifier set. -/
def State.setGate (s : State) (id : Word) (g : Gate) : State :=
  let c := s.core (gateCore id)
  s.setCore (gateCore id) { c with gates := assocSet c.gates (gateNum id) g }

/-- What a use of a gate is, for the misuse checks (R275). -/
inductive GateUse where
  | ginit (count : Nat)
  | arrive (n : Nat)
  | look
deriving DecidableEq, Repr

/-- The lowest misuse reason of a use of a gate by a context (R275). -/
def State.gateMisuse (s : State) (id : Word) (ctx : BitVec 16) (u : GateUse) : Option Nat :=
  let g := s.gateOf id
  if 2 ^ 19 ≤ id.toNat || !s.coreOnline (gateCore id) then some 1
  else
    match u with
    | .ginit n =>
      if n = 0 ∨ 65535 < n then some 2
      else
        match g.owner with
        | none => none
        | some o => if o ≠ ctx then some 4 else if g.arr ≠ 0 then some 5 else none
    | .arrive n =>
      if 65535 < n then some 2
      else
        match g.owner with
        | none => some 3
        | some o => if o ≠ ctx then some 4 else if g.exp.toNat < g.arr.toNat + n then some 6 else none
    | .look =>
      match g.owner with
      | none => some 3
      | some o => if o ≠ ctx then some 4 else none

/-- TVAL of a gate misuse (R275). -/
def gateTval (id : Word) (reason : Nat) : Word := BitVec.ofNat 64 (reason * 2 ^ 20 + id.toNat % 2 ^ 19)

/-- An arrival of `n` on a gate (R274). -/
def Gate.arrive (g : Gate) (n : Nat) : Gate :=
  if n = 0 then g
  else if g.arr.toNat + n = g.exp.toNat then { g with arr := 0, ph := !g.ph }
  else { g with arr := BitVec.ofNat 16 (g.arr.toNat + n) }

/-- Whether a gate holds an error that cannot be corrected (R380). -/
def State.badGate (s : State) (id : Word) : Bool :=
  (s.core (gateCore id)).bad.contains (.gate (Fin.ofNat 256 (gateCore id)) (Fin.ofNat 2048 (gateNum id)))

/-- A gate instruction: the misuse checks, an error in the gate, then `k` (R275, R380). -/
def State.gateOp (s : State) (id : Word) (u : GateUse) (k : State → State) : State :=
  match s.gateMisuse id s.hart.xctx.ctxid u with
  | some r => s.trap 0x13 (gateTval id r)
  | none => if s.badGate id then s.trap 0x18 (checkTval 6 true false 0) else k s

/-- GINIT (R274): the gate is bound to the context, its expected count set, its arrivals zeroed. -/
def execGinit (o : GinitOps) (s : State) : Answered :=
  .next (s.scalarAlone 1 [o.gate, o.count] [] fun s =>
    let id := s.x o.gate
    let n := (s.x o.count).toNat
    s.gateOp id (.ginit n) fun s =>
      let g := s.gateOf id
      (s.commit.setGate id
        { g with
          exp := BitVec.ofNat 16 n, arr := 0, owner := some s.hart.xctx.ctxid, binder := some s.hart.ident.seq }).advance)

/-- The count of an arrival: 1 when S2 is x0 (R273). -/
def State.arriveCount (s : State) (o : GarrOps) : Nat := if o.count = 0 then 1 else (s.x o.count).toNat

/-- GARR (R274). -/
def execGarr (o : GarrOps) (s : State) : Answered :=
  .next (s.scalarAlone 1 [o.gate, o.count] [o.d] fun s =>
    let id := s.x o.gate
    let n := s.arriveCount o
    s.gateOp id (.arrive n) fun s =>
      let g := s.gateOf id
      (s.commit.setGate id (g.arrive n)).wrote o.d (wordBool g.ph))

/-- GWAIT (R274): an acquire at the scope when it ends. -/
def execGwait (o : GwaitOps) (s : State) : Answered :=
  .next (s.scalarAlone 1 [o.gate, o.phase] [] fun s =>
    let id := s.x o.gate
    s.gateOp id .look fun s =>
      if (s.gateOf id).ph != (s.x o.phase).getLsbD 0 then (s.acquireAt o.scope).advance
      else s.block (.gate (id.toNat % 2 ^ 19)))

/-- GWAIT_WAKE (R274): the waiting hart looks again. -/
def execGwaitWake (h : HartId) (s : State) : Answered :=
  .next (s.onHart h fun s =>
    match s.hart.marks.wait with
    | .gate _ => s.block .none
    | _ => s)

/-- The wait of a GARW, and its end; x[D] was written at its arrival (R274). -/
def State.garwWait (s : State) (o : GarrOps) (w : GarwWait) : State :=
  if (s.gateOf (BitVec.ofNat 64 w.gate)).ph != w.phase then
    (((s.withHart fun h => { h with marks := { h.marks with garw := h.marks.garw.filter fun v => v != w } }).acquireAt
      o.scope)).advance
  else s.block (.gate w.gate)

/-- The arrival of a GARW (R274): x[D] receives the phase, and the wait is recorded. -/
def State.garwArrive (s : State) (o : GarrOps) (id : Word) : State :=
  let g := s.gateOf id
  let w : GarwWait := ⟨s.hart.scalar.pc, id.toNat % 2 ^ 19, g.ph⟩
  let s := ((s.commit.setGate id (g.arrive (s.arriveCount o))).writeX o.d (wordBool g.ph)).withHart fun h =>
    { h with marks := { h.marks with garw := w :: h.marks.garw } }
  s.garwWait o w

/-- GARW (R274, R276): the arrival, then the wait; re-executed while it waits, it only waits. -/
def execGarw (o : GarrOps) (s : State) : Answered :=
  .next (s.scalarAlone 1 [o.gate, o.count] [o.d] fun s =>
    match s.hart.marks.garw.find? fun w => w.pc == s.hart.scalar.pc with
    | some w => s.gateOp (BitVec.ofNat 64 w.gate) .look fun s => s.garwWait o w
    | none => s.gateOp (s.x o.gate) (.arrive (s.arriveCount o)) fun s => s.garwArrive o (s.x o.gate))

/-- GQRY (R274). -/
def execGqry (o : GqryOps) (s : State) : Answered :=
  .next (s.scalarAlone 1 [o.gate] [o.d] fun s =>
    let id := s.x o.gate
    s.gateOp id .look fun s =>
      let g := s.gateOf id
      s.wrote o.d (BitVec.ofNat 64 (bit01 g.ph * 2 ^ 32 + g.exp.toNat * 65536 + g.arr.toNat)))

end Sys2Proof.Machine
end

