-- ==== Sys2Proof/Machine/Float.lean ====
section
/-! DEFINITION. The number formats, rounding, flags and single operations of R67 to R83, computed exactly on naturals
and integers. A value is a sign, a magnitude and a power of two; results are bits and a flag set in FFLAGS order
(NV 16, DZ 8, OF 4, UF 2, NX 1). -/

namespace Sys2Proof.Machine

/-- Exception flags in FFLAGS order (R77). -/
abbrev Flags := BitVec 5

def flagNV : Flags := 16
def flagDZ : Flags := 8
def flagOF : Flags := 4
def flagUF : Flags := 2
def flagNX : Flags := 1

/-- How a format spends its largest exponent code (R67). -/
inductive FKind where
  | ieee | e4m3 | e2m1
deriving DecidableEq, Repr

/-- A floating format: exponent bits, fraction bits, bias and kind (R67). -/
structure FSpec where
  ebits : Nat
  fbits : Nat
  bias : Nat
  kind : FKind
deriving DecidableEq, Repr

def fp64 : FSpec := ⟨11, 52, 1023, .ieee⟩
def fp32 : FSpec := ⟨8, 23, 127, .ieee⟩
def fp16 : FSpec := ⟨5, 10, 15, .ieee⟩
def fpBf16 : FSpec := ⟨8, 7, 127, .ieee⟩
def fpE5m2 : FSpec := ⟨5, 2, 15, .ieee⟩
def fpE4m3 : FSpec := ⟨4, 3, 7, .e4m3⟩
def fpE2m1 : FSpec := ⟨2, 1, 1, .e2m1⟩

/-- The format of a vector floating family (R124). -/
def FFmt.spec : FFmt → FSpec
  | .f32 => fp32
  | .f64 => fp64
  | .f16 => fp16
  | .bf16 => fpBf16

/-- The element width of a vector floating family. -/
def FFmt.width : FFmt → Width
  | .f32 => .w32
  | .f64 => .w64
  | .f16 => .w16
  | .bf16 => .w16

/-- Bits of a format. -/
def FSpec.bits (f : FSpec) : Nat := 1 + f.ebits + f.fbits

/-- The sign bit of a format, as a number. -/
def FSpec.signBit (f : FSpec) : Nat := 1 <<< (f.ebits + f.fbits)

/-- A value: a NaN (flagged when using it is invalid), an infinity, or a finite number (-1)^neg * m * 2^e. -/
inductive FVal where
  | nan (signalling : Bool)
  | inf (neg : Bool)
  | fin (neg : Bool) (m : Nat) (e : Int)
deriving DecidableEq, Repr

/-- The value that bits of a format stand for (R67, R68). -/
def FSpec.decode (f : FSpec) (b : Nat) : FVal :=
  let frac := b % 2 ^ f.fbits
  let ex := b / 2 ^ f.fbits % 2 ^ f.ebits
  let neg := b / 2 ^ (f.fbits + f.ebits) % 2 == 1
  let top := 2 ^ f.ebits - 1
  let finite : FVal :=
    if ex = 0 then .fin neg frac (1 - (f.bias : Int) - f.fbits)
    else .fin neg (2 ^ f.fbits + frac) ((ex : Int) - f.bias - f.fbits)
  match f.kind with
  | .ieee =>
    if ex = top then
      (if frac = 0 then .inf neg else .nan (f.bits != 8 && frac / 2 ^ (f.fbits - 1) == 0))
    else finite
  | .e4m3 => if ex = top ∧ frac = 7 then .nan false else finite
  | .e2m1 => finite

/-- The canonical NaN (R68); e2m1 has none and reads +0 (R79). -/
def FSpec.canonicalNan (f : FSpec) : Nat :=
  match f.kind with
  | .ieee => (2 ^ f.ebits - 1) * 2 ^ f.fbits + 2 ^ (f.fbits - 1)
  | .e4m3 => 0x7F
  | .e2m1 => 0

/-- The bits of the largest finite magnitude (R67). -/
def FSpec.maxFinite (f : FSpec) : Nat :=
  match f.kind with
  | .ieee => (2 ^ f.ebits - 1) * 2 ^ f.fbits - 1
  | .e4m3 => 0x7E
  | .e2m1 => 0x7

/-- The bits of an infinity's magnitude. -/
def FSpec.infinity (f : FSpec) : Nat := (2 ^ f.ebits - 1) * 2 ^ f.fbits

/-- The bits of a magnitude with its sign. -/
def FSpec.signed (f : FSpec) (neg : Bool) (mag : Nat) : Nat := if neg then f.signBit + mag else mag

/-- The exponent of the unit of a subnormal. -/
def FSpec.minUnit (f : FSpec) : Int := 1 - (f.bias : Int) - f.fbits

/-- Whether rounding the quotient `n` with remainder `rem` of `half2` halves rounds up (R74). -/
def roundsUp (rm : Rounding) (neg : Bool) (n rem half2 : Nat) : Bool :=
  match rm with
  | .rne => decide (half2 < 2 * rem) || (decide (2 * rem = half2) && n % 2 == 1)
  | .rtz => false
  | .rdn => neg && rem != 0
  | .rup => !neg && rem != 0

/-- m * 2^e rounded to a multiple of 2^q, as a multiple of it, and whether that was inexact. -/
def roundAt (rm : Rounding) (neg : Bool) (m : Nat) (e q : Int) : Nat × Bool :=
  if q ≤ e then (m <<< (e - q).toNat, false)
  else
    let sh := (q - e).toNat
    let n := m >>> sh
    let rem := m - (n <<< sh)
    (if roundsUp rm neg n rem (1 <<< sh) then n + 1 else n, rem != 0)

/-- Whether an overflow delivers infinity under a mode (R75). -/
def overflowsToInf (rm : Rounding) (neg : Bool) : Bool :=
  match rm with
  | .rne => true
  | .rtz => false
  | .rdn => neg
  | .rup => !neg

/-- The outcome of rounding a nonzero magnitude (R75, R76): bits of the magnitude, flags, and whether it overflowed. A tiny value
raises UF when its delivered rounding is inexact (log entry 13, the model's reading). -/
def FSpec.roundMag (f : FSpec) (rm : Rounding) (neg : Bool) (m : Nat) (e : Int) : Nat × Flags × Bool :=
  let msb : Int := e + (Nat.log2 m : Int)
  let qu : Int := msb - f.fbits
  let q : Int := max qu f.minUnit
  let (n, inexact) := roundAt rm neg m e q
  let bits : Int := (n : Int) + (q - f.minUnit) * (2 ^ f.fbits : Nat)
  if (f.maxFinite : Int) < bits then
    ((if overflowsToInf rm neg then f.infinity else f.maxFinite), flagOF ||| flagNX, true)
  else
    let (nu, _) := roundAt rm neg m e qu
    let tiny := decide (qu < f.minUnit) && decide ((nu : Int) <<< (0 : Nat) < (2 ^ f.fbits : Nat) * 2 ^ (f.minUnit - qu).toNat)
    (bits.toNat, (if inexact then flagNX else 0) ||| (if tiny && inexact then flagUF else 0), false)

/-- A finite value rounded to a format (R75, R76). -/
def FSpec.roundFin (f : FSpec) (rm : Rounding) (neg : Bool) (m : Nat) (e : Int) : Nat × Flags :=
  if m = 0 then (f.signed neg 0, 0)
  else
    let (b, fl, _) := f.roundMag rm neg m e
    (f.signed neg b, fl)

/-- A value delivered in a format: NaN results are canonical (R68) and invalid ones raise NV (R76). -/
def FSpec.deliver (f : FSpec) (rm : Rounding) : FVal → Nat × Flags
  | .nan sig => (f.canonicalNan, if sig then flagNV else 0)
  | .inf neg => (f.signed neg f.infinity, 0)
  | .fin neg m e => f.roundFin rm neg m e

/-- The value with the other sign; a NaN stays as it is. -/
def FVal.negate : FVal → FVal
  | .nan s => .nan s
  | .inf n => .inf (!n)
  | .fin n m e => .fin (!n) m e

def FVal.isZero : FVal → Bool
  | .fin _ m _ => m == 0
  | _ => false

def FVal.isNan : FVal → Bool
  | .nan _ => true
  | _ => false

def FVal.isSignalling : FVal → Bool
  | .nan s => s
  | _ => false

/-- The exact product (R76): 0 times infinity is invalid; a NaN operand gives a NaN. -/
def FVal.mul : FVal → FVal → FVal
  | .nan s, .nan t => .nan (s || t)
  | .nan s, _ => .nan s
  | _, .nan t => .nan t
  | .inf a, .inf b => .inf (a != b)
  | .inf a, .fin b m _ => if m = 0 then .nan true else .inf (a != b)
  | .fin a m _, .inf b => if m = 0 then .nan true else .inf (a != b)
  | .fin a m e, .fin b n g => .fin (a != b) (m * n) (e + g)

/-- The least exponent among finite terms. -/
def minExp : List FVal → Int → Int
  | [], acc => acc
  | .fin _ m e :: rest, acc => minExp rest (if m = 0 then acc else min e acc)
  | _ :: rest, acc => minExp rest acc

/-- The total of the finite terms in units of 2^base. -/
def sumFin (base : Int) : List FVal → Int
  | [] => 0
  | .fin neg m e :: rest =>
    let t : Int := ((m <<< (e - base).toNat : Nat) : Int)
    (if m = 0 then 0 else if neg then -t else t) + sumFin base rest
  | _ :: rest => sumFin base rest

/-- The exact sum of terms (R75, R86): a NaN, infinities of both signs, or a signed infinity first; a zero total
takes its sign from the terms and the mode. -/
def exactSum (rm : Rounding) (ts : List FVal) : FVal :=
  let posInf := ts.any fun t => t == .inf false
  let negInf := ts.any fun t => t == .inf true
  let sig := ts.any FVal.isSignalling
  if ts.any FVal.isNan then .nan (sig || (posInf && negInf))
  else if posInf && negInf then .nan true
  else if posInf then .inf false
  else if negInf then .inf true
  else
    let base := minExp ts 1100
    let total := sumFin base ts
    if total = 0 then
      let allNeg := ts.all fun t => match t with | .fin n m _ => n && m == 0 | _ => false
      let allPos := ts.all fun t => match t with | .fin n m _ => !n && m == 0 | _ => false
      .fin (if allNeg then true else if allPos then false else rm == .rdn) 0 0
    else .fin (decide (total < 0)) total.natAbs base

/-- a + b rounded once (R82). -/
def FSpec.add (f : FSpec) (rm : Rounding) (a b : Nat) : Nat × Flags :=
  f.deliver rm (exactSum rm [f.decode a, f.decode b])

/-- a - b rounded once (R82). -/
def FSpec.sub (f : FSpec) (rm : Rounding) (a b : Nat) : Nat × Flags :=
  f.deliver rm (exactSum rm [f.decode a, (f.decode b).negate])

/-- a * b rounded once (R82). -/
def FSpec.mul (f : FSpec) (rm : Rounding) (a b : Nat) : Nat × Flags :=
  f.deliver rm ((f.decode a).mul (f.decode b))

/-- The exact quotient, with a last bit that stands for a remainder (R76, R82). -/
def FVal.div (a b : FVal) : FVal × Flags :=
  match a, b with
  | .nan s, .nan t => (.nan (s || t), 0)
  | .nan s, _ => (.nan s, 0)
  | _, .nan t => (.nan t, 0)
  | .inf _, .inf _ => (.nan true, 0)
  | .inf n, .fin p _ _ => (.inf (n != p), 0)
  | .fin n _ _, .inf p => (.fin (n != p) 0 0, 0)
  | .fin n m e, .fin p d g =>
    if d = 0 then (if m = 0 then (.nan true, 0) else (.inf (n != p), flagDZ))
    else if m = 0 then (.fin (n != p) 0 0, 0)
    else
      let k := 64 + Nat.log2 d
      let num := m <<< k
      let q := num / d
      (.fin (n != p) (2 * q + (if num % d = 0 then 0 else 1)) (e - g - k - 1), 0)

/-- a / b rounded once (R82). -/
def FSpec.div (f : FSpec) (rm : Rounding) (a b : Nat) : Nat × Flags :=
  let (v, fl) := (f.decode a).div (f.decode b)
  let (r, fl2) := f.deliver rm v
  (r, fl ||| fl2)

/-- The integer square root, one bit of the result at a time. -/
def isqrtBits (n : Nat) : Nat → Nat → Nat
  | 0, r => r
  | k + 1, r =>
    let c := r + (1 <<< k)
    isqrtBits n k (if c * c ≤ n then c else r)

/-- The largest r with r * r ≤ n. -/
def isqrt (n : Nat) : Nat := isqrtBits n (Nat.log2 n / 2 + 1) 0

/-- The square root, with a last bit that stands for a remainder (R76, R126). -/
def FVal.sqrt : FVal → FVal
  | .nan s => .nan s
  | .inf n => if n then .nan true else .inf false
  | .fin n m e =>
    if m = 0 then .fin n 0 0
    else if n then .nan true
    else
      let (m1, e1) : Nat × Int := if e % 2 = 0 then (m, e) else (2 * m, e - 1)
      let m2 := m1 <<< 128
      let r := isqrt m2
      .fin false (2 * r + (if r * r = m2 then 0 else 1)) (e1 / 2 - 64 - 1)

/-- VFSQRT (R126). -/
def FSpec.sqrt (f : FSpec) (rm : Rounding) (a : Nat) : Nat × Flags := f.deliver rm (f.decode a).sqrt

/-- VFRCP (R83). -/
def FSpec.rcp (f : FSpec) (rm : Rounding) (a : Nat) : Nat × Flags :=
  let (v, fl) := (FVal.fin false 1 0).div (f.decode a)
  let (r, fl2) := f.deliver rm v
  (r, fl ||| fl2)

/-- VFRSQ (R83). -/
def FSpec.rsq (f : FSpec) (rm : Rounding) (a : Nat) : Nat × Flags :=
  match f.decode a with
  | .nan s => f.deliver rm (.nan s)
  | .inf n => if n then f.deliver rm (.nan true) else (f.signed false 0, 0)
  | .fin n m e =>
    if m = 0 then (f.signed n f.infinity, flagDZ)
    else if n then f.deliver rm (.nan true)
    else
      let (m1, e1) : Nat × Int := if e % 2 = 0 then (m, e) else (2 * m, e - 1)
      let k := 80 + Nat.log2 m1
      let q := (1 <<< (2 * k)) / m1
      let r := isqrt q
      f.deliver rm (.fin false (2 * r + (if r * r * m1 = 1 <<< (2 * k) then 0 else 1)) (-(e1 / 2) - k - 1))

/-- a * b + c with chosen signs, rounded once (R125). -/
def FSpec.fma (f : FSpec) (rm : Rounding) (negProd negAdd : Bool) (a b c : Nat) : Nat × Flags :=
  let p := (f.decode a).mul (f.decode b)
  let p := if negProd then p.negate else p
  let d := f.decode c
  let d := if negAdd then d.negate else d
  f.deliver rm (exactSum rm [p, d])

/-- The places of the fixed-point evaluations of VFEXP2 and VFLOG2 (log entry 14). -/
def fixBits : Nat := 400

/-- Sum of 2^fixBits / (k 2^k), the natural logarithm of 2. -/
def ln2Sum : Nat → Nat → Nat → Nat
  | 0, _, acc => acc
  | fuel + 1, k, acc => ln2Sum fuel (k + 1) (acc + (1 <<< fixBits) / (k <<< k))

/-- The natural logarithm of 2 in fixed point. -/
def ln2Fix : Nat := ln2Sum 410 1 0

/-- The exponential series in fixed point. -/
def expSeries (y : Nat) : Nat → Nat → Nat → Nat → Nat
  | 0, _, _, acc => acc
  | fuel + 1, k, term, acc =>
    let t := ((term * y) >>> fixBits) / k
    expSeries y fuel (k + 1) t (acc + t)

/-- The inverse hyperbolic tangent series in fixed point. -/
def atanhSeries (z2 : Nat) : Nat → Nat → Nat → Nat → Nat
  | 0, _, _, acc => acc
  | fuel + 1, k, pow, acc => atanhSeries z2 fuel (k + 2) ((pow * z2) >>> fixBits) (acc + pow / k)

/-- 2 to the power of a finite value, as a value whose last bit marks it inexact (R83). -/
def exp2Fin (neg : Bool) (m : Nat) (e : Int) : FVal :=
  if m = 0 then .fin false 1 0
  else if 10 < e + (Nat.log2 m : Int) then .fin false 3 (if neg then -4000 else 4000)
  else
    let scaled : Int := if 0 ≤ e + fixBits then ((m <<< (e + fixBits).toNat : Nat) : Int) else 1
    let x : Int := if neg then -scaled else scaled
    let i := x / ((1 <<< fixBits : Nat) : Int)
    let fr := (x % ((1 <<< fixBits : Nat) : Int)).toNat
    if fr = 0 then .fin false 1 i
    else
      let y := (fr * ln2Fix) >>> fixBits
      let v := expSeries y 120 1 (1 <<< fixBits) (1 <<< fixBits)
      .fin false (2 * v + 1) (i - fixBits - 1)

/-- VFEXP2 (R83). -/
def FSpec.exp2 (f : FSpec) (rm : Rounding) (a : Nat) : Nat × Flags :=
  match f.decode a with
  | .nan s => f.deliver rm (.nan s)
  | .inf n => if n then (f.signed false 0, 0) else (f.signed false f.infinity, 0)
  | .fin n m e => f.deliver rm (exp2Fin n m e)

/-- The base-2 logarithm of a positive finite value (R83). -/
def log2Fin (m : Nat) (e : Int) : FVal :=
  let l := Nat.log2 m
  let ex : Int := e + l
  let y := (m <<< fixBits) >>> l
  let one := 1 <<< fixBits
  if y = one then .fin (decide (ex < 0)) ex.natAbs 0
  else
    let z := ((y - one) <<< fixBits) / (y + one)
    let s := 2 * atanhSeries ((z * z) >>> fixBits) 140 1 z 0
    let lg := (s <<< fixBits) / ln2Fix
    let v : Int := ex * (one : Int) + lg
    .fin (decide (v < 0)) (2 * v.natAbs + 1) (-(fixBits : Int) - 1)

/-- VFLOG2 (R83). -/
def FSpec.log2 (f : FSpec) (rm : Rounding) (a : Nat) : Nat × Flags :=
  match f.decode a with
  | .nan s => f.deliver rm (.nan s)
  | .inf n => if n then f.deliver rm (.nan true) else (f.signed false f.infinity, 0)
  | .fin n m e =>
    if m = 0 then (f.signed true f.infinity, flagDZ)
    else if n then f.deliver rm (.nan true)
    else f.deliver rm (log2Fin m e)

/-- Whether the finite value a is below the finite value b. -/
def finLt (na : Bool) (ma : Nat) (ea : Int) (nb : Bool) (mb : Nat) (eb : Int) : Bool :=
  let base := min ea eb
  let va : Int := ((ma <<< (ea - base).toNat : Nat) : Int)
  let vb : Int := ((mb <<< (eb - base).toNat : Nat) : Int)
  decide ((if na then -va else va) < (if nb then -vb else vb))

/-- a < b for values that are not NaN; zeros compare equal (R129). -/
def FVal.lt : FVal → FVal → Bool
  | .inf a, .inf b => a && !b
  | .inf a, .fin .. => a
  | .fin .., .inf b => !b
  | .fin na ma ea, .fin nb mb eb => finLt na ma ea nb mb eb
  | _, _ => false

/-- The sign of bits of a format. -/
def FSpec.negative (f : FSpec) (a : Nat) : Bool := a / 2 ^ (f.fbits + f.ebits) % 2 == 1

/-- a < b with -0 below +0, for bits that are not NaN (R124). -/
def FSpec.ltZ (f : FSpec) (a b : Nat) : Bool :=
  let va := f.decode a
  let vb := f.decode b
  if va.isZero && vb.isZero then f.negative a && !f.negative b else va.lt vb

/-- VFMIN and VFMAX (R124). -/
def FSpec.minMax (f : FSpec) (isMax : Bool) (a b : Nat) : Nat × Flags :=
  let va := f.decode a
  let vb := f.decode b
  if va.isSignalling || vb.isSignalling then (f.canonicalNan, flagNV)
  else if va.isNan && vb.isNan then (f.canonicalNan, 0)
  else if va.isNan then (b, 0)
  else if vb.isNan then (a, 0)
  else if isMax then ((if f.ltZ a b then b else a), 0)
  else ((if f.ltZ b a then b else a), 0)

/-- The conditions of VFCMP and the NV each raises (R129). -/
def FSpec.compare (f : FSpec) (c : FCond) (a b : Nat) : Bool × Flags :=
  let va := f.decode a
  let vb := f.decode b
  let nan := va.isNan || vb.isNan
  let sig : Flags := if va.isSignalling || vb.isSignalling then flagNV else 0
  let any : Flags := if nan then flagNV else 0
  let lt := !nan && va.lt vb
  let gt := !nan && vb.lt va
  let eq := !nan && !lt && !gt
  match c with
  | .eq => (eq, sig)
  | .ne => (!eq, sig)
  | .lt => (lt, any)
  | .le => (lt || eq, any)
  | .gt => (gt, any)
  | .ge => (gt || eq, any)
  | .un => (nan, sig)

/-- VFCLASS (R126). -/
def FSpec.classify (f : FSpec) (a : Nat) : Nat :=
  let neg := f.negative a
  let sub := a / 2 ^ f.fbits % 2 ^ f.ebits == 0
  match f.decode a with
  | .nan s => if s then 1 <<< 8 else 1 <<< 9
  | .inf n => if n then 1 else 1 <<< 7
  | .fin _ m _ =>
    if m = 0 then (if neg then 1 <<< 3 else 1 <<< 4)
    else if sub then (if neg then 1 <<< 2 else 1 <<< 5)
    else (if neg then 1 <<< 1 else 1 <<< 6)

/-- The value of an S8 scale (R71); the scale NaN is invalid to use (R72). -/
def scaleValue (s : Nat) : FVal :=
  if s = 0xFF then .nan true
  else if s / 8 = 0 then .fin false (s % 8) (-17)
  else .fin false (8 + s % 8) ((s / 8 : Nat) - 15 - 3)

/-- An element under its block scale, exactly (R72). -/
def scaledValue (x : FVal) (s : Nat) : FVal :=
  match scaleValue s, x with
  | .nan _, _ => .nan true
  | .fin _ 0 _, .inf _ => .nan true
  | .fin _ 0 _, .fin n _ _ => .fin n 0 0
  | _, .nan q => .nan q
  | sc, v => v.mul sc

/-- Conversion into e5m2, e4m3 or e2m1 (R79). -/
def FSpec.narrow (f : FSpec) (rm : Rounding) (sat : Bool) : FVal → Nat × Flags
  | .nan s =>
    match f.kind with
    | .e2m1 => (0, flagNV)
    | _ => (f.canonicalNan, if s then flagNV else 0)
  | .inf n =>
    match f.kind, sat with
    | .e2m1, _ => (f.signed n f.maxFinite, flagNX)
    | _, true => (f.signed n f.maxFinite, flagNX)
    | .e4m3, false => (f.canonicalNan, flagNV)
    | .ieee, false => (f.signed n f.infinity, 0)
  | .fin n m e =>
    if m = 0 then (f.signed n 0, 0)
    else
      let (b, fl, ovf) := f.roundMag rm n m e
      if ovf then
        match f.kind, sat with
        | .e2m1, _ => (f.signed n f.maxFinite, fl)
        | _, true => (f.signed n f.maxFinite, fl)
        | .e4m3, false => (f.canonicalNan, fl)
        | .ieee, false => (f.signed n f.infinity, fl)
      else (f.signed n b, fl)

/-- Conversion of a value into a floating format (R79, R80). -/
def FSpec.convert (f : FSpec) (rm : Rounding) (sat : Bool) (v : FVal) : Nat × Flags :=
  if f.bits ≤ 8 then f.narrow rm sat v else f.deliver rm v

/-- An integer format: bits and signedness (R69). -/
structure ISpec where
  bits : Nat
  signed : Bool
deriving DecidableEq, Repr

def ISpec.minVal (i : ISpec) : Int := if i.signed then -(2 ^ (i.bits - 1) : Nat) else 0
def ISpec.maxVal (i : ISpec) : Int := if i.signed then (2 ^ (i.bits - 1) : Nat) - 1 else (2 ^ i.bits : Nat) - 1

/-- The integer that bits stand for (R69). -/
def ISpec.value (i : ISpec) (b : Nat) : Int :=
  let b := b % 2 ^ i.bits
  if i.signed && decide (2 ^ (i.bits - 1) ≤ b) then (b : Int) - (2 ^ i.bits : Nat) else b

/-- The low bits of an integer. -/
def ISpec.wrap (i : ISpec) (v : Int) : Nat := (v % (2 ^ i.bits : Nat)).toNat

/-- An integer held to the range of a format. -/
def ISpec.clamp (i : ISpec) (v : Int) : Int := max i.minVal (min i.maxVal v)

/-- Conversion of a floating value to an integer format (R81). -/
def ISpec.ofFloat (i : ISpec) (rm : Rounding) : FVal → Nat × Flags
  | .nan _ => (0, flagNV)
  | .inf n => (i.wrap (if n then i.minVal else i.maxVal), flagNV)
  | .fin neg m e =>
    let (n, inexact) := roundAt rm neg m e 0
    let v : Int := if neg then -(n : Int) else n
    if v < i.minVal ∨ i.maxVal < v then (i.wrap (i.clamp v), flagNV)
    else (i.wrap v, if inexact then flagNX else 0)

/-- An integer as a floating value. -/
def FVal.ofInt (v : Int) : FVal := .fin (decide (v < 0)) v.natAbs 0

/-- A format of R127: floating or integer. -/
inductive NumFmt where
  | fp (f : FSpec)
  | int (i : ISpec)
deriving DecidableEq, Repr

/-- The format codes of R127; codes 11 to 15 are reserved. -/
def numFmt : Nat → Option NumFmt
  | 0 => some (.fp fp64)
  | 1 => some (.fp fp32)
  | 2 => some (.fp fp16)
  | 3 => some (.fp fpBf16)
  | 4 => some (.fp fpE4m3)
  | 5 => some (.fp fpE5m2)
  | 6 => some (.fp fpE2m1)
  | 7 => some (.int ⟨32, true⟩)
  | 8 => some (.int ⟨8, true⟩)
  | 9 => some (.int ⟨8, false⟩)
  | 10 => some (.int ⟨4, true⟩)
  | _ => none

/-- Bits of a format. -/
def NumFmt.bits : NumFmt → Nat
  | .fp f => f.bits
  | .int i => i.bits

/-- Conversion between two formats (R79 to R81). -/
def convertFmt (src dst : NumFmt) (rm : Rounding) (sat : Bool) (b : Nat) : Nat × Flags :=
  match src, dst with
  | .fp f, .fp g => g.convert rm sat (f.decode b)
  | .fp f, .int i => i.ofFloat rm (f.decode b)
  | .int i, .fp g => g.convert rm sat (FVal.ofInt (i.value b))
  | .int i, .int j => (j.wrap (if sat then j.clamp (i.value b) else i.value b), 0)

/-- Whether SAT may be 1 for a conversion (R127). -/
def satAllowed (src dst : NumFmt) : Bool :=
  match src, dst with
  | .int _, .int _ => true
  | _, .fp f => f == fpE4m3 || f == fpE5m2
  | _, _ => false

end Sys2Proof.Machine
end

