-- ==== Sys2Proof/Machine/Flags.lean ====
section
/-! DEFINITION. The flag and status registers of the vector unit: FFLAGS (R77, R78), VSTAT (R143, R144) and VCFGR (R117). -/

namespace Sys2Proof.Machine

/-- Flags merged into FFLAGS by OR (R78). -/
def Hart.mergeFlags (h : Hart) (f : Flags) : Hart := { h with v := { h.v with fflags := h.v.fflags ||| f } }

/-- VSTAT (R143). -/
def VState.vstat (v : VState) : Word :=
  BitVec.ofNat 64 (v.cnt % 2 ^ 19 * 2 ^ 32 + bit01 v.osrc * 2 ^ 31 + v.opos % 2 ^ 19 * 2 ^ 12 + bit01 v.order)

/-- TVAL of an order violation (R144). -/
def orderTval (osrc : Bool) (opos : Nat) : Word := BitVec.ofNat 64 (bit01 osrc * 2 ^ 19 + opos % 2 ^ 19)

/-- A count delivered to VSTAT.CNT (R143). -/
def VState.withCount (v : VState) : Option Nat → VState
  | some n => { v with cnt := n % 2 ^ 19 }
  | none => v

/-- An order violation recorded (R144); none leaves ORDER, OSRC and OPOS unchanged. -/
def VState.withOrder (v : VState) : Option (Bool × Nat) → VState
  | some (src, pos) => { v with order := true, osrc := src, opos := pos % 2 ^ 19 }
  | none => v

/-- What a retiring instruction delivers (R78, R142, R144): its flags, its scalar result, its count and its order
violation. -/
def Hart.deliver (h : Hart) (r : VResult) : Hart :=
  let h := { h with v := ({ h.v with fflags := h.v.fflags ||| r.fflags }.withCount r.count).withOrder r.order }
  match r.scalar with
  | some (d, v) => h.writeX d v
  | none => h

/-- The carried field `i` of VCFGR (R117). -/
def carriedField (c : List VReg) (i : Nat) : Nat := ((c.drop i).head?.map fun r => r.val).getD 0

/-- VCFGR (R117). -/
def VState.vcfgr (v : VState) : Word :=
  BitVec.ofNat 64 (carriedField v.carried 3 * 2 ^ 23 + carriedField v.carried 2 * 2 ^ 17 +
    carriedField v.carried 1 * 2 ^ 11 + carriedField v.carried 0 * 2 ^ 5 + v.carried.length * 4 + v.nvCode.val)

/-- MSHAPE (R165). -/
def MShape.word (m : MShape) : Word := BitVec.ofNat 64 (m.k * 2 ^ 20 + m.n * 2 ^ 10 + m.m)

/-- The shape of a word, within the limits of R165. -/
def mshapeOf (v : Word) : Option MShape :=
  let m := v.toNat % 1024
  let n := v.toNat / 1024 % 1024
  let k := v.toNat / 2 ^ 20 % 65536
  if 256 < m ∨ 64 < n ∨ 16384 < k ∨ 2 ^ 36 ≤ v.toNat then none else some ⟨m, n, k⟩

end Sys2Proof.Machine
end

