-- ==== Sys2Proof/Machine/Operands.lean ====
section
/-! DEFINITION. Vector operands: registers and their capacity (R12 to R19), elements and masks (R47, R70, R91), the
captured scalars of a posted instruction (R90). -/

namespace Sys2Proof.Machine

/-! ### Capacity -/

/-- Rounded up division. -/
def ceilDiv (a b : Nat) : Nat := (a + b - 1) / b

/-- LW of a core: 8 lanes for each working group (R16). -/
def Core.lw (c : Core) : Nat := 8 * countOnes 8 c.lanemap.toNat

/-- Lanes of a core as a hart on it sees them: an in-field test kernel sees one group (R215), and a core without a working group
counts as one. -/
def State.lanesFor (s : State) (h : Hart) (core : Nat) : Nat := if h.marks.test.isSome then 8 else max 8 (s.core core).lw

/-- LW as the current hart sees it (R16). -/
def State.lw (s : State) : Nat := s.lanesFor s.hart s.hart.core

/-- NV of a code: 8, 16, 32 or 64 (R13). -/
def VState.nv (v : VState) : Nat := 8 * 2 ^ v.nvCode.val

/-- The VRF share G in words per lane (R12, R27). -/
def shareWords (g : Fin 4) : Nat := 2048 * (g.val + 1)

/-- W, the words per lane of one register (R13). -/
def VState.words (v : VState) : Nat := shareWords v.share / v.nv

/-- Groups of LW elements in a row (R14). -/
def groupsPerRow (lw vl : Nat) : Nat := ceilDiv vl lw

/-- Words per lane of a row of `bits`-bit elements; 4-bit elements count as half as many 8-bit ones (R14, R70). -/
def wordsPerRow (lw bits vl : Nat) : Nat :=
  let vl := if bits = 4 then ceilDiv vl 2 else vl
  let g := groupsPerRow lw vl
  match bits with
  | 4 => ceilDiv g 4
  | 8 => ceilDiv g 4
  | 16 => ceilDiv g 2
  | 32 => g
  | _ => 2 * g

/-- Whether a tile fits a register (R14). -/
def tileFits (lw words bits rows vl : Nat) : Bool := decide (rows * wordsPerRow lw bits vl ≤ words)

/-- Whether a tile of the current hart fits (R14). -/
def State.fits (s : State) (bits rows vl : Nat) : Bool := tileFits s.lw s.hart.v.words bits rows vl

/-- Whether a vector register is nameable: below NV and no carried-shadow slot (R13). -/
def VState.nameable (v : VState) (r : Nat) : Bool := decide (r + v.carried.length < v.nv)

/-- Mask positions that exist (R91). -/
def maskPositions : Nat := 262144

/-! ### Elements -/

/-- The element of a row in a register, `bits` wide (log entry 12). -/
def vget (vrf : Mem) (r : Nat) (bits row e : Nat) : Nat :=
  if bits = 4 then (memRead vrf (vkey r row (e / 2))).toNat / 16 ^ (e % 2) % 16
  else readNat vrf (vkey r row (e * (bits / 8))) (bits / 8)

/-- The element of a row in a register, written. -/
def vset (vrf : Mem) (r : Nat) (bits row e v : Nat) : Mem :=
  if bits = 4 then
    let a := vkey r row (e / 2)
    let old := (memRead vrf a).toNat
    memWrite vrf a (BitVec.ofNat 8 (if e % 2 = 0 then old / 16 * 16 + v % 16 else old % 16 + v % 16 * 16))
  else writeNat vrf (vkey r row (e * (bits / 8))) (bits / 8) v

/-- The bit of a mask register; m0 is all ones (R47). -/
def mget (masks : Mem) (m : MReg) (p : Nat) : Bool :=
  m = 0 || (decide (p < maskPositions) && memRead masks (mkey m.val p) != 0)

/-- The bit of a mask register written; m0 ignores writes (R47). -/
def mset (masks : Mem) (m : MReg) (p : Nat) (b : Bool) : Mem :=
  if m = 0 ∨ maskPositions ≤ p then masks else memWrite masks (mkey m.val p) (if b then 1 else 0)

/-- A register file with one register emptied. -/
def dropReg (vrf : Mem) (r : Nat) : Mem := memDrop vrf (vkey r 0 0) (vkey (r + 1) 0 0)

/-- The contents of one register. -/
def regSlice (vrf : Mem) (r : VReg) : Mem := memSlice vrf (vkey r.val 0 0) (vkey (r.val + 1) 0 0)

/-- The contents of one mask register. -/
def maskSlice (masks : Mem) (m : MReg) : Mem := memSlice masks (mkey m.val 0) (mkey (m.val + 1) 0)

/-! ### Element groups -/

/-- The elements of group `g` as row and index (R19). -/
def groupElems (lw vl g : Nat) : List (Nat × Nat) :=
  let gpr := groupsPerRow lw vl
  let row := g / gpr
  let first := lw * (g % gpr)
  (List.range (min lw (vl - first))).map fun i => (row, first + i)

/-- Element groups of a tile (R19). -/
def tileGroups (lw rows vl : Nat) : Nat := rows * groupsPerRow lw vl

/-- Elements that the first `g` groups of a tile hold (R19). -/
def groupsToElems (lw vl g : Nat) : Nat :=
  let n := groupsPerRow lw vl
  g / max 1 n * vl + min vl (g % max 1 n * lw)

/-- Whole groups that the first `k` elements of a tile fill (R19). -/
def elemsToGroups (lw vl k : Nat) : Nat := k / max 1 vl * groupsPerRow lw vl + k % max 1 vl / lw

/-- A restart point on a core of `lw` lanes (R17, R88): the same elements of its tile, counted in groups of that core. `vl` is
the VL in force, whose tile a written VRESUME counts. -/
def Resume.restored (r : Resume) (lw vl : Nat) : Resume :=
  let vl := if r.vl = 0 then vl else r.vl
  let elems := if r.vl = 0 then groupsToElems r.lw vl r.groups else r.elems
  if lw = r.lw || vl = 0 then { r with lw := lw } else ⟨elemsToGroups lw vl elems, lw, vl, elems⟩

/-- The elements of the current tile that the instruction executed again finds complete, on a core of `lw` lanes (R22): those
that the trap left complete, for a tile of the row length it trapped with, and those of VRESUME groups for any other. -/
def VState.resumeElems (v : VState) (lw : Nat) : Nat :=
  match v.vresumeAt with
  | some r => if v.vl = r.vl then r.elems else groupsToElems lw v.vl v.vresume
  | none => groupsToElems lw v.vl v.vresume

/-- The elements of group `g` that an entry has still to do (R22). -/
def VEntry.groupElems (e : VEntry) (lw g : Nat) : List (Nat × Nat) :=
  (Machine.groupElems lw e.vl g).filter fun p => decide (e.skip ≤ p.1 * e.vl + p.2)

/-- The elements of a whole tile in row-major order. -/
def tileElems (rows vl : Nat) : List (Nat × Nat) :=
  ((List.range rows).map fun r => (List.range vl).map fun e => (r, e)).flatten

/-- The source view of the VRF: a register that the instruction also writes is read as it stood before (R21, R141). -/
def sourceVrf (vrf : Mem) (r : VResult) : Mem := r.prior.foldl restoreShadow vrf

/-- The mask file as it stood before the instruction (R141). -/
def sourceMasks (masks : Mem) (r : VResult) : Mem :=
  match r.priorMask with
  | some p => restoreMask masks p
  | none => masks

/-- The mask that governs an entry: its M field, or m15 alone (R374). -/
def VEntry.mask (e : VEntry) (m : MReg) : MReg := if e.m15Only then 15 else m

/-- Writes at the active elements of a list: `f` gives an element's bits and flags; the flags are gathered (R91). -/
def mapElems (d bits vl : Nat) (masks : Mem) (m : MReg) (f : Nat → Nat → Nat × Flags) :
    List (Nat × Nat) → Mem × Flags → Mem × Flags
  | [], acc => acc
  | (r, e) :: rest, (vrf, fl) =>
    if mget masks m (r * vl + e) then
      let (v, g) := f r e
      mapElems d bits vl masks m f rest (vset vrf d bits r e v, fl ||| g)
    else mapElems d bits vl masks m f rest (vrf, fl)

/-- Mask bits written at the active elements of a list. -/
def mapMask (d : MReg) (vl : Nat) (src : Mem) (m : MReg) (f : Nat → Nat → Bool × Flags) :
    List (Nat × Nat) → Mem × Flags → Mem × Flags
  | [], acc => acc
  | (r, e) :: rest, (masks, fl) =>
    if mget src m (r * vl + e) then
      let (b, g) := f r e
      mapMask d vl src m f rest (mset masks d (r * vl + e) b, fl ||| g)
    else mapMask d vl src m f rest (masks, fl)

/-! ### The working VIQ entry: the oldest one that is not complete -/

/-- What ends the work on an entry before it is complete: a trap at it, the consumption of an error, or a wait. -/
inductive VStop where
  | trap (t : Trap)
  | ecc (src : Nat) (granule : Option Nat) (covered : Bool)
  | wait
deriving DecidableEq, Repr

/-- The result of work on an entry. -/
abbrev VRun := State × Option VStop

/-- The work is done. -/
def ran (s : State) : VRun := (s, none)

/-- The work stopped. -/
def stopped (s : State) (w : VStop) : VRun := (s, some w)

/-- A trap at entry `e` with a VRESUME (R11). -/
def vtrap (e : VEntry) (cause : Nat) (tval : Word) (xl : Option Nat) (resume : Nat) : VStop :=
  .trap ⟨cause, tval, (xl.map fun n => if cause = 7 ∨ cause = 8 then n / 256 else 0).getD 0, e.pc, xl, some resume⟩

/-- The first slot of a VIQ whose work is not complete, changed. -/
def onWorking (f : VSlot → VSlot) : List VSlot → List VSlot
  | [] => []
  | q :: rest => if q.e.complete then q :: onWorking f rest else f q :: rest

/-- The working slot of a hart: the oldest one that is not complete. -/
def Hart.working (h : Hart) : Option VSlot := h.viq.find? fun q => !q.e.complete

/-- The working slot changed. -/
def Hart.withWorking (h : Hart) (f : VSlot → VSlot) : Hart := { h with viq := onWorking f h.viq }

/-- The result part of the working slot changed. -/
def State.withResult (s : State) (f : VResult → VResult) : State :=
  s.withHart fun h => h.withWorking fun q => { q with r := f q.r }

/-- A result with nothing in it. -/
def VResult.empty : VResult := ⟨0, none, none, none, [], none, [], [], [], .off, 0, false⟩

/-- The result of the working entry. -/
def State.workResult (s : State) : VResult := (s.hart.working.map fun q => q.r).getD VResult.empty

/-- Flags gathered by the working entry (R78). -/
def State.gather (s : State) (f : Flags) : State := s.withResult fun r => { r with fflags := r.fflags ||| f }

/-- The sources of the working entry: the VRF and the mask file as they stood before it. -/
def State.sources (s : State) : Mem × Mem :=
  (sourceVrf s.hart.vrf s.workResult, sourceMasks s.hart.masks s.workResult)

/-- The VRF of the current hart set. -/
def State.setVrf (s : State) (m : Mem) : State := s.withHart fun h => { h with vrf := m }

/-- The mask file of the current hart set. -/
def State.setMasks (s : State) (m : Mem) : State := s.withHart fun h => { h with masks := m }

/-- The elements of group `g` written in register `d` at the active positions: the elementwise instructions (R91). -/
def State.runElems (s : State) (e : VEntry) (g : Nat) (d : VReg) (bits : Nat) (m : MReg)
    (f : Mem → Nat → Nat → Nat × Flags) : VRun :=
  let (vrf, masks) := s.sources
  let (out, fl) := mapElems d.val bits e.vl masks (e.mask m) (f vrf) (e.groupElems s.lw g) (s.hart.vrf, 0)
  ran ((s.setVrf out).gather fl)

/-- The mask bits of group `g` written in mask register `d`: the compares (R128, R129). -/
def State.runMask (s : State) (e : VEntry) (g : Nat) (d m : MReg) (f : Mem → Nat → Nat → Bool × Flags) : VRun :=
  let (vrf, masks) := s.sources
  let (out, fl) := mapMask d e.vl masks m (f vrf) (e.groupElems s.lw g) (s.hart.masks, 0)
  ran ((s.setMasks out).gather fl)

/-- The second operand of an elementwise instruction at an element: a register's element, or the low bits of the
captured scalar (R122). -/
def vxGet (vrf : Mem) (e : VEntry) (b : VX) (bits row el : Nat) : Nat :=
  match b with
  | .v r => vget vrf r.val bits row el
  | .x _ => e.x0.toNat % 2 ^ bits

/-! ### Registers that an instruction names -/

/-- The vector register of an operand that may be a scalar, with its width. -/
def VX.regs (b : VX) (bits : Nat) : List (VReg × Nat) :=
  match b with
  | .v r => [(r, bits)]
  | .x _ => []

/-- The scalar register of an operand that may be a vector register. -/
def VX.scalars : VX → List XReg
  | .v _ => []
  | .x r => [r]

/-- A register pair: the odd member of the pair named by its even member (R140). -/
def oddMember (r : VReg) : VReg := r + 1

/-- The register `i` places after a base. -/
def regPlus (r : VReg) (i : Nat) : VReg := r + Fin.ofNat 64 i

/-- The scalar registers that a posted instruction captures, in the order of its fields (R90). -/
def capturedRegs : VInstr → List XReg
  | .vcfg o => [o.list]
  | .setvl o => [o.a]
  | .setvr o => [o.a]
  | .setvlb o => [o.a]
  | .msets a => [a]
  | .via _ o => VX.scalars o.b
  | .vfa _ o => VX.scalars o.b
  | .vfmm _ o => VX.scalars o.b
  | .vfma _ o => VX.scalars o.b
  | .vcmp _ o => VX.scalars o.b
  | .vfcmp _ o => VX.scalars o.b
  | .vsel o => VX.scalars o.b
  | .vbcast o => [o.a]
  | .vmvxs o => [o.pos]
  | .vmvsx o => [o.a, o.pos]
  | .vslideup o => [o.k]
  | .vslidedn o => [o.k]
  | .vrowbc o => [o.k]
  | .mset o => [o.a]
  | .vld _ o => [o.base, o.pitch]
  | .vldx o => [o.base]
  | .vldff o => [o.base, o.pitch]
  | .vst _ o => [o.base, o.pitch]
  | .vstx _ o => [o.base]
  | .vamo _ o => [o.base]
  | .stra _ o => [o.desc, o.start]
  | .wbld o => [o.values, o.scales]
  | .vmrg o => [o.lens]
  | .vset _ _ o => [o.lens]
  | .vtopk o => [o.k]
  | .xopen o => if o.role = 1 then [o.round] else [o.round, o.spill]
  | .xclose r => [r]
  | .xfloor o => [o.round, o.floor]
  | .xstat o => [o.round]
  | .xsplit o => [o.round, o.desc]
  | .xround r => [r]
  | .xsend _ o => [o.round]
  | .xrecv o => [o.round]
  | .cpy _ o => [o.pitches, o.src, o.dst, o.shape]
  | .cmwait o => [o.mask]
  | .cmtest o => [o.mask]
  | .cmclr o => [o.mask]
  | _ => []

end Sys2Proof.Machine
end

