-- ==== Sys2Proof/Machine/VInt.lean ====
section
/-! DEFINITION. Elementwise vector integer instructions (R122, R123). -/

namespace Sys2Proof.Machine

/-- An element read as a signed number. -/
def signedOf (bits a : Nat) : Int := if 2 ^ (bits - 1) ≤ a then (a : Int) - (2 ^ bits : Nat) else a

/-- The low `bits` bits of an integer. -/
def wrapTo (bits : Nat) (v : Int) : Nat := (v % (2 ^ bits : Nat)).toNat

/-- An integer saturated to the signed range (R122). -/
def saturate (bits : Nat) (v : Int) : Nat := wrapTo bits (max (-(2 ^ (bits - 1) : Nat)) (min ((2 ^ (bits - 1) : Nat) - 1) v))

/-- A shift to the right with sign fill. -/
def sraTo (bits a n : Nat) : Nat := wrapTo bits (signedOf bits a / (2 ^ n : Nat))

/-- The members of VIA on two operands (R122). -/
def viaValue (op : ViaOp) (bits a b : Nat) : Nat :=
  let sa := signedOf bits a
  let sb := signedOf bits b
  match op with
  | .add => (a + b) % 2 ^ bits
  | .sub => wrapTo bits ((a : Int) - b)
  | .mul => a * b % 2 ^ bits
  | .mulh => wrapTo bits (sa * sb / (2 ^ bits : Nat))
  | .mulhu => a * b / 2 ^ bits
  | .min => if sb < sa then b else a
  | .max => if sa < sb then b else a
  | .minu => min a b
  | .maxu => max a b
  | .and => a &&& b
  | .or => a ||| b
  | .xor => a ^^^ b
  | .andn => a &&& (2 ^ bits - 1 - b)
  | .shl => a * 2 ^ (b % bits) % 2 ^ bits
  | .shr => a / 2 ^ (b % bits)
  | .sra => sraTo bits a (b % bits)
  | .adds => saturate bits (sa + sb)
  | .subs => saturate bits (sa - sb)
  | .absd => (sa - sb).natAbs

/-- The members of VIA on one operand (R122). -/
def viaUnaryValue (op : ViaUnaryOp) (bits a : Nat) : Nat :=
  match op with
  | .popc => countOnes bits a
  | .clz => countLeading bits a
  | .ctz => countTrailing bits a

/-- One group of a VIA member (R122). -/
def State.runVia (s : State) (e : VEntry) (g : Nat) (op : ViaOp) (o : ViaOps) : VRun :=
  s.runElems e g o.d o.w.bits o.m fun vrf r el =>
    (viaValue op o.w.bits (vget vrf o.a.val o.w.bits r el) (vxGet vrf e o.b o.w.bits r el), 0)

/-- One group of a VIA member on one operand (R122). -/
def State.runViaUnary (s : State) (e : VEntry) (g : Nat) (op : ViaUnaryOp) (o : ViaUnaryOps) : VRun :=
  s.runElems e g o.d o.w.bits o.m fun vrf r el => (viaUnaryValue op o.w.bits (vget vrf o.a.val o.w.bits r el), 0)

/-- One group of VIAI (R123). -/
def State.runViai (s : State) (e : VEntry) (g : Nat) (op : ViaOp) (o : ViaiOps) : VRun :=
  s.runElems e g o.d o.w.bits 0 fun vrf r el =>
    (viaValue op o.w.bits (vget vrf o.a.val o.w.bits r el) (wrapTo o.w.bits o.imm.toInt), 0)

end Sys2Proof.Machine
end

