-- ==== Sys2Proof/Machine/VFloat.lean ====
section
/-! DEFINITION. Elementwise vector floating-point instructions and conversions (R124 to R127). -/

namespace Sys2Proof.Machine

/-- Bits of a floating format of the vector families. -/
def fbits (f : FFmt) : Nat := (FFmt.spec f).bits

/-- The rounding members of VFA (R124). -/
def vfaValue (op : VfaOp) (f : FSpec) (rm : Rounding) (a b : Nat) : Nat × Flags :=
  match op with
  | .add => f.add rm a b
  | .sub => f.sub rm a b
  | .mul => f.mul rm a b
  | .div => f.div rm a b

/-- VFMIN, VFMAX and VFSGNJ (R124). -/
def vfmmValue (op : VfmmOp) (f : FSpec) (a b : Nat) : Nat × Flags :=
  match op with
  | .min => f.minMax false a b
  | .max => f.minMax true a b
  | .sgnj => (a % f.signBit + b / f.signBit % 2 * f.signBit, 0)

/-- The members of VFMA (R125). -/
def vfmaValue (op : VfmaOp) (f : FSpec) (rm : Rounding) (a b c : Nat) : Nat × Flags :=
  match op with
  | .fma => f.fma rm false false a b c
  | .fms => f.fma rm false true a b c
  | .fnma => f.fma rm true true a b c
  | .fnms => f.fma rm true false a b c

/-- The rounding members of VFU (R126, R83). -/
def vfuValue (op : VfuOp) (f : FSpec) (rm : Rounding) (a : Nat) : Nat × Flags :=
  match op with
  | .sqrt => f.sqrt rm a
  | .rcp => f.rcp rm a
  | .rsq => f.rsq rm a
  | .exp2 => f.exp2 rm a
  | .log2 => f.log2 rm a

/-- VFABS, VFNEG and VFCLASS (R126). -/
def vfuNrValue (op : VfuNrOp) (f : FSpec) (a : Nat) : Nat :=
  match op with
  | .abs => a % f.signBit
  | .neg => a % f.signBit + (1 - a / f.signBit % 2) * f.signBit
  | .cls => f.classify a

/-- One group of VFADD, VFSUB, VFMUL or VFDIV (R124). -/
def State.runVfa (s : State) (e : VEntry) (g : Nat) (op : VfaOp) (o : VfaOps) : VRun :=
  let b := fbits o.fmt
  s.runElems e g o.d b o.m fun vrf r el =>
    vfaValue op (FFmt.spec o.fmt) o.rm (vget vrf o.a.val b r el) (vxGet vrf e o.b b r el)

/-- One group of VFMIN, VFMAX or VFSGNJ (R124). -/
def State.runVfmm (s : State) (e : VEntry) (g : Nat) (op : VfmmOp) (o : VfmmOps) : VRun :=
  let b := fbits o.fmt
  s.runElems e g o.d b o.m fun vrf r el =>
    vfmmValue op (FFmt.spec o.fmt) (vget vrf o.a.val b r el) (vxGet vrf e o.b b r el)

/-- One group of VFMA (R125). -/
def State.runVfma (s : State) (e : VEntry) (g : Nat) (op : VfmaOp) (o : VfmaOps) : VRun :=
  let b := fbits o.fmt
  s.runElems e g o.d b o.m fun vrf r el =>
    vfmaValue op (FFmt.spec o.fmt) o.rm (vget vrf o.a.val b r el) (vxGet vrf e o.b b r el) (vget vrf o.c.val b r el)

/-- One group of a rounding member of VFU (R126). -/
def State.runVfu (s : State) (e : VEntry) (g : Nat) (op : VfuOp) (o : VfuOps) : VRun :=
  let b := fbits o.fmt
  s.runElems e g o.d b o.m fun vrf r el => vfuValue op (FFmt.spec o.fmt) o.rm (vget vrf o.a.val b r el)

/-- One group of VFABS, VFNEG or VFCLASS (R126). -/
def State.runVfuNr (s : State) (e : VEntry) (g : Nat) (op : VfuNrOp) (o : VfuNrOps) : VRun :=
  let b := fbits o.fmt
  s.runElems e g o.d b o.m fun vrf r el => (vfuNrValue op (FFmt.spec o.fmt) (vget vrf o.a.val b r el), 0)

/-- Bits of a format code of R127; 8 for a reserved code, which no posted instruction holds. -/
def codeBits (c : Nat) : Nat := ((numFmt c).map NumFmt.bits).getD 8

/-- A conversion between format codes (R127). -/
def vcvtValue (src dst : Nat) (rm : Rounding) (sat : Bool) (a : Nat) : Nat × Flags :=
  match numFmt src, numFmt dst with
  | some f, some g => convertFmt f g rm sat a
  | _, _ => (a, 0)

/-- Whether VCVT is a reserved combination (R127, R70). -/
def vcvtReserved (o : VcvtOps) (vl : Nat) : Bool :=
  match numFmt o.src.val, numFmt o.dst.val with
  | some f, some g =>
    o.src == o.dst || (o.sat && !satAllowed f g) || ((f.bits == 4 || g.bits == 4) && vl % 2 == 1)
  | _, _ => true

/-- One group of VCVT (R127). -/
def State.runVcvt (s : State) (e : VEntry) (g : Nat) (o : VcvtOps) : VRun :=
  s.runElems e g o.d (codeBits o.dst.val) o.m fun vrf r el =>
    vcvtValue o.src.val o.dst.val o.rm o.sat (vget vrf o.a.val (codeBits o.src.val) r el)

end Sys2Proof.Machine
end

