-- ==== Sys2Proof/Machine/VMove.lean ====
section
/-! DEFINITION. Compare, select and move (R128 to R131). -/

namespace Sys2Proof.Machine

/-- Whether an integer condition holds of two elements (R53, R128). -/
def condHolds (c : Cond) (bits a b : Nat) : Bool :=
  match c with
  | .eq => a == b
  | .ne => a != b
  | .lt => decide (signedOf bits a < signedOf bits b)
  | .ge => !decide (signedOf bits a < signedOf bits b)
  | .ltu => decide (a < b)
  | .geu => !decide (a < b)

/-- One group of VCMP (R128). -/
def State.runVcmp (s : State) (e : VEntry) (g : Nat) (c : Cond) (o : VcmpOps) : VRun :=
  s.runMask e g o.d o.m fun vrf r el =>
    (condHolds c o.w.bits (vget vrf o.a.val o.w.bits r el) (vxGet vrf e o.b o.w.bits r el), 0)

/-- One group of VFCMP (R129). -/
def State.runVfcmp (s : State) (e : VEntry) (g : Nat) (c : FCond) (o : VfcmpOps) : VRun :=
  let b := fbits o.fmt
  s.runMask e g o.d o.m fun vrf r el =>
    (FFmt.spec o.fmt).compare c (vget vrf o.a.val b r el) (vxGet vrf e o.b b r el)

/-- One group of VSEL: every element is written (R130). -/
def State.runVsel (s : State) (e : VEntry) (g : Nat) (o : VselOps) : VRun :=
  let masks := s.sources.2
  s.runElems e g o.d o.w.bits 0 fun vrf r el =>
    (if mget masks o.m (r * e.vl + el) then vget vrf o.a.val o.w.bits r el else vxGet vrf e o.b o.w.bits r el, 0)

/-- One group of VMV (R131). -/
def State.runVmv (s : State) (e : VEntry) (g : Nat) (o : VmvOps) : VRun :=
  s.runElems e g o.d o.w.bits o.m fun vrf r el => (vget vrf o.a.val o.w.bits r el, 0)

/-- One group of VBCAST (R131). -/
def State.runVbcast (s : State) (e : VEntry) (g : Nat) (o : VbcastOps) : VRun :=
  s.runElems e g o.d o.w.bits o.m fun _ _ _ => (e.x0.toNat % 2 ^ o.w.bits, 0)

/-- The number of ones of a mask at `n` positions from `p`. -/
def maskOnes (masks : Mem) (m : MReg) (p : Nat) : Nat → Nat
  | 0 => 0
  | n + 1 => bit01 (mget masks m p) + maskOnes masks m (p + 1) n

/-- One group of VIOTA (R131). -/
def State.runViota (s : State) (e : VEntry) (g : Nat) (o : ViotaOps) : VRun :=
  let masks := s.sources.2
  s.runElems e g o.d o.w.bits o.m fun _ r el => (maskOnes masks o.a (r * e.vl) el % 2 ^ o.w.bits, 0)

/-- A scalar result of the oldest entry, delivered at retirement (R142). -/
def State.setScalar (s : State) (d : XReg) (v : Word) : State := s.withResult fun r => { r with scalar := some (d, v) }

/-- VMVXS (R131): the element at a position, or 0 outside the tile. -/
def State.runVmvxs (s : State) (e : VEntry) (o : VmvxsOps) : VRun :=
  let p := e.x0.toNat
  let v := vget s.sources.1 o.a.val o.w.bits (p / e.vl) (p % e.vl)
  ran (s.setScalar o.d
    (if p < e.vrows * e.vl then
      (if o.sgn then BitVec.ofInt 64 (signedOf o.w.bits v) else BitVec.ofNat 64 v) else 0))

/-- VMVSX (R131): only the element at a position is written; nothing outside the tile. -/
def State.runVmvsx (s : State) (e : VEntry) (o : VmvsxOps) : VRun :=
  let p := e.x1.toNat
  if p < e.vrows * e.vl then
    ran (s.setVrf (vset s.hart.vrf o.d.val o.w.bits (p / e.vl) (p % e.vl) (e.x0.toNat % 2 ^ o.w.bits)))
  else ran s

end Sys2Proof.Machine
end

