-- ==== Sys2Proof/Machine/VReduce.lean ====
section
/-! DEFINITION. Reductions and scans (R84, R85, R146 to R150). -/

namespace Sys2Proof.Machine

/-- A position of a span: its index for VREDI, its row and element, and whether it is active. -/
structure SpanPos where
  index : Nat
  row : Nat
  el : Nat
  active : Bool
deriving DecidableEq, Repr

/-- The positions of row `r` (axis ROW). -/
def rowSpan (vl : Nat) (masks : Mem) (m : MReg) (r : Nat) : List SpanPos :=
  (List.range vl).map fun e => ⟨e, r, e, mget masks m (r * vl + e)⟩

/-- The spans of a tile (R146): one per row, or one of the whole tile in row-major order. -/
def tileSpans (ax : Axis) (rows vl : Nat) (masks : Mem) (m : MReg) : List (List SpanPos) :=
  match ax with
  | .row => (List.range rows).map fun r => rowSpan vl masks m r
  | .all =>
    [((List.range rows).map fun r =>
      (rowSpan vl masks m r).map fun p => { p with index := r * vl + p.el }).flatten]

/-- The spans of an entry with its mask. -/
def State.spans (s : State) (e : VEntry) (ax : Axis) (m : MReg) : List (List SpanPos) :=
  tileSpans ax e.vrows e.vl s.sources.2 m

/-- The active values of a span. -/
def activeValues (vrf : Mem) (a : VReg) (bits : Nat) (ps : List SpanPos) : List Nat :=
  (ps.filter fun p => p.active).map fun p => vget vrf a.val bits p.row p.el

/-- Results of the spans written to element 0 of their rows (R146). -/
def writeFirsts (d bits : Nat) : Nat → List Nat → Mem → Mem
  | _, [], vrf => vrf
  | r, v :: rest, vrf => writeFirsts d bits (r + 1) rest (vset vrf d bits r 0 v)

/-- A reduction whose spans reduce to bits and flags (R146); nothing is written at VL = 0 (R92). -/
def State.runReduce (s : State) (e : VEntry) (d a : VReg) (bits : Nat) (ax : Axis) (m : MReg)
    (f : List SpanPos → List Nat → Nat × Flags) : VRun :=
  let vrf := s.sources.1
  let rs := if e.vl = 0 then [] else (s.spans e ax m).map fun ps => f ps (activeValues vrf a bits ps)
  ran ((s.setVrf (writeFirsts d.val bits 0 (rs.map fun q => q.1) s.hart.vrf)).gather
    (rs.foldl (fun fl q => fl ||| q.2) 0))

/-- The value of an integer reduction with no active element (R147). -/
def redIdentity (op : RedOp) (bits : Nat) : Nat :=
  match op with
  | .sum => 0
  | .min => 2 ^ (bits - 1) - 1
  | .max => 2 ^ (bits - 1)
  | .minu => 2 ^ bits - 1
  | .maxu => 0
  | .and => 2 ^ bits - 1
  | .or => 0
  | .xor => 0

/-- Two elements combined by an integer reduction. -/
def redCombine (op : RedOp) (bits a b : Nat) : Nat :=
  match op with
  | .sum => (a + b) % 2 ^ bits
  | .min => viaValue .min bits a b
  | .max => viaValue .max bits a b
  | .minu => min a b
  | .maxu => max a b
  | .and => a &&& b
  | .or => a ||| b
  | .xor => a ^^^ b

/-- An integer reduction (R85, R147). -/
def redValue (op : RedOp) (sat : Bool) (bits : Nat) (vs : List Nat) : Nat :=
  if sat && op == .sum then saturate bits ((vs.map fun v => signedOf bits v).sum)
  else vs.foldl (redCombine op bits) (redIdentity op bits)

/-- VRED on integers (R147). -/
def State.runVred (s : State) (e : VEntry) (op : RedOp) (sat : Bool) (o : VredOps) : VRun :=
  s.runReduce e o.d o.a o.w.bits o.axis o.m fun _ vs => (redValue op sat o.w.bits vs, 0)

/-- Two places of the reduction tree combined (R84). -/
def treeCombine (add : Nat → Nat → Nat × Flags) : Option Nat → Option Nat → Option Nat × Flags
  | some a, some b => (some (add a b).1, (add a b).2)
  | some a, none => (some a, 0)
  | none, b => (b, 0)

/-- One level of the reduction tree (R84). -/
def treeLevel (add : Nat → Nat → Nat × Flags) : List (Option Nat) → List (Option Nat) × Flags
  | a :: b :: rest =>
    let (c, fl) := treeCombine add a b
    let (cs, gl) := treeLevel add rest
    (c :: cs, fl ||| gl)
  | l => (l, 0)

/-- The reduction tree (R84); a place beyond the list is absent. -/
def treeReduce (add : Nat → Nat → Nat × Flags) : Nat → List (Option Nat) → Option Nat × Flags
  | 0, l => (l.head?.join, 0)
  | n + 1, l =>
    match l with
    | [] => (none, 0)
    | [a] => (a, 0)
    | l =>
      let (l', fl) := treeLevel add l
      let (r, gl) := treeReduce add n l'
      (r, fl ||| gl)

/-- VREDFSUM (R84, R147). -/
def State.runVredFsum (s : State) (e : VEntry) (o : VredFsumOps) : VRun :=
  let b := fbits o.fmt
  let vrf := s.sources.1
  s.runReduce e o.d o.a b o.axis o.m fun ps _ =>
    let leaves := ps.map fun p => if p.active then some (vget vrf o.a.val b p.row p.el) else none
    let (r, fl) := treeReduce ((FFmt.spec o.fmt).add o.rm) leaves.length leaves
    (r.getD 0, fl)

/-- VREDFMIN and VREDFMAX over values (R147). -/
def fredValue (f : FSpec) (isMax : Bool) (vs : List Nat) : Nat × Flags :=
  let real := vs.filter fun v => !(f.decode v).isNan
  if vs.any fun v => (f.decode v).isSignalling then (f.canonicalNan, flagNV)
  else
    match real with
    | [] => (if vs.isEmpty then f.signed isMax f.infinity else f.canonicalNan, 0)
    | v :: rest => (rest.foldl (fun a b => (f.minMax isMax a b).1) v, 0)

/-- VREDFMIN and VREDFMAX (R147). -/
def State.runVredFmm (s : State) (e : VEntry) (isMax : Bool) (o : VredFmmOps) : VRun :=
  s.runReduce e o.d o.a (fbits o.fmt) o.axis o.m fun _ vs => fredValue (FFmt.spec o.fmt) isMax vs

/-- The first of the values that `better` prefers to every other: the lowest index wins among equals (R148). -/
def bestOf (better : Nat → Nat → Bool) : List (Nat × Nat) → Option (Nat × Nat)
  | [] => none
  | (v, i) :: rest =>
    match bestOf better rest with
    | some (w, j) => if better w v then some (w, j) else some (v, i)
    | none => some (v, i)

/-- A reduction to a value and its index (R148); nothing is written at VL = 0 (R92). -/
def State.runReduceIndex (s : State) (e : VEntry) (d a : VReg) (bits : Nat) (ax : Axis) (m : MReg)
    (f : List (Nat × Nat) → (Nat × Nat) × Flags) : VRun :=
  let vrf := s.sources.1
  let rs := if e.vl = 0 then [] else (s.spans e ax m).map fun ps =>
    f ((ps.filter fun p => p.active).map fun p => (vget vrf a.val bits p.row p.el, p.index))
  let v1 := writeFirsts d.val bits 0 (rs.map fun q => q.1.1) s.hart.vrf
  let v2 := writeFirsts (oddMember d).val 32 0 (rs.map fun q => q.1.2) v1
  ran ((s.setVrf v2).gather (rs.foldl (fun fl q => fl ||| q.2) 0))

/-- VREDMINI and VREDMAXI (R148). -/
def State.runVredi (s : State) (e : VEntry) (isMax : Bool) (o : VredOps) : VRun :=
  let b := o.w.bits
  let better := fun x y =>
    if isMax then decide (signedOf b y < signedOf b x) else decide (signedOf b x < signedOf b y)
  s.runReduceIndex e o.d o.a b o.axis o.m fun vs =>
    ((bestOf better vs).getD (redIdentity (if isMax then .max else .min) b, 0xFFFFFFFF), 0)

/-- VREDFMINI and VREDFMAXI over values (R148). -/
def fredIndexValue (f : FSpec) (isMax : Bool) (vs : List (Nat × Nat)) : (Nat × Nat) × Flags :=
  let better := fun x y => if isMax then f.ltZ y x else f.ltZ x y
  let fl : Flags := if vs.any fun v => (f.decode v.1).isSignalling then flagNV else 0
  match bestOf better (vs.filter fun v => !(f.decode v.1).isNan), vs with
  | some r, _ => (r, fl)
  | none, [] => ((f.signed isMax f.infinity, 0xFFFFFFFF), fl)
  | none, (_, i) :: _ => ((f.canonicalNan, i), fl)

/-- VREDFMINI and VREDFMAXI (R148). -/
def State.runVredfi (s : State) (e : VEntry) (isMax : Bool) (o : VredFmmOps) : VRun :=
  s.runReduceIndex e o.d o.a (fbits o.fmt) o.axis o.m (fredIndexValue (FFmt.spec o.fmt) isMax)

/-- The scan of one span (R150): outputs at the active positions. -/
def scanSpan (vrf : Mem) (a d bits : Nat) (excl : Bool) (identity : Nat) (combine : Nat → Nat → Nat × Flags) :
    List SpanPos → Option Nat → Mem × Flags → Mem × Flags
  | [], _, acc => acc
  | p :: rest, before, (out, fl) =>
    if p.active then
      let v := vget vrf a bits p.row p.el
      let (now, g) : Nat × Flags :=
        match before with
        | some b => combine b v
        | none => (v, 0)
      let w := if excl then before.getD identity else now
      scanSpan vrf a d bits excl identity combine rest (some now) (vset out d bits p.row p.el w, fl ||| g)
    else scanSpan vrf a d bits excl identity combine rest before (out, fl)

/-- A scan (R150). -/
def State.runScan (s : State) (e : VEntry) (d a : VReg) (bits : Nat) (ax : Axis) (m : MReg) (excl : Bool)
    (identity : Nat) (combine : Nat → Nat → Nat × Flags) : VRun :=
  let vrf := s.sources.1
  let (out, fl) := (s.spans e ax m).foldl
    (fun acc ps => scanSpan vrf a.val d.val bits excl identity combine ps none acc) (s.hart.vrf, 0)
  ran ((s.setVrf out).gather fl)

/-- The integer operator of a scan (R149). -/
def scanRed : ScanOp → RedOp
  | .sum => .sum
  | .max => .max
  | .maxu => .maxu

/-- VSCAN on integers (R149). -/
def State.runVscan (s : State) (e : VEntry) (op : ScanOp) (excl : Bool) (o : VscanOps) : VRun :=
  s.runScan e o.d o.a o.w.bits o.axis o.m excl (redIdentity (scanRed op) o.w.bits)
    fun a b => (redCombine (scanRed op) o.w.bits a b, 0)

/-- VSCANFSUM and VXSCANFSUM (R149, R150). -/
def State.runVscanFsum (s : State) (e : VEntry) (excl : Bool) (o : VscanFsumOps) : VRun :=
  s.runScan e o.d o.a (fbits o.fmt) o.axis o.m excl 0 ((FFmt.spec o.fmt).add o.rm)

/-- VSCANFMAX and VXSCANFMAX (R149). -/
def State.runVscanFmax (s : State) (e : VEntry) (excl : Bool) (o : VscanFmaxOps) : VRun :=
  let f := FFmt.spec o.fmt
  s.runScan e o.d o.a (fbits o.fmt) o.axis o.m excl (f.signed true f.infinity) (f.minMax true)

end Sys2Proof.Machine
end

