-- ==== Sys2Proof/Machine/VPerm.lean ====
section
/-! DEFINITION. Permutations and mask arithmetic (R151 to R156). -/

namespace Sys2Proof.Machine

/-- The element at a position of a tile in row-major order. -/
def pget (vrf : Mem) (r : Nat) (bits vl p : Nat) : Nat := vget vrf r bits (p / vl) (p % vl)

/-- The element at a position of a tile, written. -/
def pset (vrf : Mem) (r : Nat) (bits vl p v : Nat) : Mem := vset vrf r bits (p / vl) (p % vl) v

/-- The active positions of a tile in order. -/
def activePositions (rows vl : Nat) (masks : Mem) (m : MReg) : List Nat :=
  (List.range (rows * vl)).filter fun p => mget masks m p

/-- A count delivered at retirement, to its register and to VSTAT.CNT (R142). -/
def State.setCount (s : State) (d : XReg) (c : Nat) : State :=
  s.withResult fun r => { r with scalar := some (d, BitVec.ofNat 64 c), count := some c }

/-- Values written at positions `q`, `q + 1`, and so on. -/
def writeRun (d bits vl : Nat) : Nat → List Nat → Mem → Mem
  | _, [], vrf => vrf
  | q, v :: rest, vrf => writeRun d bits vl (q + 1) rest (pset vrf d bits vl q v)

/-- VCOMPRESS (R152). -/
def State.runVcompress (s : State) (e : VEntry) (o : VcompressOps) : VRun :=
  let (vrf, masks) := s.sources
  let vs := (activePositions e.vrows e.vl masks o.m).map fun p => pget vrf o.a.val o.w.bits e.vl p
  ran ((s.setVrf (writeRun o.d.val o.w.bits e.vl 0 vs s.hart.vrf)).setCount o.cnt vs.length)

/-- Elements 0, 1, 2 … of a source written to a list of positions (R152). -/
def expandTo (vrf : Mem) (a d bits vl : Nat) : Nat → List Nat → Mem → Mem
  | _, [], out => out
  | j, p :: rest, out => expandTo vrf a d bits vl (j + 1) rest (pset out d bits vl p (pget vrf a bits vl j))

/-- VEXPAND (R152). -/
def State.runVexpand (s : State) (e : VEntry) (o : VpermOps) : VRun :=
  let (vrf, masks) := s.sources
  ran (s.setVrf (expandTo vrf o.a.val o.d.val o.w.bits e.vl 0 (activePositions e.vrows e.vl masks o.m) s.hart.vrf))

/-- A permutation that writes active positions, each from the value `f` gives for its row and element; no value leaves
the element undisturbed (R153). -/
def State.runPermute (s : State) (e : VEntry) (d : VReg) (bits : Nat) (m : MReg) (f : Mem → Nat → Nat → Option Nat) :
    VRun :=
  let (vrf, masks) := s.sources
  ran (s.setVrf ((activePositions e.vrows e.vl masks m).foldl
    (fun out p =>
      match f vrf (p / e.vl) (p % e.vl) with
      | some v => pset out d.val bits e.vl p v
      | none => out) s.hart.vrf))

/-- VGATHR (R153). -/
def State.runVgathr (s : State) (e : VEntry) (o : VgathrOps) : VRun :=
  s.runPermute e o.d o.w.bits o.m fun vrf r el =>
    let q := vget vrf o.idx.val 32 r el
    some (if q < e.vrows * e.vl then pget vrf o.a.val o.w.bits e.vl q else 0)

/-- VSLIDEUP (R153). -/
def State.runVslideup (s : State) (e : VEntry) (o : VslideOps) : VRun :=
  s.runPermute e o.d o.w.bits o.m fun vrf r el =>
    if e.x0.toNat ≤ el then some (vget vrf o.a.val o.w.bits r (el - e.x0.toNat)) else none

/-- VSLIDEDN (R153). -/
def State.runVslidedn (s : State) (e : VEntry) (o : VslideOps) : VRun :=
  s.runPermute e o.d o.w.bits o.m fun vrf r el =>
    some (if el + e.x0.toNat < e.vl then vget vrf o.a.val o.w.bits r (el + e.x0.toNat) else 0)

/-- VTRANS (R154). -/
def State.runVtrans (s : State) (e : VEntry) (o : VpermOps) : VRun :=
  s.runPermute e o.d o.w.bits o.m fun vrf r el => some (vget vrf o.a.val o.w.bits el r)

/-- VROWBC (R153). -/
def State.runVrowbc (s : State) (e : VEntry) (o : VslideOps) : VRun :=
  s.runPermute e o.d o.w.bits o.m fun vrf _ el =>
    some (if e.x0.toNat < e.vrows then vget vrf o.a.val o.w.bits e.x0.toNat el else 0)

/-! ### Masks -/

/-- The active positions of a mask operation; positions beyond the mask registers do not exist (R155). -/
def State.mopPositions (s : State) (e : VEntry) (m : MReg) : List Nat :=
  (List.range (min (e.vrows * e.vl) maskPositions)).filter fun p => mget s.sources.2 m p

/-- A mask destination written at the active positions (R155). -/
def State.runMaskOp (s : State) (e : VEntry) (d m : MReg) (f : Mem → Nat → Bool) : VRun :=
  let masks := s.sources.2
  ran (s.setMasks ((s.mopPositions e m).foldl (fun out p => mset out d p (f masks p)) s.hart.masks))

/-- The two-operand mask members (R155). -/
def mopValue (op : MopOp) (a b : Bool) : Bool :=
  match op with
  | .and => a && b
  | .or => a || b
  | .xor => a != b
  | .andn => a && !b

/-- MAND, MOR, MXOR and MANDN (R155). -/
def State.runMop (s : State) (e : VEntry) (op : MopOp) (o : MopOps) : VRun :=
  s.runMaskOp e o.d o.m fun masks p => mopValue op (mget masks o.a p) (mget masks o.b p)

/-- MNOT (R155). -/
def State.runMnot (s : State) (e : VEntry) (o : MnotOps) : VRun :=
  s.runMaskOp e o.d o.m fun masks p => !mget masks o.a p

/-- MSET (R155). -/
def State.runMset (s : State) (e : VEntry) (o : MsetOps) : VRun :=
  s.runMaskOp e o.d o.m fun _ p => decide (p < e.x0.toNat)

/-- MCNT, MANY and MFST (R155). -/
def State.runMcnt (s : State) (e : VEntry) (op : McntOp) (o : McntOps) : VRun :=
  let ps := (s.mopPositions e o.m).filter fun p => mget s.sources.2 o.a p
  ran (s.setScalar o.d
    (match op with
    | .cnt => BitVec.ofNat 64 ps.length
    | .any => if ps.isEmpty then 0 else 1
    | .fst =>
      match ps with
      | p :: _ => BitVec.ofNat 64 p
      | [] => BitVec.allOnes 64))

end Sys2Proof.Machine
end

