-- ==== Sys2Proof/Machine/VMerge.lean ====
section
/-! DEFINITION. Sorting, selection and the merge unit (R157 to R164). -/

namespace Sys2Proof.Machine

/-- A value put into a sorted list, before the values that do not come before it. -/
def insertBy {α : Type} (before : α → α → Bool) (x : α) : List α → List α
  | [] => [x]
  | y :: rest => if before y x then y :: insertBy before x rest else x :: y :: rest

/-- A stable sort. -/
def sortBy {α : Type} (before : α → α → Bool) : List α → List α
  | [] => []
  | x :: rest => insertBy before x (sortBy before rest)

/-- A list of pairs written to a row from element `j`: first members in one register, second members in the next. -/
def writePairs (d d2 bits bits2 row : Nat) : Nat → List (Nat × Nat) → Mem → Mem
  | _, [], out => out
  | j, (a, b) :: rest, out =>
    writePairs d d2 bits bits2 row (j + 1) rest (vset (vset out d bits row j a) d2 bits2 row j b)

/-- The active elements of a row with their indices (R157, R158). -/
def rowPairs (vrf : Mem) (a bits vl : Nat) (masks : Mem) (m : MReg) (r : Nat) : List (Nat × Nat) :=
  ((List.range vl).filter fun e => mget masks m (r * vl + e)).map fun e => (vget vrf a bits r e, e)

/-- The order of VSORT's keys (R157). -/
def sortBefore (bits : Nat) (sgn desc : Bool) (a b : Nat × Nat) : Bool :=
  let lt := fun x y => if sgn then decide (signedOf bits x < signedOf bits y) else decide (x < y)
  if desc then lt b.1 a.1 else lt a.1 b.1

/-- VSORT (R157). -/
def State.runVsort (s : State) (e : VEntry) (o : VsortOps) : VRun :=
  let (vrf, masks) := s.sources
  let b := o.w.bits
  ran (s.setVrf ((List.range e.vrows).foldl
    (fun out r =>
      writePairs o.d.val (oddMember o.d).val b 32 r 0
        (sortBy (sortBefore b o.sgn o.desc) (rowPairs vrf o.a.val b e.vl masks o.m r)) out) s.hart.vrf))

/-- The floating format of a value format; none for .i32 (R158). -/
def valSpec : ValFmt → Option FSpec
  | .f32 => some fp32
  | .f64 => some fp64
  | .f16 => some fp16
  | .bf16 => some fpBf16
  | .i32 => none

/-- Bits of a value format. -/
def valBits (f : ValFmt) : Nat := ((valSpec f).map FSpec.bits).getD 32

/-- The rank of VTOPK: whether `a` comes before `b` (R159). -/
def topBefore (f : ValFmt) (a b : Nat × Nat) : Bool :=
  match valSpec f with
  | none => decide (signedOf 32 b.1 < signedOf 32 a.1)
  | some g =>
    if (g.decode a.1).isNan then !(g.decode b.1).isNan
    else if (g.decode b.1).isNan then false
    else g.ltZ b.1 a.1

/-- Whether a value is zero in its format. -/
def valZero (f : ValFmt) (v : Nat) : Bool :=
  match valSpec f with
  | none => v == 0
  | some g => (g.decode v).isZero

/-- The fill value of VTOPK (R159). -/
def topFill (f : ValFmt) : Nat :=
  match valSpec f with
  | none => 0x80000000
  | some g => g.signed true g.infinity

/-- One row of VTOPK: its `k` results and how many candidates were taken (R159). -/
def topRow (f : ValFmt) (nz : Bool) (k : Nat) (cs : List (Nat × Nat)) : List (Nat × Nat) × Nat :=
  let ranked := (sortBy (topBefore f) (cs.filter fun c => !(nz && valZero f c.1))).take k
  (ranked ++ List.replicate (k - ranked.length) (topFill f, 0xFFFFFFFF), ranked.length)

/-- VTOPK (R158, R159). -/
def State.runVtopk (s : State) (e : VEntry) (o : VtopkOps) : VRun :=
  let (vrf, masks) := s.sources
  let b := valBits o.fmt
  let rows := (List.range e.vrows).map fun r =>
    topRow o.fmt o.nz e.x0.toNat (rowPairs vrf o.a.val b e.vl masks o.m r)
  let out := (rows.zipIdx).foldl
    (fun out q => writePairs o.d.val (oddMember o.d).val b 32 q.2 0 q.1.1 out) s.hart.vrf
  ran ((s.setVrf out).setCount o.cnt ((rows.map fun q => q.2).sum))

/-! ### Lists -/

/-- What a merge procedure answers: the pairs emitted, newest first, the flags and the order violation (R144, R161). -/
structure MergeOut where
  emitted : List (Nat × Nat)
  flags : Flags
  violation : Option (Bool × Nat)

/-- Whether element `i` of a list of length `n` breaks the strict order (R161). -/
def breaksOrder (idx : Nat → Nat) (i n : Nat) : Bool := decide (i < n) && decide (0 < i) && decide (idx i ≤ idx (i - 1))

/-- The procedure of R161 from heads `i` and `j`; `eq` gives what equal indices emit, newest first. -/
def mergeLoop (inter : Bool) (ia va ib vb : Nat → Nat) (na nb : Nat)
    (eq : Nat → Nat → Nat → List (Nat × Nat) × Flags) : Nat → Nat → Nat → MergeOut → MergeOut
  | 0, _, _, out => out
  | n + 1, i, j, out =>
    if breaksOrder ia i na then { out with violation := some (false, i) }
    else if breaksOrder ib j nb then { out with violation := some (true, j) }
    else if i = na ∧ j = nb then out
    else if inter ∧ (i = na ∨ j = nb) then out
    else if j = nb ∨ (i < na ∧ ia i < ib j) then
      mergeLoop inter ia va ib vb na nb eq n (i + 1) j
        (if inter then out else { out with emitted := (ia i, va i) :: out.emitted })
    else if i = na ∨ ib j < ia i then
      mergeLoop inter ia va ib vb na nb eq n i (j + 1)
        (if inter then out else { out with emitted := (ib j, vb j) :: out.emitted })
    else
      let (es, fl) := eq (ia i) (va i) (vb j)
      mergeLoop inter ia va ib vb na nb eq n (i + 1) (j + 1)
        { out with emitted := es ++ out.emitted, flags := out.flags ||| fl }

/-- Pairs written to a register pair from position 0 (R161). -/
def writeList (d bits vl : Nat) : Nat → List (Nat × Nat) → Mem → Mem
  | _, [], out => out
  | q, (k, v) :: rest, out => writeList d bits vl (q + 1) rest (pset (pset out d 32 vl q k) (d + 1) bits vl q v)

/-- The outputs of a list instruction delivered: pairs, count, flags and order violation (R144, R161). -/
def State.deliverList (s : State) (e : VEntry) (d : VReg) (bits : Nat) (cnt : XReg) (out : MergeOut) : VRun :=
  let es := out.emitted.reverse
  let s := (s.setVrf (writeList d.val bits e.vl 0 es s.hart.vrf)).setCount cnt es.length
  ran ((s.gather out.flags).withResult fun r => { r with order := out.violation })

/-- The two lengths of a merge (R161). -/
def mergeLens (lens : Word) : Nat × Nat := (lens.toNat % 2 ^ 32, lens.toNat / 2 ^ 32)

/-- Whether the lengths of a merge break R161. -/
def lensReserved (lens : Word) (cap : Nat) (joins : Bool) : Bool :=
  let (na, nb) := mergeLens lens
  decide (cap < na) || decide (cap < nb) || (joins && decide (cap < na + nb))

/-- A merge of two lists (R161). -/
def State.runLists (s : State) (e : VEntry) (d a b : VReg) (bits : Nat) (cnt : XReg) (inter : Bool)
    (eq : Nat → Nat → Nat → List (Nat × Nat) × Flags) : VRun :=
  let vrf := s.sources.1
  let (na, nb) := mergeLens e.x0
  let idx := fun (r : VReg) p => pget vrf r.val 32 e.vl p
  let val := fun (r : VReg) p => pget vrf (oddMember r).val bits e.vl p
  s.deliverList e d bits cnt (mergeLoop inter (idx a) (val a) (idx b) (val b) na nb eq (na + nb + 1) 0 0 ⟨[], 0, none⟩)

/-- VMRG (R162). -/
def State.runVmrg (s : State) (e : VEntry) (o : VmrgOps) : VRun :=
  s.runLists e o.d o.a o.b o.w.bits o.cnt false fun k x y => ([(k, y), (k, x)], 0)

/-- The combine modes of VSET (R163). -/
def setCombine (mode : SetMode) (f : ValFmt) (rm : Rounding) (a b : Nat) : Nat × Flags :=
  match mode, valSpec f with
  | .add, some g => g.add rm a b
  | .add, none => ((a + b) % 2 ^ 32, 0)
  | .max, some g => g.minMax true a b
  | .max, none => (viaValue .max 32 a b, 0)
  | .first, _ => (a, 0)
  | .mul, some g => g.mul rm a b
  | .mul, none => (a * b % 2 ^ 32, 0)

/-- VUNION and VINTER (R163). -/
def State.runVset (s : State) (e : VEntry) (inter : Bool) (mode : SetMode) (o : VsetOps) : VRun :=
  s.runLists e o.d o.a o.b (valBits o.fmt) o.cnt inter fun k x y =>
    let (c, fl) := setCombine mode o.fmt o.rm x y
    (if o.dz && valZero o.fmt c then [] else [(k, c)], fl)

/-- The open run of VSEGR: its key and accumulator, with what is emitted, newest first. -/
structure SegRun where
  prev : Option (Nat × Nat)
  out : MergeOut

/-- The procedure of R164 over keys and values; `q` is the ordinal among active elements. -/
def segLoop (combine : Nat → Nat → Nat × Flags) : List (Nat × Nat) → Nat → SegRun → SegRun
  | [], _, r => r
  | (k, v) :: rest, q, r =>
    match r.prev with
    | none => segLoop combine rest (q + 1) { r with prev := some (k, v) }
    | some (p, acc) =>
      if k < p then { r with out := { r.out with violation := some (false, q) } }
      else if k = p then
        let (c, fl) := combine acc v
        segLoop combine rest (q + 1) ⟨some (p, c), { r.out with flags := r.out.flags ||| fl }⟩
      else segLoop combine rest (q + 1) ⟨some (k, v), { r.out with emitted := (p, acc) :: r.out.emitted }⟩

/-- VSEGR (R164). -/
def State.runSegments (s : State) (e : VEntry) (d a : VReg) (bits : Nat) (cnt : XReg) (m : MReg)
    (combine : Nat → Nat → Nat × Flags) : VRun :=
  let (vrf, masks) := s.sources
  let items := (activePositions e.vrows e.vl masks m).map fun p =>
    (pget vrf a.val 32 e.vl p, pget vrf (oddMember a).val bits e.vl p)
  let r := segLoop combine items 0 ⟨none, ⟨[], 0, none⟩⟩
  let out :=
    match r.prev with
    | some p => { r.out with emitted := p :: r.out.emitted }
    | none => r.out
  s.deliverList e d bits cnt out

/-- VSEGR on integers (R164). -/
def State.runVsegr (s : State) (e : VEntry) (op : RedOp) (o : VsegrOps) : VRun :=
  s.runSegments e o.d o.a o.w.bits o.cnt o.m fun x y => (redCombine op o.w.bits x y, 0)

/-- VSEGRFSUM (R164). -/
def State.runVsegrFsum (s : State) (e : VEntry) (o : VsegrFsumOps) : VRun :=
  s.runSegments e o.d o.a (fbits o.fmt) o.cnt o.m ((FFmt.spec o.fmt).add o.rm)

/-- VSEGRFMIN and VSEGRFMAX (R164). -/
def State.runVsegrFmm (s : State) (e : VEntry) (isMax : Bool) (o : VsegrFmmOps) : VRun :=
  s.runSegments e o.d o.a (fbits o.fmt) o.cnt o.m ((FFmt.spec o.fmt).minMax isMax)

end Sys2Proof.Machine
end

