-- ==== Sys2Proof/Machine/VMem.lean ====
section
/-! DEFINITION. Vector loads, stores and atomics (R132 to R139, R253). -/

namespace Sys2Proof.Machine

/-- One active element of a vector memory instruction: its row, its element and its address. -/
structure MemElem where
  row : Nat
  el : Nat
  va : Word
deriving DecidableEq, Repr

/-- The position of an element. -/
def MemElem.pos (e : VEntry) (m : MemElem) : Nat := m.row * e.vl + m.el

/-- The address of an element of VLD and VST, or of VLDS and VSTS (R132): `x0` is the base, `x1` the pitch or stride. -/
def pitchAddr (e : VEntry) (strided : Bool) (bytes r el : Nat) : Word :=
  if strided then e.x0 + BitVec.ofNat 64 (r * e.vl + el) * e.x1
  else e.x0 + BitVec.ofNat 64 r * e.x1 + BitVec.ofNat 64 (el * bytes)

/-- The address of an element of an indexed form (R135). -/
def indexAddr (e : VEntry) (vrf : Mem) (idx : VReg) (r el : Nat) : Word :=
  e.x0 + (BitVec.ofNat 32 (vget vrf idx.val 32 r el)).signExtend 64

/-- The active elements of a list with their addresses. -/
def memElems (masks : Mem) (m : MReg) (vl : Nat) (addr : Nat → Nat → Word) (es : List (Nat × Nat)) : List MemElem :=
  (es.filter fun p => mget masks m (p.1 * vl + p.2)).map fun p => ⟨p.1, p.2, addr p.1 p.2⟩

/-- The lowest misaligned element (R133). -/
def misaligned (bytes : Nat) (es : List MemElem) : Option MemElem := es.find? fun m => !aligned m.va bytes

/-- What an element's access check gave: its place, or its failure. -/
structure MemPlace where
  elem : MemElem
  res : Except AccFault (Nat × PageKind)

/-- One element translated and, for a store or an atomic, checked at its target; for a load, its granules checked. -/
def State.placeElem (s : State) (e : VEntry) (k : AccessKind) (bytes : Nat) (m : MemElem) : State × MemPlace :=
  match s.locateAt e.level k m.va with
  | (s, .error f) => (s, ⟨m, .error f⟩)
  | (s, .ok (pa, kind)) =>
    match k with
    | .store =>
      match s.checkAt .store pa with
      | (s, .error f) => (s, ⟨m, .error f⟩)
      | (s, .ok ()) => (s, ⟨m, .ok (pa, kind)⟩)
    | _ =>
      match s.readAt k pa bytes kind e.seq with
      | (s, .error f) => (s, ⟨m, .error f⟩)
      | (s, .ok _) => (s, ⟨m, .ok (pa, kind)⟩)

/-- Every element of a list translated and checked. -/
def State.placeElems (s : State) (e : VEntry) (k : AccessKind) (bytes : Nat) : List MemElem → State × List MemPlace
  | [] => (s, [])
  | m :: rest =>
    let (s, p) := s.placeElem e k bytes m
    let (s, ps) := s.placeElems e k bytes rest
    (s, p :: ps)

/-- Whether a place failed by an uncorrectable error. -/
def MemPlace.ecc (p : MemPlace) : Option Nat :=
  match p.res with
  | .error (.ecc g) => some g
  | _ => none

/-- Whether a place has no path to its target. -/
def MemPlace.noPath (p : MemPlace) : Bool :=
  match p.res with
  | .error .noPath => true
  | _ => false

/-- The fault of a place. -/
def MemPlace.fault (p : MemPlace) : Option (Nat × Nat × Nat) :=
  match p.res with
  | .error (.fault c r l) => some (c, r, l)
  | _ => none

/-- Whether a place succeeded. -/
def MemPlace.good (p : MemPlace) : Bool :=
  match p.res with
  | .ok _ => true
  | .error _ => false

/-- The physical address and page kind of a place that succeeded. -/
def MemPlace.place (p : MemPlace) : Nat × PageKind :=
  match p.res with
  | .ok q => q
  | .error _ => (0, .rc)

/-- The stop for an uncorrectable granule (R380). -/
def State.eccStop (s : State) (g : Nat) : VStop := .ecc (s.granuleSrc g) (some g) true

/-- The wait of an access without a path (R391). -/
def State.pathWait (s : State) : VRun := stopped (s.block (.remote false)) .wait

/-- Whether performing some elements commits the strip: one lies on an SO page (R236), a vector atomic has scope .c or wider
(R253), or the strip store buffer would overflow (R24). -/
def State.commitsAt (s : State) (e : VEntry) (k : AccessKind) (bytes : Nat) (ps : List MemPlace) : Bool :=
  (ps.any fun p => p.good && p.place.2 == .so) ||
    (match e.instr with
    | .vamo _ o => Scope.shared o.scope
    | _ => false) ||
    (k != .load && s.hart.wouldOverflow (bytes * ps.length))

/-- The uncorrectable granule that some elements consume: one that an element reads, or the strip store buffer's where they commit
it (R380). -/
def State.eccAmong (s : State) (e : VEntry) (k : AccessKind) (bytes : Nat) (ps : List MemPlace) : Option Nat :=
  match ps.findSome? MemPlace.ecc with
  | some g => some g
  | none => if s.badBuffer && s.commitsAt e k bytes ps then some bufferGranule else none

/-- The elements of one group translated and checked, with `rest` the elements of later groups, and `go` done where none fails
(R134, R376): an uncorrectable error anywhere in the instruction comes first, then the lowest faulting element of the group. The
elements of later groups are looked at for such errors, not accessed; nor is the group while it waits for a path (R360, R391). -/
def State.checkPlaces (s : State) (e : VEntry) (k : AccessKind) (bytes resume : Nat) (es rest : List MemElem)
    (go : List MemPlace → State → VRun) : VRun :=
  let (t, ps) := s.placeElems e k bytes es
  match t.eccAmong e k bytes ps with
  | some g => stopped t (t.eccStop g)
  | none =>
    if ps.any MemPlace.noPath then s.pathWait
    else
      match ps.find? fun p => p.fault.isSome with
      | none => go ps t
      | some p =>
        match (t.placeElems e k bytes rest).2.findSome? MemPlace.ecc with
        | some g => stopped t (t.eccStop g)
        | none =>
          let (c, r, l) := p.fault.getD (8, 8, 3)
          stopped t (vtrap e c p.elem.va (some (mkXlinfo k.acc r l)) resume)

/-- Whether some place lies on an SO page: then the strip commits first (R236). -/
def State.commitSo (s : State) (e : VEntry) (ps : List MemPlace) : State :=
  if ps.any fun p => p.good && p.place.2 == .so then s.commitEntry e else s

/-- The bytes of a good place read and put into a register. -/
def State.loadPlace (s : State) (e : VEntry) (d : VReg) (bits : Nat) (p : MemPlace) : State :=
  match s.readAt .load p.place.1 (bits / 8) p.place.2 e.seq with
  | (s, .ok bs) => s.setVrf (vset s.hart.vrf d.val bits p.elem.row p.elem.el (leNat bs))
  | (s, .error _) => s

/-- A store of a vector memory instruction: its virtual and physical address, its bytes and its page kind. -/
structure VStore where
  va : Word
  pa : Nat
  bytes : List Byte
  kind : PageKind

/-- The store of the element of a register at a good place. -/
def storeOf (vrf : Mem) (d : VReg) (bits : Nat) (p : MemPlace) : VStore :=
  ⟨p.elem.va, p.place.1, natBytes (bits / 8) (vget vrf d.val bits p.elem.row p.elem.el), p.place.2⟩

/-- Whether a store goes on where another ends, inside one 32-byte granule of ordinary memory. -/
def VStore.joins (p q : VStore) : Bool :=
  p.kind == q.kind && p.kind != .so && p.pa + p.bytes.length == q.pa &&
    p.pa / 32 == (q.pa + q.bytes.length - 1) / 32

/-- The stores of one instruction, those to consecutive bytes of one granule as one store: it writes the whole granule where
they do (R379). -/
def joinStores : List VStore → List VStore
  | [] => []
  | p :: rest =>
    match joinStores rest with
    | [] => [p]
    | q :: more => if p.joins q then { p with bytes := p.bytes ++ q.bytes } :: more else p :: q :: more

/-- Stores of the oldest entry made in order (R139). With one of them on an SO page the strip has committed and is sealed (R236):
each is committed as it comes (R24), so that overlapping ones end as the last leaves them (R138). -/
def State.makeStores (s : State) (e : VEntry) (l : List VStore) : State :=
  if l.any fun p => p.kind == .so then
    (joinStores l).foldl (fun t p => t.performStore ⟨p.pa, p.bytes, p.kind, e.seq - 1, e.strip, t.hart.xctx.ctxid, p.va.toNat⟩) s
  else (joinStores l).foldl (fun t p => t.writeVector e p.va p.pa p.bytes p.kind) s

/-- Whether a store goes to an unordered page of another package: it waits for a release fence (R237). -/
def State.awaitsFence (s : State) (pa : Nat) (kind : PageKind) : Bool := kind == .un && paPkg pa != s.pkg.toNat

/-- The element writes of VSTX.O in position order (R138): one that a fence would hold back goes home with the strip when a
later one does; `later` says that the instruction has one beyond this list (log entry 60). -/
def State.inOrder (s : State) (later : Bool) : List VStore → List VStore
  | [] => []
  | p :: rest =>
    let early := s.awaitsFence p.pa p.kind && (later || rest.any fun q => !s.awaitsFence q.pa q.kind)
    (if early then { p with kind := .rc } else p) :: s.inOrder later rest

/-- Whether one of the elements `es` of a VSTX.O does not wait for a fence; one that faults may not, for all that is known
(log entry 60). -/
def State.orderedLater (s : State) (e : VEntry) (es : List MemElem) : Bool :=
  es.any fun m =>
    match s.locateAt e.level .store m.va with
    | (_, .ok (pa, kind)) => !s.awaitsFence pa kind
    | _ => true

/-- The element writes of a scatter; those of VSTX.O, with the elements `es` to come, are visible in position order (R138). -/
def State.scatter (s : State) (e : VEntry) (ordered : Bool) (es : List MemElem) (l : List VStore) : State :=
  s.makeStores e (if ordered then s.inOrder (s.orderedLater e es) l else l)

/-- The addresses of a vector memory instruction. -/
def State.memAddr (s : State) (e : VEntry) : VInstr → Nat → Nat → Word
  | .vld st o => pitchAddr e st o.w.bytes
  | .vst st o => pitchAddr e st o.w.bytes
  | .vldff o => pitchAddr e false o.w.bytes
  | .vldx o => indexAddr e s.sources.1 o.idx
  | .vstx _ o => indexAddr e s.sources.1 o.idx
  | .vamo _ o => indexAddr e s.sources.1 o.idx
  | _ => fun _ _ => 0

/-- All active elements of the tile from group `g` on. -/
def State.elemsFrom (s : State) (e : VEntry) (m : MReg) (g : Nat) : List MemElem :=
  memElems s.sources.2 (e.mask m) e.vl (s.memAddr e e.instr)
    (((List.range (tileGroups s.lw e.vrows e.vl - g)).map fun i => e.groupElems s.lw (g + i)).flatten)

/-- The active elements of group `g`. -/
def State.elemsOf (s : State) (e : VEntry) (m : MReg) (g : Nat) : List MemElem :=
  memElems s.sources.2 (e.mask m) e.vl (s.memAddr e e.instr) (e.groupElems s.lw g)

/-- The alignment check of R133 over every active element of the tile. -/
def State.alignedAll (s : State) (e : VEntry) (m : MReg) (bytes : Nat) (go : State → VRun) : VRun :=
  match misaligned bytes (s.elemsFrom e m 0) with
  | some x => stopped s (vtrap e 0x06 x.va none 0)
  | none => go s

/-- One group of a load (R132, R134). -/
def State.loadGroup (s : State) (e : VEntry) (g : Nat) (d : VReg) (w : Width) (m : MReg) : VRun :=
  s.alignedAll e m w.bytes fun s =>
    s.checkPlaces e .load w.bytes g (s.elemsOf e m g) (s.elemsFrom e m (g + 1)) fun ps s =>
      ran (ps.foldl (fun t p => t.loadPlace e d w.bits p) (s.commitSo e ps))

/-- One group of a store (R132, R134), in position order for VSTX.O: the commit that precedes an element on an SO page makes the
buffered elements of the groups before it visible first (R138). -/
def State.storeGroup (s : State) (e : VEntry) (g : Nat) (ordered : Bool) (d : VReg) (w : Width) (m : MReg) : VRun :=
  s.alignedAll e m w.bytes fun s =>
    s.checkPlaces e .store w.bytes g (s.elemsOf e m g) (s.elemsFrom e m (g + 1)) fun ps s =>
      let l := ps.map (storeOf s.sources.1 d w.bits)
      ran ((s.commitSo e ps).scatter e ordered (s.elemsFrom e m (g + 1)) l)

/-- m15 written: 1 at the positions listed, 0 at every other position of the tile (R136, R137); it holds no error then
(R380). -/
def State.writeM15 (s : State) (e : VEntry) (ones : List Nat) : State :=
  (s.setMasks ((List.range (e.vrows * e.vl)).foldl (fun out p => mset out 15 p (ones.contains p)) s.hart.masks)).withHart
    fun h => { h with marks := { h.marks with
      badRegs := h.marks.badRegs.filter fun b => b != .maskRegister h.ident.id 15 } }

/-- Whether partial faults are delivered by R136 (R377). -/
def State.partialMode (s : State) : Bool := !s.hart.trap.pfGroup

/-- The elements of a list up to the first that fails, looked at in order: the state after them (R138, R360). -/
def State.upToFault (s : State) (e : VEntry) (k : AccessKind) (bytes : Nat) (ps : List MemPlace) : State :=
  let n := (ps.takeWhile MemPlace.good).length + 1
  (s.placeElems e k bytes ((ps.take n).map fun p => p.elem)).1

/-- A gather, scatter or atomic under R136: `perform` does the good elements; `cut` says that no element above the first
fault is performed (R138). -/
def State.runPartial (s : State) (e : VEntry) (k : AccessKind) (bytes : Nat) (m : MReg) (cut : Bool)
    (perform : List MemPlace → State → State) : VRun :=
  s.alignedAll e m bytes fun s =>
    let (t, ps) := s.placeElems e k bytes (s.elemsFrom e m 0)
    match t.eccAmong e k bytes ps with
    | some g => stopped t (t.eccStop g)
    | none =>
      if ps.any MemPlace.noPath then s.pathWait
      else
        let s := if cut then s.upToFault e k bytes ps else t
        let bad := (ps.filter fun p => !p.good).map fun p => p.elem.pos e
        let first := bad.head?.getD (e.vrows * e.vl)
        let left := ps.filter fun p => !p.good || (cut && decide (first < p.elem.pos e))
        let done := ps.filter fun p => p.good && !(cut && decide (first < p.elem.pos e))
        let s := perform done (s.commitSo e done)
        match left with
        | [] => ran s
        | _ =>
          let va := (ps.find? fun p => !p.good).map fun p => p.elem.va
          stopped (s.writeM15 e (left.map fun p => p.elem.pos e)) (vtrap e 0x09 (va.getD 0) none 0)

/-- VLDX under R136 (R135). -/
def State.runVldx (s : State) (e : VEntry) (o : VldxOps) : VRun :=
  s.runPartial e .load o.w.bytes o.m false fun ps s =>
    ps.foldl (fun t p => t.loadPlace e o.d o.w.bits p) s

/-- VSTX and VSTX.O under R136 (R138). -/
def State.runVstx (s : State) (e : VEntry) (ordered : Bool) (o : VldxOps) : VRun :=
  let vrf := s.sources.1
  s.runPartial e .store o.w.bytes o.m ordered fun ps s =>
    s.scatter e ordered ((s.elemsFrom e o.m 0).drop ps.length) (ps.map (storeOf vrf o.d o.w.bits))

/-- VLDFF (R137): every active element below the first that faults is loaded, and m15 names the loaded ones. -/
def State.runVldff (s : State) (e : VEntry) (o : VldOps) : VRun :=
  s.alignedAll e o.m o.w.bytes fun s =>
    let ps := (s.placeElems e .load o.w.bytes (s.elemsFrom e o.m 0)).2
    let below := ps.takeWhile fun p => p.fault.isNone
    match s.eccAmong e .load o.w.bytes below with
    | some g => stopped s (s.eccStop g)
    | none =>
      if below.any MemPlace.noPath then s.pathWait
      else
        let s := s.upToFault e .load o.w.bytes ps
        match below, ps with
        | [], p :: _ =>
          let (c, r, l) := p.fault.getD (8, 8, 3)
          stopped s (vtrap e c p.elem.va (some (mkXlinfo 2 r l)) 0)
        | _, _ =>
          let s := below.foldl (fun t p => t.loadPlace e o.d o.w.bits p) (s.commitSo e below)
          ran (s.writeM15 e (below.map fun p => p.elem.pos e))

/-! ### VAMO -/

/-- One element of VAMO (R253). -/
def State.amoElem (s : State) (e : VEntry) (op : AmoOp) (o : VamoOps) (vrf : Mem) (p : MemPlace) : State :=
  let n := amoBytes o.dbl
  let b := vget vrf o.d.val (8 * n) p.elem.row p.elem.el
  let (pa, kind) := p.place
  match s.readAt .atomic pa n (if Scope.shared o.scope then .so else kind) e.seq with
  | (s, .error _) => s
  | (s, .ok bs) =>
    let new := natBytes n (amoValue op (8 * n) (leNat bs) b)
    let s := if Scope.shared o.scope then s.physWrite s.me pa new else s.writeVector e p.elem.va pa new kind
    if o.ret then s.setVrf (vset s.hart.vrf o.d.val (8 * n) p.elem.row p.elem.el (leNat bs)) else s

/-- The strip commit of a VAMO of scope .c or wider, before its first element (R253). -/
def State.amoCommit (s : State) (e : VEntry) (o : VamoOps) : State :=
  if Scope.shared o.scope then s.commitEntry e else s

/-- VAMO under R136 (R253). -/
def State.runVamo (s : State) (e : VEntry) (op : AmoOp) (o : VamoOps) : VRun :=
  let vrf := s.sources.1
  match s.runPartial e .atomic (amoBytes o.dbl) o.m false
      fun ps s => ps.foldl (fun t p => t.amoElem e op o vrf p) (s.amoCommit e o) with
  | (s, none) => ran (s.acquireIf o.ord o.scope)
  | r => r

/-- What a VAMO does that has no element to perform: its commit and its acquire (R24, R253). -/
def State.amoEmpty (s : State) (e : VEntry) : State :=
  match e.instr with
  | .vamo _ o => (s.amoCommit e o).acquireIf o.ord o.scope
  | _ => s

/-- One group of VAMO under R134 (R377). -/
def State.amoGroup (s : State) (e : VEntry) (g : Nat) (op : AmoOp) (o : VamoOps) : VRun :=
  let n := amoBytes o.dbl
  let vrf := s.sources.1
  s.alignedAll e o.m n fun s =>
    s.checkPlaces e .atomic n g (s.elemsOf e o.m g) (s.elemsFrom e o.m (g + 1)) fun ps s =>
      ran ((ps.foldl (fun t p => t.amoElem e op o vrf p) ((s.amoCommit e o).commitSo e ps)).acquireIf o.ord o.scope)

end Sys2Proof.Machine
end

