-- ==== Sys2Proof/Machine/Stream.lean ====
section
/-! DEFINITION. Streams (R258 to R264). -/

namespace Sys2Proof.Machine

/-- The slot that holds a stream on a register. -/
def Hart.streamOn (h : Hart) (r : VReg) : Option (Fin 4) :=
  (List.finRange 4).find? fun i =>
    match h.streams[i] with
    | some q => q.reg == r
    | none => false

/-- The stream of one slot ended (R264). -/
def Hart.endStream (h : Hart) (i : Fin 4) : Hart := h.setStream i none

/-- The stream bound to a register ended, whichever slot holds it (R260). -/
def Hart.endStreamOn (h : Hart) (r : VReg) : Hart :=
  match h.streamOn r with
  | some i => h.endStream i
  | none => h

/-- The kind of a recorded failure (R262). -/
def streamKind (index : Bool) (cause : Nat) : BitVec 4 :=
  if index then (if cause = 7 then 3 else 4) else (if cause = 7 then 1 else 2)

/-- What fetching one word for a stream gives: its bytes, a recorded failure, an uncorrectable granule, or no path. -/
inductive StreamRead where
  | value (v : Nat)
  | fail (kind : BitVec 4) (addr : Word) (xlinfo : Option Nat)
  | ecc (g : Nat)
  | noPath

/-- One word read for a stream through the translation its slot captured (R242, R354). A data element on an SO page fails
(R262); an index word there is read, which is the model's choice (log entry 35). -/
def State.streamRead (s : State) (q : StreamSlot) (seq : Nat) (index : Bool) (va : Word) (n : Nat) : State × StreamRead :=
  if !aligned va n then (s, .fail 5 va none)
  else
    match s.translate s.me q.xctx q.level .load va.toNat with
    | (s, .error (.fault c r l)) => (s, .fail (streamKind index c) va (some (mkXlinfo 2 r l)))
    | (s, .error (.ecc g)) => (s, .ecc g)
    | (s, .error .noPath) => (s, .noPath)
    | (s, .ok (pa, kind)) =>
      if kind = .so ∧ !index then (s, .fail 5 va (some (mkXlinfo 2 6 3)))
      else
        match s.readAt .load pa n kind seq with
        | (s, .error (.fault c r l)) => (s, .fail (streamKind index c) va (some (mkXlinfo 2 r l)))
        | (s, .error (.ecc g)) => (s, .ecc g)
        | (s, .error .noPath) => (s, .noPath)
        | (s, .ok bs) => (s, .value (leNat bs))

/-- The address of element `i` of an affine stream (R258). -/
def affineAddr (q : StreamSlot) (i : Nat) : Word :=
  q.base + BitVec.ofNat 64 (i / q.rlen) * q.rpitch + BitVec.ofNat 64 (i % q.rlen) * q.estride

/-- Element `i` of a stream fetched (R258, R262). -/
def State.streamElem (s : State) (q : StreamSlot) (seq i : Nat) : State × StreamRead :=
  if q.indirect then
    match s.streamRead q seq true (q.idx + BitVec.ofNat 64 (4 * i)) 4 with
    | (s, .value v) => s.streamRead q seq false (q.base + (BitVec.ofNat 32 v).signExtend 64) q.width.bytes
    | r => r
  else s.streamRead q seq false (affineAddr q i) q.width.bytes

/-- A tile popped so far: elements by position, the lowest failure, an uncorrectable granule, or a missing path. -/
structure StreamTile where
  values : List Nat
  fail : Option (BitVec 4 × Word × Option Nat)
  ecc : Option Nat
  noPath : Bool

/-- One element of a tile put behind the others (R262). -/
def StreamTile.push (t : StreamTile) : StreamRead → StreamTile
  | .value v => { t with values := t.values ++ [v] }
  | .fail k a x => { t with values := t.values ++ [0], fail := some (t.fail.getD (k, a, x)) }
  | .ecc g => { t with values := t.values ++ [0], ecc := some (t.ecc.getD g) }
  | .noPath => { t with values := t.values ++ [0], noPath := true }

/-- A fetched element as a read. -/
def StreamElem.toRead : StreamElem → StreamRead
  | .value v => .value v.toNat
  | .fail k a x => .fail k a x

/-- The `n` elements of a tile from position `i` on: those fetched ahead first, zeros from COUNT on (R261, R242). -/
def State.streamTile (s : State) (q : StreamSlot) (seq : Nat) : List StreamElem → Nat → Nat → StreamTile → State × StreamTile
  | _, _, 0, t => (s, t)
  | ahead, i, n + 1, t =>
    if q.count ≤ i then s.streamTile q seq ahead (i + 1) n (t.push (.value 0))
    else
      match ahead with
      | f :: rest => s.streamTile q seq rest (i + 1) n (t.push f.toRead)
      | [] =>
        let (s, r) := s.streamElem q seq i
        s.streamTile q seq [] (i + 1) n (t.push r)

/-- A tile written to the stream register in position order (R261). -/
def writeTile (d bits vl : Nat) : Nat → List Nat → Mem → Mem
  | _, [], out => out
  | p, v :: rest, out => writeTile d bits vl (p + 1) rest (pset out d bits vl p v)

/-- TVAL of a stream fault (R262). -/
def streamTval (kind : BitVec 4) (addr : Word) : Word := BitVec.ofNat 64 (kind.toNat * 2 ^ 60 + addr.toNat % 2 ^ 57)

/-- A tile about to be popped: its slot, the stream there and what the tile holds. -/
structure Pop where
  slot : Fin 4
  q : StreamSlot
  tile : StreamTile

/-- The tiles that an instruction pops for the registers it names as sources, each once (R261). -/
def State.gatherPops (s : State) (e : VEntry) : List VReg → State × List Pop
  | [] => (s, [])
  | r :: rest =>
    match s.hart.streamOn r with
    | none => s.gatherPops e rest
    | some i =>
      match s.hart.streams[i] with
      | none => s.gatherPops e rest
      | some q =>
        let (s, t) := s.streamTile q e.seq q.fetched q.pos (e.vrows * e.vl) ⟨[], none, none, false⟩
        let (s, ps) := s.gatherPops e rest
        (s, ⟨i, q, t⟩ :: ps)

/-- What the pops of an instruction are; none at VL = 0 (R261). -/
def State.popsOf (s : State) (e : VEntry) (rs : List VReg) : State × List Pop :=
  if e.vl = 0 then (s, []) else s.gatherPops e rs

/-- A stream fault, which is reported before anything else of the instruction and after which the tile is fetched again
(R242, R262, R376), or a missing path. Of two tiles that failed, that of the first source field is reported (the model's choice,
log entry 82). -/
def State.popStop (s : State) (e : VEntry) (ps : List Pop) : VRun :=
  match ps.findSome? fun p => p.tile.fail.map fun f => (p, f) with
  | some (p, k, a, x) =>
    stopped (s.withHart fun h => h.setStream p.slot (some { p.q with fetched := [], again := true })) (vtrap e 0x0A (streamTval k a) x e.done)
  | none => if ps.any fun p => p.tile.noPath then s.pathWait else ran s

/-- One pop (R261): the register takes the tile, with which no error of what it held is left, that is kept for the rechecks that
are open (R201), and POS moves on. Every position is written, with no test of R14 at the stream's width (the model's choice, log
entry 82). -/
def State.takePop (s : State) (e : VEntry) (p : Pop) : State :=
  let n := e.vrows * e.vl
  let old := (p.q.reg, regSlice s.hart.vrf p.q.reg)
  let s := s.setVrf (writeTile p.q.reg.val p.q.width.bits e.vl 0 p.tile.values s.hart.vrf)
  let s := s.withHart fun h =>
    h.setStream p.slot (some { p.q with pos := min (p.q.pos + n) p.q.count, fetched := p.q.fetched.drop n, again := false })
  let s := s.withHart fun h => { h with marks := { h.marks with
      badRegs := h.marks.badRegs.filter fun b => b != .vectorRegister h.ident.id p.q.reg } }
  s.withResult fun r => { r with pops := r.pops ++ [(p.slot, p.q.pos)], tiles := r.tiles ++ [old] }

/-! ### STRM -/

/-- `n` bytes of a table read at the oldest entry. -/
def State.tableRead (s : State) (e : VEntry) (va : Word) (n : Nat) : State × Except AccFault Nat :=
  match s.locateAt e.level .load va with
  | (s, .error f) => (s, .error f)
  | (s, .ok (pa, kind)) =>
    let s := if kind = .so then s.commitEntry e else s
    match s.readAt .load pa n kind e.seq with
    | (s, .error f) => (s, .error f)
    | (s, .ok bs) => (s, .ok (leNat bs))

/-- The first granule with an error among words of tables, looked at only (R376). -/
def State.tableEcc (s : State) (e : VEntry) : List (Word × Nat) → Option Nat
  | [] => none
  | (va, n) :: rest =>
    match (s.tableRead e va n).2 with
    | .error (.ecc g) => some g
    | _ => s.tableEcc e rest

/-- Words of tables, each an address and a size, read in order at the oldest entry; `k` continues with their values. An error
anywhere among them is consumed before the first fault is taken (R376). -/
def State.tableWords (e : VEntry) (k : List Nat → State → VRun) : List (Word × Nat) → List Nat → State → VRun
  | [], acc, s => k acc.reverse s
  | (va, n) :: rest, acc, s =>
    match s.tableRead e va n with
    | (s, .ok v) => State.tableWords e k rest (v :: acc) s
    | (s, .error (.ecc g)) => stopped s (s.eccStop g)
    | (s, .error .noPath) => s.pathWait
    | (t, .error (.fault c r l)) =>
      match s.tableEcc e rest with
      | some g => stopped s (s.eccStop g)
      | none => stopped t (vtrap e c va (some (mkXlinfo 2 r l)) 0)

/-- The addresses of `n` entries of a table. -/
def tableEntries (va : Word) (size n : Nat) : List (Word × Nat) :=
  (List.range n).map fun i => (va + BitVec.ofNat 64 (size * i), size)

/-- STRA and STRX once the four words of the descriptor are read (R258, R260): it is checked, earlier streams end, the slot is
set. -/
def runStraOn (e : VEntry) (indirect : Bool) (o : StraOps) (ws : List Nat) (s : State) : VRun :=
  let base := ws.getD 0 0
  let w1 := ws.getD 1 0
  let w2 := ws.getD 2 0
  let count := ws.getD 3 0
  let bad := if indirect then decide (w2 ≠ 0) || decide (w1 % 4 ≠ 0) else decide (w1 / 2 ^ 32 = 0)
  if bad then stopped s (vtrap e 0x05 2 none 0)
  else
    let q : StreamSlot :=
      { reg := o.d, width := o.w, indirect := indirect, base := BitVec.ofNat 64 base
        estride := if indirect then 0 else (BitVec.ofNat 32 w1).signExtend 64
        rlen := if indirect then 1 else w1 / 2 ^ 32
        rpitch := if indirect then 0 else BitVec.ofNat 64 w2
        idx := if indirect then BitVec.ofNat 64 w1 else 0
        count := count, pos := min e.x1.toNat count, xctx := s.hart.xctx, level := e.level
        fetched := [], again := false }
    ran (s.withHart fun h => ((h.endStream o.slot).endStreamOn o.d).setStream o.slot (some q))

/-- STRA and STRX (R258, R260): the descriptor is read and checked, earlier streams end, the slot is set. -/
def State.runStra (s : State) (e : VEntry) (indirect : Bool) (o : StraOps) : VRun :=
  if !aligned e.x0 8 then stopped s (vtrap e 0x06 e.x0 none 0)
  else
    State.tableWords e (runStraOn e indirect o) (tableEntries e.x0 8 4) [] s

/-- STROFF (R264). -/
def State.runStroff (s : State) (o : StroffOps) : VRun := ran (s.withHart fun h => h.endStream o.slot)

/-- STRPOS (R264). -/
def State.runStrpos (s : State) (o : StrposOps) : VRun :=
  ran (s.setScalar o.d
    (match s.hart.streams[o.slot] with
    | some q => BitVec.ofNat 64 q.pos
    | none => BitVec.allOnes 64))

/-! ### Refill -/

/-- The result of a refill read as a fetched element; an uncorrectable granule or a missing path is met again at the
pop. -/
def StreamRead.toElem : StreamRead → Option StreamElem
  | .value v => some (.value (BitVec.ofNat 64 v))
  | .fail k a x => some (.fail k a x)
  | .ecc _ => none
  | .noPath => none

/-- Elements fetched ahead one by one (R242, R262); none before the pop that resumes the stream, at which its reads are placed
(R242, log entry 23). -/
def State.refill (s : State) (i : Fin 4) : Nat → State
  | 0 => s
  | n + 1 =>
    match s.hart.streams[i] with
    | none => s
    | some q =>
      let at_ := q.pos + q.fetched.length
      if q.again ∨ q.count ≤ at_ then s
      else
        match s.streamElem q (s.hart.newest + 1) at_ with
        | (s, r) =>
          match r.toElem with
          | none => s
          | some f =>
            (s.withHart fun h => h.setStream i (some { q with fetched := q.fetched ++ [f] })).refill i n

/-- STREAM_REFILL (R242, R262): the copy engine fetches up to 8 tiles ahead. -/
def execStreamRefill (h : HartId) (slot : Fin 4) (count : Nat) (s : State) : Answered :=
  .next (s.onHart h fun s =>
    let tile := s.hart.v.vl * s.hart.v.vrows
    let room := match s.hart.streams[slot] with
      | some q => 8 * tile - q.fetched.length
      | none => 0
    s.refill slot (min count room))

end Sys2Proof.Machine
end

