-- ==== Sys2Proof/Machine/Matrix.lean ====
section
/-! DEFINITION. Matrix instructions (R165 to R192, R86, R87). -/

namespace Sys2Proof.Machine

/-! ### Formats and shapes -/

/-- What a format combination of R171 fixes: the group size, the k-group size, the largest K, and whether .rw accepts
it. -/
structure MmaKind where
  g : Nat
  gk : Nat
  kmax : Nat
  rw : Bool
deriving DecidableEq, Repr

/-- The format combinations of R171, by the codes of R127 and of ACCF. -/
def mmaKind (a b acc : Nat) : Option MmaKind :=
  if a = 0 ∧ b = 0 ∧ acc = 1 then some ⟨1, 1, 4096, true⟩
  else if a = 1 ∧ b = 1 ∧ acc = 0 then some ⟨1, 1, 4096, true⟩
  else if a = 1 ∧ b = 1 ∧ acc = 1 then some ⟨2, 1, 4096, true⟩
  else if a = 3 ∧ b = 3 ∧ acc = 0 then some ⟨2, 4, 4096, true⟩
  else if a = 2 ∧ b = 2 ∧ acc = 0 then some ⟨2, 4, 4096, true⟩
  else if (a = 4 ∨ a = 5) ∧ (b = 4 ∨ b = 5) ∧ acc = 0 then some ⟨4, 8, 8192, false⟩
  else if a = 6 ∧ b = 6 ∧ acc = 0 then some ⟨8, 16, 16384, false⟩
  else if (a = 8 ∨ a = 9) ∧ (b = 8 ∨ b = 9) ∧ acc = 2 then some ⟨4, 8, 8192, false⟩
  else if a = 10 ∧ b = 10 ∧ acc = 2 then some ⟨8, 16, 16384, false⟩
  else none

/-- The kind of an MMA; a combination outside R171 counts one register and one position. -/
def MmaOps.kind (o : MmaOps) : Option MmaKind := mmaKind o.afmt.val o.bfmt.val o.accf.val

/-- The accumulator group size of an MMA. -/
def mmaGroup (o : MmaOps) : Nat := ((MmaOps.kind o).map fun k => k.g).getD 1

/-- Whether a format code is a scaled one (R171). -/
def scaledCode (c : Nat) : Bool := c == 4 || c == 5 || c == 6

/-- Bits of an accumulator format. -/
def accBits (c : Nat) : Nat := if c = 1 then 64 else 32

/-- The format code of R127 of an accumulator format. -/
def accCode (c : Nat) : Nat :=
  match c with
  | 0 => 1
  | 1 => 0
  | _ => 7

/-- The capability class of an MMA (R193). -/
def mmaClass (a : Nat) : Nat :=
  match a with
  | 0 => 13
  | 1 => 14
  | 2 => 15
  | 3 => 15
  | 4 => 16
  | 5 => 16
  | 6 => 17
  | 8 => 18
  | 9 => 18
  | _ => 19

/-- The lowest reason code that applies (R177). -/
def lowestReason : List (Bool × Nat) → Option Nat
  | [] => none
  | (b, c) :: rest => if b then some c else lowestReason rest

/-- The slot an MMA names. -/
def State.weightSlot (s : State) (i : Fin 2) : WeightSlot := s.hart.weights[i]

/-- Whether an MMA breaks R176. -/
def State.weightReserved (s : State) (o : MmaOps) (sh : MShape) : Bool :=
  let q := s.weightSlot o.wslot
  o.bsrc && (o.b.isSome || o.kmask != 0 || !q.valid || q.fmt != o.bfmt.val || q.k != sh.k || q.n != sh.n)

/-- Whether a tile of an MMA operand fails R14 by the test `fits` of a width, rows and a row length (R173). -/
def mmaTilesFail (fits : Nat → Nat → Nat → Bool) (vl : Nat) (df : Dataflow) (o : MmaOps) (sh : MShape) (kd : MmaKind) :
    Bool :=
  let ab := codeBits o.afmt.val
  let bb := codeBits o.bfmt.val
  let kb := ceilDiv sh.k 32
  let aBad :=
    if df = .rw then !fits 32 sh.m vl || !fits ab sh.m vl
    else if o.ta then !fits ab sh.k sh.m || (scaledCode o.afmt.val && !fits 8 kb sh.m)
    else !fits ab sh.m sh.k || (scaledCode o.afmt.val && !fits 8 sh.m kb)
  let bBad := !o.bsrc && (!fits bb sh.k sh.n || (scaledCode o.bfmt.val && !fits 8 kb sh.n))
  aBad || bBad || !fits (accBits o.accf.val) (ceilDiv sh.m kd.g) sh.n

/-- The cause 0x05 checks of MMA (R171, R172, R168, R173, R176, R177). -/
def State.mmaReason (s : State) (df : Dataflow) (o : MmaOps) : Option Nat :=
  let sh := s.hart.v.mshape
  match MmaOps.kind o with
  | none => some 1
  | some kd =>
    let badFmt := (df == .rw && (!kd.rw || o.ta)) ||
      (o.bsrc && !(o.bfmt.val == 2 || o.bfmt.val == 3 || scaledCode o.bfmt.val))
    let odd4 := codeBits o.afmt.val == 4 && ((if o.ta then sh.m else sh.k) % 2 == 1 || (!o.bsrc && sh.n % 2 == 1))
    lowestReason [
      (badFmt, 1),
      ((df == .ip && decide (64 < sh.m)) || decide (kd.kmax < sh.k) || odd4, 2),
      (o.d.val % kd.g != 0, 3),
      (mmaTilesFail s.fits s.hart.v.vl df o sh kd, 4),
      (s.weightReserved o sh, 5),
      (o.kmask != 0 && decide (262144 < sh.k * sh.n), 6)]

/-- The cause 0x05 checks of WBLD at issue (R184, R185, R177). -/
def State.wbldReason (s : State) (o : WbldOps) : Option Nat :=
  let sh := s.hart.v.mshape
  lowestReason [
    (!(o.fmt.val == 2 || o.fmt.val == 3 || scaledCode o.fmt.val), 1),
    (o.m != 0 && decide (262144 < sh.k * sh.n), 6)]

/-- The group size of a GRP field (R169, R189). -/
def grpSize (g : Fin 4) : Nat := 2 ^ g.val

/-- Whether a tile of an MDRAIN operand fails R14 (R190). -/
def mdrainTilesFail (fits : Nat → Nat → Nat → Bool) (sh : MShape) (o : MdrainOps) : Bool :=
  !fits (codeBits o.ofmt.val) sh.m sh.n || !fits (accBits o.accf.val) (ceilDiv sh.m (grpSize o.g)) sh.n

/-- The cause 0x05 checks of MDRAIN (R189, R190, R177). -/
def State.mdrainReason (s : State) (o : MdrainOps) : Option Nat :=
  let sh := s.hart.v.mshape
  let badFmt : Bool :=
    match numFmt (accCode o.accf.val), numFmt o.ofmt.val with
    | some f, some h => o.accf.val == 3 || (o.sat && !satAllowed f h)
    | _, _ => true
  lowestReason [
    (badFmt, 1),
    (codeBits o.ofmt.val == 4 && sh.n % 2 == 1, 2),
    (o.a.val % grpSize o.g != 0, 3),
    (mdrainTilesFail s.fits sh o, 4)]

/-! ### Operands -/

/-- The accumulator element C[i][j] (R167). -/
def accGet (vrf : Mem) (a g bits i j : Nat) : Nat := vget vrf (a + i % g) bits (i / g) j

/-- The accumulator element C[i][j] written (R167). -/
def accSet (vrf : Mem) (a g bits i j v : Nat) : Mem := vset vrf (a + i % g) bits (i / g) j v

/-- One element of the A operand: its bits and, for a scaled format, its scale (R173). -/
def mmaA (vrf : Mem) (o : MmaOps) (i k : Nat) : Nat × Nat :=
  let b := codeBits o.afmt.val
  if o.ta then (vget vrf o.a.val b k i, vget vrf (oddMember o.a).val 8 (k / 32) i)
  else (vget vrf o.a.val b i k, vget vrf (oddMember o.a).val 8 i (k / 32))

/-- The element `n` of packed values of a width (R70, R185). -/
def packedGet (bits : Nat) (vs : List Byte) (n : Nat) : Nat :=
  if bits = 4 then (vs.getD (n / 2) 0).toNat / 16 ^ (n % 2) % 16
  else leNat ((vs.drop (n * (bits / 8))).take (bits / 8))

/-- Whether position (k, j) is present in a weight slot (R176). -/
def slotPresent (q : WeightSlot) (p : Nat) : Bool := !q.masked || memRead q.mask p != 0

/-- The ones of a slot's mask below a position. -/
def slotRank (q : WeightSlot) : Nat → Nat
  | 0 => 0
  | p + 1 => bit01 (slotPresent q p) + slotRank q p

/-- One element of the B operand (R173, R176). -/
def mmaB (vrf : Mem) (q : WeightSlot) (o : MmaOps) (n k j : Nat) : Nat × Nat :=
  let b := codeBits o.bfmt.val
  if o.bsrc then
    (packedGet b q.values (slotRank q (k * n + j)), (q.scales.getD (k / 32 * n + j) 0).toNat)
  else
    match o.b with
    | some r => (vget vrf r.val b k j, vget vrf (oddMember r).val 8 (k / 32) j)
    | none => (0, 0)

/-- The value of an operand: bits under their format, scaled exactly for the scaled formats (R72). -/
def mmaValue (code : Nat) (x : Nat × Nat) : FVal :=
  match numFmt code with
  | some (.fp f) => if scaledCode code then scaledValue (f.decode x.1) x.2 else f.decode x.1
  | _ => .fin false 0 0

/-- The integer value of an operand. -/
def mmaInt (code : Nat) (x : Nat × Nat) : Int :=
  match numFmt code with
  | some (.int i) => i.value x.1
  | _ => 0

/-- One k-group applied to an accumulator (R86, R174): its terms are pairs of A and B elements. -/
def mmaStep (o : MmaOps) (acc : Nat) (terms : List ((Nat × Nat) × (Nat × Nat))) : Nat × Flags :=
  if terms.isEmpty then (acc, 0)
  else if o.accf.val = 2 then
    (wrapTo 32 ((acc : Int) + (terms.map fun t => mmaInt o.afmt.val t.1 * mmaInt o.bfmt.val t.2).sum), 0)
  else
    let f := if o.accf.val = 1 then fp64 else fp32
    f.deliver .rne (exactSum .rne
      (f.decode acc :: terms.map fun t => (mmaValue o.afmt.val t.1).mul (mmaValue o.bfmt.val t.2)))

/-- The k-groups of one output in increasing order (R174): `term k` is the pair at `k`, none when `k` is absent. -/
def mmaGroups (o : MmaOps) (gk k : Nat) (term : Nat → Option ((Nat × Nat) × (Nat × Nat))) : Nat → Nat → Nat × Flags → Nat × Flags
  | 0, _, acc => acc
  | n + 1, q, (acc, fl) =>
    let ks := (List.range gk).filterMap fun i => if q * gk + i < k then term (q * gk + i) else none
    let (acc, g) := mmaStep o acc ks
    mmaGroups o gk k term n (q + 1) (acc, fl ||| g)

/-- The list of row `i` of .rw (R175): the entries before its end or its violation, newest first, with the violation's
position. -/
def rwRow (vrf : Mem) (o : MmaOps) (vl k i : Nat) : Nat → Nat → List (Nat × Nat) → List (Nat × Nat) × Option Nat
  | 0, _, acc => (acc, none)
  | n + 1, q, acc =>
    let x := vget vrf o.a.val 32 i q
    if x = 0xFFFFFFFF then (acc, none)
    else
      let low := (acc.head?.map fun p => p.1 + 1).getD 0
      if x < low ∨ k ≤ x then (acc, some (i * vl + q))
      else
        rwRow vrf o vl k i n (q + 1)
          ((x, vget vrf (oddMember o.a).val (codeBits o.afmt.val) i q) :: acc)

/-- One row of C updated (R174): `aAt k` is row `i` of A. -/
def mmaRow (vrf masks : Mem) (q : WeightSlot) (o : MmaOps) (m : MReg) (sh : MShape) (kd : MmaKind) (i : Nat)
    (aAt : Nat → Option (Nat × Nat)) (out : Mem × Flags) : Mem × Flags :=
  (List.range sh.n).foldl
    (fun acc j =>
      if mget masks m (i * sh.n + j) then
        let present := fun k =>
          if o.bsrc then slotPresent q (k * sh.n + j) else mget masks o.kmask (k * sh.n + j)
        let term := fun k =>
          match aAt k with
          | some a => if present k then some (a, mmaB vrf q o sh.n k j) else none
          | none => none
        let (v, fl) := mmaGroups o kd.gk sh.k term (ceilDiv sh.k kd.gk) 0
          (accGet vrf o.d.val kd.g (accBits o.accf.val) i j, 0)
        (accSet acc.1 o.d.val kd.g (accBits o.accf.val) i j v, acc.2 ||| fl)
      else acc) out

/-- The rows of .rw in increasing order, up to a violation (R175). -/
def rwRows (vrf masks : Mem) (q : WeightSlot) (o : MmaOps) (sh : MShape) (kd : MmaKind) (vl : Nat) :
    List Nat → Mem × Flags → (Mem × Flags) × Option Nat
  | [], out => (out, none)
  | i :: rest, out =>
    let (es, bad) := rwRow vrf o vl sh.k i vl 0 []
    let out := mmaRow vrf masks q o o.cmask sh kd i
      (fun k => (es.find? fun p => p.1 == k).map fun p => (p.2, 0)) out
    match bad with
    | some p => (out, some p)
    | none => rwRows vrf masks q o sh kd vl rest out

/-- MMA on a slot whose data is in place (R174, R175). -/
def State.runMmaOn (s : State) (e : VEntry) (df : Dataflow) (o : MmaOps) (kd : MmaKind) : VRun :=
  let sh := e.mshape
  let (vrf, masks) := s.sources
  let q := s.weightSlot o.wslot
  if sh.m = 0 ∨ sh.n = 0 ∨ sh.k = 0 then ran s
  else if df = .rw then
    let ((out, fl), bad) := rwRows vrf masks q o sh kd e.vl (List.range sh.m) (s.hart.vrf, 0)
    ran (((s.setVrf out).gather fl).withResult fun r => { r with order := bad.map fun p => (false, p) })
  else
    let (out, fl) := (List.range sh.m).foldl
      (fun acc i => mmaRow vrf masks q o o.cmask sh kd i (fun k => some (mmaA vrf o i k)) acc) (s.hart.vrf, 0)
    ran ((s.setVrf out).gather fl)

/-! ### WBLD -/

/-- The places where an image lies: 64-byte pieces of its values and scales (R185). -/
def imageBlocks (base : Word) (n : Nat) : List (Word × Nat) :=
  (List.range (ceilDiv n 64)).map fun i => (base + BitVec.ofNat 64 (64 * i), min 64 (n - 64 * i))

/-- What reading an image gave: its bytes, the faulting addresses, an uncorrectable granule, a missing path. -/
structure ImageRead where
  bytes : List Byte
  faults : List (Word × (Nat × Nat × Nat))
  ecc : Option Nat
  noPath : Bool

/-- The pieces of an image read in order. -/
def State.readImage (s : State) (e : VEntry) : List (Word × Nat) → ImageRead → State × ImageRead
  | [], r => (s, r)
  | (va, n) :: rest, r =>
    let bad := fun (f : AccFault) (r : ImageRead) =>
      match f with
      | .fault c x l => { r with faults := r.faults ++ [(va, (c, x, l))] }
      | .ecc g => { r with ecc := some (r.ecc.getD g) }
      | .noPath => { r with noPath := true }
    match s.locateAt e.level .load va with
    | (s, .error f) => s.readImage e rest (bad f r)
    | (s, .ok (pa, kind)) =>
      let s := if kind = .so then s.commitEntry e else s
      match s.readAt .load pa n kind e.seq with
      | (s, .error f) => s.readImage e rest (bad f r)
      | (s, .ok bs) => s.readImage e rest { r with bytes := r.bytes ++ bs }

/-- One weight slot set. -/
def State.setWeight (s : State) (i : Fin 2) (q : WeightSlot) : State :=
  s.withHart fun h =>
    { h with
      weights := h.weights.set i q
      marks := { h.marks with badRegs := h.marks.badRegs.filter fun b => b != .weightSlot h.ident.id i } }

/-- Bytes of the values and of the scales of an image (R185). -/
def imageSizes (fmt k n c : Nat) : Nat × Nat :=
  (ceilDiv (c * codeBits fmt) 8, if scaledCode fmt then ceilDiv k 32 * n else 0)

/-- The lowest of the faulting addresses (R186). -/
def lowestFault : List (Word × (Nat × Nat × Nat)) → Option (Word × (Nat × Nat × Nat))
  | [] => none
  | f :: rest =>
    match lowestFault rest with
    | some g => if g.1 < f.1 then some g else some f
    | none => some f

/-- The data of a slot fetched from its bases: the slot is filled, or left as `onFault` says (R185, R186, R188). While a piece has
no path nothing is accessed (R360, R391). -/
def State.fetchImage (s : State) (e : VEntry) (i : Fin 2) (q : WeightSlot) (c : Nat) (onFault : WeightSlot) : VRun :=
  let (vb, sb) := imageSizes q.fmt q.k q.n c
  let (t, r) := s.readImage e (imageBlocks q.vbase vb ++ imageBlocks q.sbase sb) ⟨[], [], none, false⟩
  match r.ecc with
  | some g => stopped (t.setWeight i onFault) (t.eccStop g)
  | none =>
    if r.noPath then s.pathWait
    else
      match lowestFault r.faults with
      | some (va, (c, x, l)) => stopped (t.setWeight i onFault) (vtrap e c va (some (mkXlinfo 2 x l)) 0)
      | none =>
        ran (t.setWeight i { q with valid := true, stale := false, values := r.bytes.take vb, scales := r.bytes.drop vb })

/-- The ones of a mask below a position. -/
def maskRank (masks : Mem) (m : MReg) : Nat → Nat
  | 0 => 0
  | p + 1 => bit01 (mget masks m p) + maskRank masks m p

/-- The mask positions below a bound, as a copy (R166). -/
def maskCopy (masks : Mem) (m : MReg) (n : Nat) : Mem :=
  ((List.range n).filter fun p => mget masks m p).map fun p => (p, 1)

/-- The K positions of a WBLD whose values its image holds (R185). -/
def State.wbldCount (s : State) (e : VEntry) (o : WbldOps) : Nat :=
  if o.m = 0 then e.mshape.k * e.mshape.n else maskRank s.sources.2 o.m (e.mshape.k * e.mshape.n)

/-- Whether the image of a WBLD exceeds a slot (R185). -/
def State.imageTooLarge (s : State) (e : VEntry) (o : WbldOps) : Bool :=
  let (vb, sb) := imageSizes o.fmt.val e.mshape.k e.mshape.n (s.wbldCount e o)
  decide (65536 < vb + sb)

/-- The lower of the misaligned bases of a WBLD (R186). -/
def misalignedImage (e : VEntry) : Option Word :=
  match [e.x0, e.x1].filter fun a => !aligned a 64 with
  | a :: b :: _ => some (if b < a then b else a)
  | [a] => some a
  | [] => none

/-- WBLD (R185, R186). -/
def State.runWbld (s : State) (e : VEntry) (o : WbldOps) : VRun :=
  let sh := e.mshape
  if s.imageTooLarge e o then stopped s (vtrap e 0x05 7 none 0)
  else
    match misalignedImage e with
    | some a => stopped s (vtrap e 0x06 a none 0)
    | none =>
      let q : WeightSlot :=
        { valid := false, fmt := o.fmt.val, k := sh.k, n := sh.n, vbase := e.x0, sbase := e.x1
          masked := o.m != 0, mask := if o.m = 0 then [] else maskCopy s.sources.2 o.m (sh.k * sh.n)
          values := [], scales := [], stale := false }
      s.fetchImage e o.slot q (s.wbldCount e o) { s.weightSlot o.slot with valid := false }

/-- The data of a slot that a restore left out, fetched again as WBLD fetched them (R188). -/
def State.refetchSlot (s : State) (e : VEntry) (i : Fin 2) : VRun :=
  let q := s.weightSlot i
  if q.stale then s.fetchImage e i q (if q.masked then slotRank q (q.k * q.n) else q.k * q.n) q else ran s

/-- MMA (R174 to R176); the data of its slot are in place when it begins. -/
def State.runMma (s : State) (e : VEntry) (df : Dataflow) (o : MmaOps) : VRun :=
  match MmaOps.kind o with
  | none => ran s
  | some kd => s.runMmaOn e df o kd

/-! ### MDRAIN -/

/-- One converted accumulator element (R189, R190). -/
def drainValue (o : MdrainOps) (v : Nat) : Nat × Flags :=
  if accCode o.accf.val = o.ofmt.val then (v, 0) else vcvtValue (accCode o.accf.val) o.ofmt.val o.rm o.sat v

/-- Whether a converted element is not zero (R191). -/
def drainNonzero (o : MdrainOps) (v : Nat) : Bool :=
  match numFmt o.ofmt.val with
  | some (.fp f) => !(f.decode v).isZero
  | _ => v != 0

/-- MDRAIN and MDRAIN.Z (R190, R191). -/
def State.runMdrain (s : State) (e : VEntry) (z : Option MReg) (o : MdrainOps) : VRun :=
  let sh := e.mshape
  let (vrf, masks) := s.sources
  let g := grpSize o.g
  let (out, ms, fl) := ((tileElems sh.m sh.n).filter fun p => mget masks o.m (p.1 * sh.n + p.2)).foldl
    (fun (acc : Mem × Mem × Flags) p =>
      let (v, f) := drainValue o (accGet vrf o.a.val g (accBits o.accf.val) p.1 p.2)
      let ms := match z with
        | some zm => mset acc.2.1 zm (p.1 * sh.n + p.2) (drainNonzero o v)
        | none => acc.2.1
      (vset acc.1 o.d.val (codeBits o.ofmt.val) p.1 p.2 v, ms, acc.2.2 ||| f)) (s.hart.vrf, s.hart.masks, 0)
  ran (((s.setVrf out).setMasks ms).gather fl)

end Sys2Proof.Machine
end

