-- ==== Sys2Proof/Machine/XMerge.lean ====
section
/-! DEFINITION. The merge points of a round (R281 to R293): heads, routing, combining, multicast copies, the exception
buffers and the delivery to receivers (log entry 17). -/

namespace Sys2Proof.Machine

/-! ### Items and lanes -/

/-- Flits of a record (R280). -/
def recFlits (r : XRecord) : Nat := ceilDiv (16 + 4 * r.payload.length) 32

/-- Flits of an item (R280): what a merge point infers takes none (R285). -/
def XItem.flits : XItem → Nat
  | .data r => recFlits r
  | .floor _ _ => 1
  | .close => 1
  | .bound _ _ => 0
  | .shut => 0

/-- Flits of a lane. -/
def laneFlits (l : List XItem) : Nat := (l.map XItem.flits).sum

/-- Flits that a FIFO of one lane holds: 32 KiB (R284). -/
def laneRoom : Nat := 1024

/-- Whether an item is a DATA record. -/
def XItem.isData : XItem → Bool
  | .data _ => true
  | _ => false

/-- Whether an item ends its input at a port: CLOSE, or what is inferred to be one (R285). -/
def XItem.isClose : XItem → Bool
  | .close => true
  | .shut => true
  | _ => false

/-- The value below which no later record of a lane has its key, with what it stands for: that of a FLOOR, or of one inferred
(R284, R285). -/
def XItem.floorValue : XItem → Option (Nat × Option (Nat × Nat))
  | .floor f past => some (f, past)
  | .bound f past => some (f, past)
  | _ => none

/-- Whether a lane is closed: CLOSE is its head (R284). -/
def laneClosed (l : List XItem) : Bool := (l.head?.map XItem.isClose).getD false

/-- A lane whose head is no FLOOR that a later item follows (R284). -/
def laneSettle : List XItem → List XItem
  | [] => []
  | [a] => [a]
  | a :: rest => if a.floorValue.isSome then laneSettle rest else a :: rest

/-- An item put behind a lane: nothing follows a CLOSE, and an inferred floor gives way to it (R284, R285). -/
def lanePush (l : List XItem) (i : XItem) : List XItem :=
  match l.getLast? with
  | some .close => l
  | some .shut => l
  | some (.bound _ _) => laneSettle (l.dropLast ++ [i])
  | _ => laneSettle (l ++ [i])

/-- One lane of an input changed. -/
def XInput.lane (x : XInput) (mc : Bool) : List XItem := if mc then x.mc else x.uni

/-- One lane of an input set. -/
def XInput.setLane (x : XInput) (mc : Bool) (l : List XItem) : XInput := if mc then { x with mc := l } else { x with uni := l }

/-- One lane of one input of a port. -/
def XPort.lane (p : XPort) (i : Nat) (mc : Bool) : List XItem := ((p.inputs.drop i).head?.map fun x => x.lane mc).getD []

/-- An item put behind one lane of a port. -/
def XPort.push (p : XPort) (i : Nat) (mc : Bool) (item : XItem) : XPort :=
  { p with inputs := p.inputs.zipIdx.map fun x =>
      if x.2 = i then x.1.setLane mc (lanePush (x.1.lane mc) item) else x.1 }

/-- Whether a lane of a port has room for `n` flits more. -/
def XPort.room (p : XPort) (i : Nat) (mc : Bool) (n : Nat) : Bool := decide (laneFlits (p.lane i mc) + n ≤ laneRoom)

/-! ### Routing -/

/-- The port of a point that serves a key: the used port with the largest splitter not above it, the last of equals
(R283). -/
def XPoint.route (pt : XPoint) (key : Nat) : Nat :=
  ((pt.ports.zipIdx.filter fun p => decide (p.1.splitter ≤ key)).getLast?.map fun p => p.2).getD 0

/-- The ports of a point changed, each with its index. -/
def XPoint.mapPorts (pt : XPoint) (f : Nat → XPort → XPort) : XPoint :=
  { pt with ports := pt.ports.zipIdx.map fun p => f p.2 p.1 }

/-- Whether a port serves a member of a multicast group (R290). -/
def XPort.serves (p : XPort) (g : Nat × Nat) : Bool := decide (p.lo < g.2) && decide (g.1 < p.hi)

/-- The receivers of a group. -/
def RoundDesc.group (d : RoundDesc) (n : Nat) : Nat × Nat := (d.groups.drop n).head?.getD (0, 0)

/-- The floor that a record stands for where it does not go (R285). -/
def floorOf (r : XRecord) : XItem := .bound r.key.toNat (some (r.sender.toNat, r.seq.toNat))

/-- What a multicast item is at one port: the record itself, or the FLOOR that it stands for (R285, R290). -/
def mcItemAt (d : RoundDesc) (item : XItem) (p : XPort) : XItem :=
  match item with
  | .data r => if p.serves (d.group r.group.toNat) then .data r else floorOf r
  | i => i

/-- Multicast copies held for one input and port. -/
def XPoint.heldFor (pt : XPoint) (i q : Nat) : Bool := pt.hold.any fun h => h.1 == i && h.2.1 == q

/-- Whether an item goes straight to a port's lane: nothing is held before it, and it finds room (R291). -/
def XPoint.direct (pt : XPoint) (i q : Nat) (p : XPort) (x : XItem) : Bool := !pt.heldFor i q && p.room i true x.flits

/-- A multicast item copied to every port of a point; a copy for a port without room is held (R291). -/
def XPoint.copyMc (pt : XPoint) (d : RoundDesc) (i : Nat) (item : XItem) : XPoint :=
  let held := pt.ports.zipIdx.filterMap fun p =>
    let x := mcItemAt d item p.1
    if pt.direct i p.2 p.1 x then none else some (i, p.2, x)
  { (pt.mapPorts fun q p =>
      let x := mcItemAt d item p
      if pt.direct i q p x then p.push i true x else p) with
    hold := pt.hold ++ held }

/-- Flits held for one input (R291). -/
def XPoint.heldFlits (pt : XPoint) (i : Nat) : Nat := ((pt.hold.filter fun h => h.1 == i).map fun h => h.2.2.flits).sum

/-- Whether the hold buffer of an input, 64 KiB, takes the copies of an item that ports have no room for; a record is not
accepted while the buffer could not take it (R291). -/
def XPoint.takesMc (pt : XPoint) (d : RoundDesc) (i : Nat) (item : XItem) : Bool :=
  let need := (pt.ports.zipIdx.map fun p =>
    let x := mcItemAt d item p.1
    if pt.direct i p.2 p.1 x then 0 else x.flits).sum
  decide (pt.heldFlits i + max need item.flits ≤ 2048)

/-- An item for the multicast lane of an input (R285, R291): what comes over the link waits at the ingress, and what is inferred
stands behind it; a round without groups has no such lane. -/
def XPoint.mcPath (pt : XPoint) (d : RoundDesc) (i : Nat) (item : XItem) : XPoint :=
  if d.groups.isEmpty then pt
  else if decide (0 < item.flits) || pt.ingress.any fun g => g.1 == i then { pt with ingress := pt.ingress ++ [(i, item)] }
  else pt.copyMc d i item

/-- What a record of a unicast lane is at the ports it does not go to (R285): the end of the input at the ports below in a round
without multicast, else a floor. -/
def inferred (d : RoundDesc) (target port : Nat) (r : XRecord) : XItem :=
  if d.groups.isEmpty && decide (port < target) then .shut else floorOf r

/-- An item arrives at input `i` of a point (R284, R285). -/
def XPoint.arrive (pt : XPoint) (d : RoundDesc) (i : Nat) (item : XItem) : XPoint :=
  match item with
  | .data r =>
    if r.mc then
      ((pt.mapPorts fun _ p => p.push i false (floorOf r)).mcPath d i (.data r))
    else
      let q := pt.route r.key.toNat
      (pt.mapPorts fun k p => p.push i false (if k = q then .data r else inferred d q k r)).mcPath d i (floorOf r)
  | x => (pt.mapPorts fun _ p => p.push i false x).mcPath d i x

/-- Flits of the records in a lane. -/
def dataFlits (l : List XItem) : Nat := (l.map fun x => if x.isData then x.flits else 0).sum

/-- Flits in the unicast FIFO of an input: each record waits for one port, a FLOOR or CLOSE until the last port has consumed it
(R284). -/
def XPoint.uniFlits (pt : XPoint) (i : Nat) : Nat :=
  (pt.ports.map fun p => dataFlits (p.lane i false)).sum +
    (pt.ports.map fun p => laneFlits (p.lane i false) - dataFlits (p.lane i false)).foldl max 0

/-- Flits of multicast items that an ingress port has not copied (R291). -/
def XPoint.mcFlits (pt : XPoint) (i : Nat) : Nat := laneFlits ((pt.ingress.filter fun g => g.1 == i).map fun g => g.2)

/-- Whether the FIFO of a lane of input `i` of a point has room for `n` flits more: 32 KiB for each lane (R284). -/
def XPoint.roomFor (pt : XPoint) (i : Nat) (mc : Bool) (n : Nat) : Bool :=
  decide ((if mc then pt.mcFlits i else pt.uniFlits i) + n ≤ laneRoom)

/-- Whether input `i` of a point has room for what comes over its link (R284): a record on its lane, a FLOOR or CLOSE on both
lanes of a round with groups. -/
def XPoint.hasRoom (pt : XPoint) (d : RoundDesc) (i : Nat) : XItem → Bool
  | .data r => pt.roomFor i r.mc (recFlits r)
  | x => pt.roomFor i false x.flits && (d.groups.isEmpty || pt.roomFor i true x.flits)

/-! ### The merge -/

/-- A head of a port: its input, its lane and its item. -/
structure XHead where
  input : Nat
  mc : Bool
  item : Option XItem
deriving DecidableEq, Repr

/-- The heads of a port, lanes of one input together (R281, R284). -/
def XPort.heads (p : XPort) : List XHead :=
  (p.inputs.zipIdx.map fun x => [⟨x.2, false, x.1.uni.head?⟩, ⟨x.2, true, x.1.mc.head?⟩]).flatten

/-- The order of R281. -/
def recBefore (a b : XRecord) : Bool :=
  if a.key ≠ b.key then decide (a.key < b.key)
  else if a.sender ≠ b.sender then decide (a.sender < b.sender) else decide (a.seq < b.seq)

/-- The least DATA record among the heads, with its head. -/
def leastHead : List XHead → Option (XHead × XRecord)
  | [] => none
  | h :: rest =>
    match h.item with
    | some (.data r) =>
      match leastHead rest with
      | some (g, q) => if recBefore q r then some (g, q) else some (h, r)
      | none => some (h, r)
    | _ => leastHead rest

/-- The least KEY or FLOOR value among the heads. -/
def leastBound : List XHead → Option Nat
  | [] => none
  | h :: rest =>
    let b := match h.item with
      | some (.data r) => some r.key.toNat
      | some x => x.floorValue.map fun p => p.1
      | none => none
    match b, leastBound rest with
    | some x, some y => some (min x y)
    | some x, none => some x
    | none, y => y

/-- Whether a head lets a record go before whatever follows it (R281, R284): a FLOOR above its key, or an equal one of a higher
input. The two lanes of one input are ordered by R281: an equal FLOOR of the other lane lets the record go when it stands
for the record itself or for a later one of the sender stream. -/
def XHead.letsGo (q h : XHead) (r : XRecord) : Bool :=
  match q.item.bind XItem.floorValue with
  | some (f, past) =>
    decide (r.key.toNat < f) ||
      (f == r.key.toNat && (decide (h.input < q.input) || (h.input == q.input && past.any fun p =>
        decide (r.sender.toNat < p.1) || (r.sender.toNat == p.1 && decide (r.seq.toNat ≤ p.2)))))
  | none => true

/-- What a port decides to emit, and the lane that the item is taken from (R284). -/
def XPort.decide (p : XPort) : Option (XItem × Option (Nat × Bool)) :=
  let hs := p.heads
  let floorOf : Option (XItem × Option (Nat × Bool)) :=
    match leastBound hs with
    | some b =>
      let above := match p.emitted with
        | some q => Decidable.decide (q < b)
        | none => true
      if above then some (.floor b none, none) else none
    | none => none
  if p.closed || hs.any fun h => h.item.isNone then none
  else
    match leastHead hs with
    | none => if hs.all fun h => h.item.any XItem.isClose then some (.close, none) else floorOf
    | some (h, r) =>
      if hs.all fun q => q.letsGo h r then some (.data r, some (h.input, h.mc)) else floorOf

/-- The head of a lane consumed. -/
def XPort.consume (p : XPort) : Option (Nat × Bool) → XPort
  | none => p
  | some (i, mc) =>
    { p with inputs := p.inputs.zipIdx.map fun x =>
        if x.2 = i then x.1.setLane mc (laneSettle ((x.1.lane mc).drop 1)) else x.1 }

/-- A port after it emitted an item (R284). -/
def XPort.emit (p : XPort) (item : XItem) (src : Option (Nat × Bool)) : XPort :=
  let p := p.consume src
  match item with
  | .data r => { p with emitted := some r.key.toNat }
  | x =>
    match x.floorValue with
    | some (f, _) => { p with emitted := some f }
    | none => { p with closed := true }

/-! ### Combining (R286, R287) -/

/-- The floating format of a COMB format code, with its bits. -/
def combFormat : Nat → Option FSpec
  | 0 => some fp32
  | 1 => some fpBf16
  | 2 => some fp16
  | 4 => some fp64
  | _ => none

/-- Bits of an element of a COMB format. -/
def combBits : Nat → Nat
  | 1 => 16
  | 2 => 16
  | 4 => 64
  | _ => 32

/-- Two elements combined: ADD or MAX in a format (R286). -/
def combElem (isMax : Bool) (fmt a b : Nat) : Nat × Flags :=
  match combFormat fmt with
  | some f => if isMax then f.minMax true a b else f.add .rne a b
  | none =>
    let i : ISpec := ⟨32, true⟩
    if isMax then ((if i.value a < i.value b then b else a), 0) else ((a + b) % 2 ^ 32, 0)

/-- A payload as one number, first word lowest. -/
def payloadNat : List (BitVec 32) → Nat
  | [] => 0
  | w :: rest => w.toNat + 2 ^ 32 * payloadNat rest

/-- A number as a payload of `n` words. -/
def natPayload : Nat → Nat → List (BitVec 32)
  | 0, _ => []
  | n + 1, v => BitVec.ofNat 32 v :: natPayload n (v / 2 ^ 32)

/-- Payloads combined element by element. -/
def combElems (isMax : Bool) (fmt : Nat) : Nat → Nat → Nat → Nat × Flags
  | 0, _, _ => (0, 0)
  | n + 1, a, b =>
    let w := 2 ^ combBits fmt
    let (v, f) := combElem isMax fmt (a % w) (b % w)
    let (rest, g) := combElems isMax fmt n (a / w) (b / w)
    (v + w * rest, f ||| g)

/-- The combination of a held record and the next one, or none when the next starts a new run (R286, R287). -/
def RoundDesc.combine (d : RoundDesc) (a b : XRecord) : Option XRecord :=
  let mode := d.comb % 4
  let fmt := d.comb / 4 % 8
  if mode = 0 ∨ a.key ≠ b.key ∨ a.mc ≠ b.mc ∨ a.group ≠ b.group then none
  else if mode = 3 then
    if d.climit < a.payload.length + b.payload.length then none
    else some { a with payload := a.payload ++ b.payload, cmb := true }
  else
    let n := a.payload.length
    let (v, f) := combElems (mode == 2) fmt (n * 32 / combBits fmt) (payloadNat a.payload) (payloadNat b.payload)
    some { a with payload := natPayload n v, cmb := true, flags := a.flags ||| f }

/-- What reaches an egress port's combiner: the record it lets go, and the record it then holds (R287). -/
def RoundDesc.combiner (d : RoundDesc) (held : Option XRecord) : XItem → Option XRecord × Option XRecord
  | .data r =>
    if d.comb % 4 = 0 then (some r, none)
    else
      match held with
      | none => (none, some r)
      | some h =>
        match d.combine h r with
        | some c => (none, some c)
        | none => (some h, some r)
  | x =>
    match x.floorValue, held with
    | some (f, _), some h => if h.key.toNat < f then (some h, none) else (none, some h)
    | _, _ => (held, none)

/-! ### Rounds -/

/-- One point of a round. -/
def Round.point (r : Round) (n : Nat) : XPoint := (r.points.drop n).head?.getD ⟨[], [], []⟩

/-- One point of a round set. -/
def Round.setPoint (r : Round) (n : Nat) (p : XPoint) : Round := { r with points := listSet r.points n p }

/-- One port of a point. -/
def Round.port (r : Round) (n q : Nat) : Option XPort := (r.point n).ports[q]?

/-- One port of a point set. -/
def Round.setPort (r : Round) (n q : Nat) (p : XPort) : Round :=
  r.setPoint n { r.point n with ports := listSet (r.point n).ports q p }

/-- One receiver changed. -/
def Round.mapReceiver (r : Round) (n : Nat) (f : XReceiver → XReceiver) : Round :=
  { r with receivers := r.receivers.zipIdx.map fun p => if p.2 = n then f p.1 else p.1 }

/-- One sender changed. -/
def Round.mapSender (r : Round) (n : Nat) (f : XSender → XSender) : Round :=
  { r with senders := r.senders.zipIdx.map fun p => if p.2 = n then f p.1 else p.1 }

/-- An item arrives at a point of a round. -/
def Round.arrive (r : Round) (n i : Nat) (item : XItem) : Round := r.setPoint n ((r.point n).arrive r.desc i item)

/-! ### Delivery at an egress merge -/

/-- The spill area's size in flits (R296). -/
def spillFlits (w : Word) : Nat := w.toNat % 65536 * 2048

/-- The spill area's address (R296). -/
def spillBase (w : Word) : Nat := w.toNat % 2 ^ 57 / 65536 * 65536

/-- Flits of the records a receiver has not popped. -/
def XReceiver.flits (q : XReceiver) : Nat := (q.fifo.map recFlits).sum

/-- Whether a receiver's FIFO and spill area take a record (R296). -/
def XReceiver.takes (q : XReceiver) (r : XRecord) : Bool :=
  decide (q.flits + recFlits r ≤ 1024 + spillFlits q.spill)

/-- The egress merge writes `n` flits from flit `i` of a spill area, with values the spec leaves open (R296), at the
receiver's level of that moment and in class core (the model's choice, log entry 84); false when a translation or an access fails. -/
def State.spillWrite (s : State) (h : Hart) (base : Nat) : Nat → Nat → State × Bool
  | _, 0 => (s, true)
  | i, n + 1 =>
    let va := base + 32 * i
    let me : Requester := ⟨0, h.xctx.ctxid, s.pkg, h.core⟩
    match s.translate me h.xctx h.scalar.level .store va with
    | (s, .error _) => (s, false)
    | (s, .ok (pa, _)) =>
      match s.physCheck me .store pa with
      | (s, .bytes _ _) =>
        let s := s.physWrite me pa ((List.range 32).map fun k => Config.spillByte (64 * s.tick + k))
        s.spillWrite h base (i + 1) n
      | (s, _) => (s, false)

/-- A receiver whose FIFO and spill area are both full is told (R296, R303). -/
def State.tellFull (s : State) (r : Round) (q : XReceiver) (flits : Nat) : State :=
  if flits = 1024 + spillFlits q.spill ∧ spillFlits q.spill ≠ 0 then
    s.mapParty r.ctx q.hart q.owner fun h => h.setXstatus r.id xsSpill
  else s

/-- A record delivered to a receiver: into its FIFO, or, the FIFO being full, into its spill area (R296). -/
def State.deliverRecord (s : State) (r : Round) (n : Nat) (x : XRecord) : State :=
  match r.receivers[n]? with
  | none => s
  | some q =>
    let s := s.setRound (r.mapReceiver n fun q => { q with fifo := q.fifo ++ [x] })
    let past := q.flits + recFlits x - 1024
    if past = 0 then s
    else
      match s.party r.ctx q.hart q.owner with
      | none => s
      | some h =>
        match s.spillWrite h (spillBase q.spill) (past - min past (recFlits x)) (min past (recFlits x)) with
        | (s, true) => s.tellFull r q (q.flits + recFlits x)
        | (s, false) => s.abortRound r

/-- What a port decides, when what follows it has room; an egress port of a receiver that is full has none (R284,
R296). -/
def Round.ready (r : Round) (n q : Nat) : Option (XItem × Option (Nat × Bool)) :=
  match r.port n q with
  | none => none
  | some p =>
    match p.decide with
    | none => none
    | some (item, src) =>
      match p.next with
      | some (m, i) =>
        if (r.point m).hasRoom r.desc i item then some (item, src) else none
      | none =>
        match (r.desc.combiner p.combining item).1 with
        | some x => if (r.receivers[p.lo]?.map fun k => k.takes x).getD false then some (item, src) else none
        | none => some (item, src)

/-- Whether an egress port is held up by a full receiver with a spill area whose SPILL is still to be set (R296). -/
def State.spillStuck (s : State) (r : Round) (n q : Nat) : Option XReceiver :=
  if (r.ready n q).isSome then none
  else
    match r.port n q with
    | none => none
    | some p =>
      match p.next, p.decide, r.receivers[p.lo]? with
      | none, some _, some k =>
        match s.party r.ctx k.hart k.owner with
        | some h => if spillFlits k.spill ≠ 0 ∧ !h.ctl.xstatus.getLsbD 4 then some k else none
        | none => none
      | _, _, _ => none

/-- Whether a merge point has something to do at a port. -/
def State.mergeReady (s : State) (r : Round) (n q : Nat) : Bool := (r.ready n q).isSome || (s.spillStuck r n q).isSome

/-- A merge point emits on one port (R284 to R287, R296). -/
def State.mergeEmit (s : State) (r : Round) (n q : Nat) : State :=
  match r.port n q, r.ready n q with
  | some p, some (item, src) =>
    let p' := p.emit item src
    match p.next with
    | some (m, i) => s.setRound ((r.setPort n q p').arrive m i item)
    | none =>
      let (out, held) := r.desc.combiner p.combining item
      let r := r.setPort n q { p' with combining := held }
      let r := if item = .close then r.mapReceiver p.lo fun k => { k with sortedClosed := true } else r
      let s := s.setRound r
      match out with
      | some x => s.deliverRecord r p.lo x
      | none => s
  | _, _ =>
    match s.spillStuck r n q with
    | some k => s.mapParty r.ctx k.hart k.owner fun h => h.setXstatus r.id xsSpill
    | none => s

/-- MERGE_POINT_EMIT (R284). -/
def execMergePointEmit (ctx round : BitVec 16) (point port : Nat) (s : State) : Answered :=
  .next (match s.round ctx round with
    | some r => s.mergeEmit r point port
    | none => s)

/-! ### Exception buffers (R288, R289) -/

/-- The order of an exception buffer. -/
def orderBefore (a b : XRecord) : Bool := if a.sender ≠ b.sender then decide (a.sender < b.sender) else decide (a.seq < b.seq)

/-- The longest prefix of a list of records that fits in `n` flits. -/
def fitting : Nat → List XRecord → List XRecord
  | _, [] => []
  | n, r :: rest => if recFlits r ≤ n then r :: fitting (n - recFlits r) rest else []

/-- An ORDER record reaches a receiver's exception buffer of 64 KiB (R289). -/
def XReceiver.except (q : XReceiver) (x : XRecord) : XReceiver :=
  let all := insertBy orderBefore x q.exceptions
  let kept := fitting 2048 all
  { q with exceptions := kept, exLost := q.exLost || kept.length != all.length }

/-- EXCEPTION_RECORD_ARRIVAL (R289). -/
def execExceptionRecordArrival (ctx round : BitVec 16) (recv : Nat) (x : XRecord) (s : State) : Answered :=
  .next (match s.round ctx round with
    | some r =>
      if x.kind = 3 ∧ r.state ≠ .aborted then s.setRound (r.mapReceiver recv fun q => q.except x) else s
    | none => s)

/-! ### Multicast (R291) -/

/-- The first item of an input in a list, and the list without it. -/
def takeFirst {α : Type} (p : α → Bool) : List α → Option (α × List α)
  | [] => none
  | a :: rest =>
    if p a then some (a, rest)
    else
      match takeFirst p rest with
      | some (b, r) => some (b, a :: r)
      | none => none

/-- The first item an ingress port has not copied is copied (R291). -/
def XPoint.copyNext (pt : XPoint) (d : RoundDesc) (i : Nat) : Option XPoint :=
  match takeFirst (fun g => g.1 == i) pt.ingress with
  | some ((_, x), rest) => if pt.takesMc d i x then some ({ pt with ingress := rest }.copyMc d i x) else none
  | none => none

/-- The first copy an ingress port holds leaves the hold buffer when its port has room (R291). -/
def XPoint.releaseNext (pt : XPoint) (i : Nat) : Option XPoint :=
  match takeFirst (fun h => h.1 == i) pt.hold with
  | some ((_, q, x), rest) =>
    match pt.ports[q]? with
    | some p =>
      if p.room i true x.flits then some { pt with hold := rest, ports := listSet pt.ports q (p.push i true x) } else none
    | none => some { pt with hold := rest }
  | none => none

/-- MULTICAST_INGRESS_COPY (R291). -/
def execMulticastIngressCopy (ctx round : BitVec 16) (point input : Nat) (s : State) : Answered :=
  .next (match s.round ctx round with
    | some r =>
      match (r.point point).copyNext r.desc input with
      | some p => s.setRound (r.setPoint point p)
      | none => s
    | none => s)

/-- MULTICAST_HOLD_RELEASE (R291). -/
def execMulticastHoldRelease (ctx round : BitVec 16) (point input : Nat) (s : State) : Answered :=
  .next (match s.round ctx round with
    | some r =>
      match (r.point point).releaseNext input with
      | some p => s.setRound (r.setPoint point p)
      | none => s
    | none => s)

end Sys2Proof.Machine
end

