-- ==== Sys2Proof/Machine/Exchange.lean ====
section
/-! DEFINITION. The exchange instructions (R277 to R279, R294 to R305, R424). -/

namespace Sys2Proof.Machine

/-- An exchange error at an entry: cause 0x0E with its reason and ROUNDID (R295). -/
def xtrap (s : State) (e : VEntry) (id : BitVec 16) (reason : Nat) : VRun :=
  stopped s (vtrap e 0x0E (BitVec.ofNat 64 (id.toNat * 65536 + reason)) none 0)

/-- The hart number of the current hart (R278). -/
def State.myNumber (s : State) : Nat := s.hartNumber s.hart

/-- Whether hart number `n` is listed for a role that placement `k` may use: one that it opened, or that nobody has (R278, R424).
A hart that stands where another opened the role is not listed for it (log entry 78). -/
def listed (hart : Nat) (opened : Bool) (owner : Option Nat) (n k : Nat) : Bool :=
  hart == n && !(opened && owner.any fun j => j != k)

/-- The sender index of a hart in a round (R278): hart number `n`, placement `k`. -/
def Round.senderOf (r : Round) (n k : Nat) : Option Nat :=
  (r.senders.zipIdx.find? fun p => listed p.1.hart p.1.opened p.1.owner n k).map fun p => p.2

/-- The receiver index of a hart in a round (R278). -/
def Round.receiverOf (r : Round) (n k : Nat) : Option Nat :=
  (r.receivers.zipIdx.find? fun p => listed p.1.hart p.1.opened p.1.owner n k).map fun p => p.2

/-- The sender index of the current hart. -/
def State.mySender (s : State) (r : Round) : Option Nat := r.senderOf s.myNumber s.hart.ident.serial

/-- The receiver index of the current hart. -/
def State.myReceiver (s : State) (r : Round) : Option Nat := r.receiverOf s.myNumber s.hart.ident.serial

/-- A sender of a round. -/
def Round.sender (r : Round) (i : Nat) : XSender := (r.senders.drop i).head?.getD ⟨0, false, false, 0, none, none⟩

/-- A receiver of a round. -/
def Round.receiver (r : Round) (i : Nat) : XReceiver :=
  (r.receivers.drop i).head?.getD ⟨0, false, 0, [], false, [], false, 0, false, none⟩

/-- The round operand checked, then the round found and not ABORTED: the first three checks of R424. An instruction whose round was
aborted while it waited ends (R305). -/
def State.withRound (s : State) (e : VEntry) (k : Round → VRun) : VRun :=
  let id := e.roundId
  if 65536 ≤ e.x0.toNat then xtrap s e id 5
  else if e.aborted then xtrap s e id 7
  else
    match s.round s.hart.xctx.ctxid id with
    | none => xtrap s e id 1
    | some r => if r.state = .aborted then xtrap s e id 7 else k r

/-- The checks of an instruction of the send role (R424): the open sender of the hart. -/
def State.withSender (s : State) (e : VEntry) (k : Round → Nat → XSender → VRun) : VRun :=
  s.withRound e fun r =>
    match s.mySender r with
    | none => xtrap s e r.id 2
    | some i =>
      let q := r.sender i
      if !q.opened then xtrap s e r.id 2 else if q.closed then xtrap s e r.id 3 else k r i q

/-! ### XOPEN -/

/-- A round opened by a role (R279, R296), `owner` being the placement number of the hart. -/
def Round.opened (r : Round) (owner : Option Nat) (send recv : Option Nat) (spill : Word) : Round :=
  let r := match send with
    | some i => r.mapSender i fun q => { q with opened := true, owner := owner }
    | none => r
  let r := match recv with
    | some j => r.mapReceiver j fun q => { q with opened := true, spill := spill, owner := owner }
    | none => r
  { r with state := if r.state = .armed then .opened else r.state }

/-- XOPEN (R296, R424). -/
def State.runXopen (s : State) (e : VEntry) (o : XopenOps) : VRun :=
  let send := o.role.val % 2 = 1
  let recv := 2 ≤ o.role.val
  if recv ∧ 2 ^ 57 ≤ e.x1.toNat then xtrap s e e.roundId 5
  else
    s.withRound e fun r =>
      let si := s.mySender r
      let ri := s.myReceiver r
      if (send ∧ si.isNone) ∨ (recv ∧ ri.isNone) then xtrap s e r.id 2
      else
        let i := si.getD 0
        let j := ri.getD 0
        if (send ∧ (r.sender i).opened) ∨ (recv ∧ (r.receiver j).opened) then xtrap s e r.id 3
        else
          ran (s.setRound (r.opened (some s.hart.ident.serial) (if send then si else none) (if recv then ri else none) e.x1))

/-! ### The sender stream -/

/-- The members of a list, each where it stands first. -/
def distinct {α : Type} [DecidableEq α] (l : List α) : List α :=
  (l.foldl (fun acc a => if acc.contains a then acc else a :: acc) []).reverse

/-- The dies that hold harts of a list of hart numbers, in order: the hart numbers without their low 8 bits. -/
def diesOf (ns : List Nat) : List Nat := distinct (ns.map fun n => n / 256)

/-- The injector input of a sender: the injector merges are the first points of a round, one for each die that sends, and
each has an input for each sender of its die (R283). -/
def Round.injector (r : Round) (i : Nat) : Nat × Nat :=
  let d := (r.sender i).hart / 256
  ((diesOf (r.senders.map fun q => q.hart)).idxOf d,
    ((r.senders.take i).filter fun q => q.hart / 256 == d).length)

/-- Free flits in the injector FIFO of a sender: of its unicast lane, which XSTAT reports (R298, log entry 33). -/
def Round.freeFlits (r : Round) (i : Nat) : Nat :=
  let (d, k) := r.injector i
  laneRoom - (r.point d).uniFlits k

/-- Whether every listed sender has closed (R279). -/
def Round.allClosed (r : Round) : Bool := r.senders.all fun q => q.closed

/-- A sender closes: CLOSE reaches every output of its injector (R285, R297). -/
def Round.close (r : Round) (i : Nat) : Round :=
  let (d, k) := r.injector i
  let r := (r.mapSender i fun q => { q with closed := true }).arrive d k .close
  { r with state := if r.allClosed then .draining else r.state }

/-- The record of a sender after which its floor comes (R281): the last that it has sent. -/
def XSender.last (q : XSender) (i : Nat) : Option (Nat × Nat) := if q.sent = 0 then none else some (i, q.sent - 1)

/-- A sender's floor: one below the value it keeps has no effect (R288, R297). -/
def Round.raise (r : Round) (i f : Nat) : Round :=
  if f < (r.sender i).kept.getD 0 then r
  else
    let (d, k) := r.injector i
    (r.mapSender i fun q => { q with kept := some f }).arrive d k (.floor f ((r.sender i).last i))

/-- Whether the injector takes a FLOOR or a CLOSE of a sender now (R284, R297). -/
def Round.markRoom (r : Round) (i : Nat) : Bool :=
  let (d, k) := r.injector i
  (r.point d).hasRoom r.desc k .close

/-- XCLOSE (R297): a release of scope .s, then CLOSE on every output of the injector. -/
def State.runXclose (s : State) (e : VEntry) : VRun :=
  s.withSender e fun r i _ =>
    if r.markRoom i then ran (s.setRound (r.close i)) else stopped s .wait

/-- XFLOOR (R288, R297). -/
def State.runXfloor (s : State) (e : VEntry) : VRun :=
  s.withSender e fun r i _ =>
    if r.markRoom i then ran (s.setRound (r.raise i (e.x1.toNat % 2 ^ 32))) else stopped s .wait

/-- The receivers of a record (R282, R290). -/
def Round.targets (r : Round) (x : XRecord) : List Nat :=
  if x.mc then
    let g := r.desc.group x.group.toNat
    (List.range r.receivers.length).filter fun i => decide (g.1 ≤ i) && decide (i < g.2)
  else
    let bound := fun i => if i = 0 then 0 else r.desc.splits.getD (i - 1) 0
    ((List.range r.receivers.length).filter fun i => decide (bound i ≤ x.key.toNat)).getLast?.toList

/-- A sample of a round (R292). -/
def Round.sample (r : Round) (x : XRecord) : Round :=
  if r.desc.sampling && (x.seq.toNat + 1) % 2 ^ r.desc.sampleExp == 0 then
    let before := fun (a b : Nat × Nat × Nat) =>
      decide (a.1 < b.1) || (a.1 == b.1 && (decide (a.2.1 < b.2.1) || (a.2.1 == b.2.1 && decide (a.2.2 < b.2.2))))
    { r with samples := insertBy before (x.key.toNat, x.sender.toNat, x.seq.toNat) r.samples }
  else r

/-- One record sent (R288, R300): into the injector, or, out of order, to the exception buffers. The Boolean says that
it was diverted. -/
def Round.send (r : Round) (i : Nat) (x : XRecord) : Round × Bool :=
  let q := r.sender i
  let (d, k) := r.injector i
  if x.key.toNat < q.kept.getD 0 then
    let y := { x with kind := 3 }
    ((r.targets y).foldl (fun t n => t.mapReceiver n fun c => c.except y)
      (r.mapSender i fun q => { q with sent := q.sent + 1 }), true)
  else
    (((r.mapSender i fun q => { q with sent := q.sent + 1, kept := some x.key.toNat }).sample x).arrive d k (.data x), false)

/-- Whether the injector takes a record now. -/
def Round.sendRoom (r : Round) (i : Nat) (x : XRecord) : Bool :=
  let (d, k) := r.injector i
  decide (x.key.toNat < (r.sender i).kept.getD 0) || (r.point d).hasRoom r.desc k (.data x)

/-- The record of element `el` of an XSEND (R300). -/
def sendRecord (vrf : Mem) (r : Round) (i : Nat) (mc : Option (Fin 256)) (o : XsendOps) (el : Nat) : XRecord where
  key := BitVec.ofNat 32 (vget vrf o.keys.val 32 0 el)
  sender := BitVec.ofNat 24 i
  kind := 0
  mc := mc.isSome
  cmb := false
  seq := BitVec.ofNat 32 (r.sender i).sent
  group := BitVec.ofNat 8 ((mc.map fun g => g.val).getD 0)
  payload := match o.pay with
    | some p => (List.range r.desc.pwidth).map fun w => BitVec.ofNat 32 (vget vrf p.val 32 w el)
    | none => []
  flags := 0

/-- The active elements of an XSEND sent one by one, as far as there is room: the round, the elements left, and whether
a record was diverted. -/
def sendAll (vrf : Mem) (i : Nat) (mc : Option (Fin 256)) (o : XsendOps) :
    List Nat → Round → Bool → Round × List Nat × Bool
  | [], r, d => (r, [], d)
  | el :: rest, r, d =>
    let x := sendRecord vrf r i mc o el
    if r.sendRoom i x then
      let (r, out) := r.send i x
      sendAll vrf i mc o rest r (d || out)
    else (r, el :: rest, d)

/-- The progress of an XSEND that waits: elements below `n` are sent, and whether a record was diverted. -/
def State.setDone (s : State) (n : Nat) (diverted : Bool) : State :=
  s.withHart fun h => h.withWorking fun q => { q with e := { q.e with done := n, x2 := if diverted then 1 else 0 } }

/-- XSEND and XSEND.MC (R300, R424): `done` counts the elements of row 0 already sent while it waits for room, and `x2`
says that one was diverted. -/
def State.runXsend (s : State) (e : VEntry) (mc : Option (Fin 256)) (o : XsendOps) : VRun :=
  s.withSender e fun r i q =>
    let (vrf, masks) := s.sources
    let act := (List.range e.vl).filter fun el => decide (e.done ≤ el) && mget masks (e.mask o.m) el
    let suits := match o.pay with
      | some _ => decide (0 < r.desc.pwidth) && decide (r.desc.pwidth ≤ e.vrows)
      | none => decide (r.desc.pwidth = 0)
    let badGroup := match mc with
      | some g => decide (r.desc.groups.length ≤ g.val)
      | none => false
    if !suits then xtrap s e r.id 4
    else if badGroup then xtrap s e r.id 8
    else if 2 ^ 32 < q.sent + act.length then xtrap s e r.id 0x0B
    else
      let (r, left, diverted) := sendAll vrf i mc o act r (e.x2 != 0)
      let s := s.setRound r
      match left with
      | [] => ran (s.withHart fun h => h.setXstatus r.id (if diverted then xsOrdSent else 0))
      | el :: _ => stopped (s.setDone el diverted) .wait

/-! ### XRECV -/

/-- Whether the exception stream of a receiver may be delivered (R289). -/
def Round.drained (r : Round) (q : XReceiver) : Bool := q.sortedClosed && q.fifo.isEmpty && r.allClosed

/-- Whether a receiver has reached END (R289). -/
def Round.atEnd (r : Round) (q : XReceiver) : Bool := r.drained q && q.exceptions.isEmpty

/-- The stream a receiver reads now: the sorted one, else the exception one once it is drained. -/
def Round.stream (r : Round) (q : XReceiver) : List XRecord :=
  if !q.fifo.isEmpty then q.fifo else if r.drained q then q.exceptions else []

/-- The records an XRECV takes: at most `n`, up to one whose payload does not fit (R301). -/
def takeFitting (rows : Nat) (pays : Bool) : Nat → List XRecord → List XRecord
  | 0, _ => []
  | _, [] => []
  | n + 1, x :: rest => if pays && decide (rows < x.payload.length) then [] else x :: takeFitting rows pays n rest

/-- The payload words of a record written at an element (R301). -/
def writePayload (d el : Nat) : Nat → List (BitVec 32) → Mem → Mem
  | _, [], out => out
  | w, p :: rest, out => writePayload d el (w + 1) rest (vset out d 32 w el p.toNat)

/-- The second word of a received record: SENDER, PLEN and the ORDER mark (R301). -/
def recvWord (x : XRecord) : Nat := x.sender.toNat + x.payload.length * 2 ^ 24 + bit01 (x.kind == 3) * 2 ^ 31

/-- Received records written from element `q` on (R301). -/
def writeRecords (o : XrecvOps) : Nat → List XRecord → Mem → Mem
  | _, [], out => out
  | q, x :: rest, out =>
    let out := vset out o.d.val 32 0 q x.key.toNat
    let out := vset out (oddMember o.d).val 32 0 q (recvWord x)
    let out := match o.pay with
      | some p => writePayload p.val q 0 x.payload out
      | none => out
    writeRecords o (q + 1) rest out

/-- Samples kept by the sampling unit in order (R292): `st` is the stride, `c` the arrivals since the last one kept. Each time
that the unit holds as many as it can, it keeps every second one and doubles its stride; the rule speaks of the first time only
(the model's choice, log entry 70). -/
def keepSamples (cap : Nat) : List Nat → Nat → Nat → List Nat → List Nat
  | [], _, _, kept => kept.reverse
  | k :: rest, st, c, kept =>
    if c + 1 < st then keepSamples cap rest st (c + 1) kept
    else
      let kept := k :: kept
      if kept.length = cap then
        keepSamples cap rest (2 * st) 0 ((kept.reverse.zipIdx.filter fun p => p.2 % 2 == 1).map fun p => p.1).reverse
      else keepSamples cap rest st 0 kept

/-- The completion record of a round that reached DONE (R293). -/
def Round.complete (r : Round) : Completion :=
  let q := keepSamples 65536 (r.samples.map fun p => p.1) 1 0 []
  let n := r.receivers.length
  ⟨r.ctx, r.id, true, r.desc.sampling, n, q.length,
    if q.length = 0 then [] else (List.range (n - 1)).map fun i => q.getD ((i + 1) * q.length / n) 0⟩

/-- A round whose every receiver has received END is DONE, and its slot is freed (R279, R293). -/
def State.finishRound (s : State) (r : Round) : State :=
  if r.receivers.all fun q => q.ended then
    { s with rounds := s.rounds.filter fun q => !(q.ctx == r.ctx && q.id == r.id) }.keepCompletion r.complete
  else s

/-- The arrival on ENDGATE by the XRECV that returns END (R302). -/
def State.endGate (s : State) (r : Round) : State :=
  match r.desc.endgate with
  | none => s
  | some g =>
    let id : Word := BitVec.ofNat 64 g
    match s.gateMisuse id s.hart.xctx.ctxid (.arrive 1) with
    | some _ => s.withHart fun h => h.setXstatus r.id xsAbort
    | none => s.setGate id ((s.gateOf id).arrive 1)

/-- END delivered (R289, R301, R302): an acquire of scope .s. -/
def State.recvEnd (s : State) (r : Round) (j : Nat) (o : XrecvOps) : VRun :=
  let lost := (r.receiver j).exLost
  let r := r.mapReceiver j fun q => { q with ended := true }
  let s := (s.setRound r).endGate r
  let s := s.withHart fun h => h.setXstatus r.id (if lost then xsExLost else 0)
  ran ((((s.finishRound r).acquireAt .s)).setScalar o.cnt (BitVec.ofNat 64 (2 ^ 63)))

/-- Records popped from the stream that a receiver reads (R301). -/
def XReceiver.pop (q : XReceiver) (n : Nat) : XReceiver :=
  if q.fifo.isEmpty then { q with exceptions := q.exceptions.drop n, popped := q.popped + n }
  else { q with fifo := q.fifo.drop n, popped := q.popped + n }

/-- The checks of R424 for XRECV: a hart that has received END meets reason 0x01, even in an ABORTED round. -/
def State.withReceiver (s : State) (e : VEntry) (k : Round → Nat → XReceiver → VRun) : VRun :=
  let id := e.roundId
  if 65536 ≤ e.x0.toNat then xtrap s e id 5
  else if e.aborted then xtrap s e id 7
  else
    match s.round s.hart.xctx.ctxid id with
    | none => xtrap s e id 1
    | some r =>
      match s.myReceiver r with
      | none => xtrap s e id (if r.state = .aborted then 7 else 2)
      | some j =>
        let q := r.receiver j
        if q.ended then xtrap s e id 1
        else if r.state = .aborted then xtrap s e id 7
        else if !q.opened then xtrap s e id 2
        else k r j q

/-- XRECV (R301, R424). ORDVIOL is set at every delivery of an ORDER record (R289, R303): at a later one, after software has cleared
it, this is the model's choice (log entry 83). -/
def State.runXrecv (s : State) (e : VEntry) (o : XrecvOps) : VRun :=
  s.withReceiver e fun r j q =>
      let st := r.stream q
      if st.isEmpty && !r.atEnd q then (if o.nb then ran (s.setScalar o.cnt 0) else stopped s .wait)
      else if decide (0 < e.vl) && (st.head?.map fun x => o.pay.isSome && decide (e.vrows < x.payload.length)).getD false then
        xtrap s e r.id 4
      else
        let got := takeFitting e.vrows o.pay.isSome e.vl st
        if got.isEmpty && r.atEnd q then s.recvEnd r j o
        else
          let s := s.setVrf (writeRecords o 0 got s.hart.vrf)
          let fl := got.foldl (fun a x => a ||| x.flags) 0
          let s := s.withHart fun h =>
            h.setXstatus r.id (fl.toNat * 256 + (if got.any fun x => x.kind == 3 then xsOrdViol else 0))
          ran ((s.setRound (r.mapReceiver j fun q => q.pop got.length)).setScalar o.cnt (BitVec.ofNat 64 got.length))

/-! ### XSTAT and XSPLIT -/

/-- The STATE code of a round (R298). -/
def RoundState.code : RoundState → Nat
  | .armed => 1
  | .opened => 2
  | .draining => 3
  | .aborted => 5

/-- XSTAT (R298): the free flits are those of the unicast lane, and 1,024 for a hart that is no sender, which the rule leaves
open (log entry 33). -/
def State.runXstat (s : State) (e : VEntry) (o : XstatOps) : VRun :=
  if 65536 ≤ e.x0.toNat then xtrap s e e.roundId 5
  else
    let ctx := s.hart.xctx.ctxid
    let v : Nat :=
      match s.round ctx e.roundId with
      | some r =>
        let free := match s.mySender r with
          | some i => r.freeFlits i
          | none => laneRoom
        let popped := match s.myReceiver r with
          | some j => (r.receiver j).popped
          | none => 0
        r.state.code * 2 ^ 61 + free * 2 ^ 32 + popped % 2 ^ 32
      | none =>
        match s.completion ctx e.roundId with
        | some c => if c.reachedDone then 4 * 2 ^ 61 else 0
        | none => 0
    ran (s.setScalar o.d (BitVec.ofNat 64 v))

/-- The stores of the keys of a proposal, each checked at its place. -/
def State.splitStores (s : State) (e : VEntry) (va : Word) : List Nat → List VStore → (List VStore → State → VRun) → VRun
  | [], acc, k => k acc.reverse s
  | key :: rest, acc, k =>
    let bad := fun (s : State) (f : AccFault) =>
      match f with
      | .fault c r l => stopped s (vtrap e c va (some (mkXlinfo 3 r l)) 0)
      | .ecc g => stopped s (s.eccStop g)
      | .noPath => s.pathWait
    match s.locateAt e.level .store va with
    | (s, .error f) => bad s f
    | (s, .ok (pa, kind)) =>
      match s.checkAt .store pa with
      | (s, .error f) => bad s f
      | (s, .ok ()) => s.splitStores e (va + 4) rest (⟨va, pa, natBytes 4 key, kind⟩ :: acc) k

/-- XSPLIT once NRECV and SPLITS of the later round's descriptor are read (R299): the keys of the proposal are stored. -/
def runXsplitOn (e : VEntry) (o : XsplitOps) (c : Completion) (ws : List Nat) (s : State) : VRun :=
  let n := ws.getD 0 0
  let splits := ws.getD 1 0
  if n ≠ c.nrecv then xtrap s e e.roundId 9
  else if splits % 4 ≠ 0 ∧ 1 < n then stopped s (vtrap e 0x06 (BitVec.ofNat 64 splits) none 0)
  else
    s.splitStores e (BitVec.ofNat 64 splits) c.proposal [] fun l s =>
      ran ((s.makeStores e l).setScalar o.d (BitVec.ofNat 64 c.samples))

/-- XSPLIT (R299): one that waits when its round is aborted ends with reason 0x07 (R305). The rule names no order of its checks and
none of alignment: a record that is missing or cannot be used is reported before a misaligned descriptor, and a descriptor or
SPLITS address that is not aligned as R277 has it is cause 0x06 (the model's choice, log entry 69). -/
def State.runXsplit (s : State) (e : VEntry) (o : XsplitOps) : VRun :=
  let ctx := s.hart.xctx.ctxid
  let live := (s.round ctx e.roundId).map fun r => r.state != .aborted
  if 65536 ≤ e.x0.toNat then xtrap s e e.roundId 5
  else if e.aborted then xtrap s e e.roundId 7
  else if live = some true then stopped s .wait
  else
    match s.completion ctx e.roundId with
    | none => xtrap s e e.roundId 9
    | some c =>
      if !c.reachedDone || !c.sampling || c.samples == 0 then xtrap s e e.roundId 9
      else if !aligned e.x1 64 then stopped s (vtrap e 0x06 e.x1 none 0)
      else
        State.tableWords e (runXsplitOn e o c) [(e.x1 + 0x0C, 4), (e.x1 + 0x20, 8)] [] s

/-! ### XROUND -/

/-- Whether a list rises strictly. -/
def rising : List Nat → Bool
  | [] => true
  | [_] => true
  | a :: b :: rest => decide (a < b) && rising (b :: rest)

/-- Whether a list does not fall. -/
def notFalling : List Nat → Bool
  | [] => true
  | [_] => true
  | a :: b :: rest => decide (a ≤ b) && notFalling (b :: rest)

/-- The fields of a round descriptor (R277): eight words, and what they hold. -/
structure DescWords where
  w0 : Nat
  w1 : Nat
  sendList : Nat
  recvList : Nat
  splits : Nat
  groups : Nat
  endgate : Nat
  reserved : Nat
deriving DecidableEq, Repr

/-- Byte `i` of word 0. -/
def DescWords.byte (d : DescWords) (i : Nat) : Nat := d.w0 / 256 ^ i % 256

/-- NGRP. -/
def DescWords.ngrp (d : DescWords) : Nat := d.w0 / 2 ^ 48 % 65536

/-- NSEND. -/
def DescWords.nsend (d : DescWords) : Nat := d.w1 % 2 ^ 32

/-- NRECV. -/
def DescWords.nrecv (d : DescWords) : Nat := d.w1 / 2 ^ 32 % 2 ^ 32

/-- Whether the fields of a descriptor are in the ranges of R277 and R286. -/
def DescWords.valid (d : DescWords) : Bool :=
  let pw := d.byte 2
  let comb := d.byte 3
  let mode := comb % 4
  let fmt := comb / 4 % 8
  let cl := d.byte 4
  let sa := d.byte 5
  decide (pw ≤ 64) && decide (comb / 32 = 0) && decide (fmt ≤ 4) &&
    (decide (fmt = 0) || decide (mode = 1) || decide (mode = 2)) && (decide (fmt ≠ 4) || decide (pw % 2 = 0)) &&
    (if mode = 3 then decide (pw ≤ cl) && decide (cl ≤ 64) else decide (cl = 0)) &&
    decide (sa % 32 ≤ 20) && decide (sa / 32 % 4 = 0) && decide (d.ngrp ≤ 256) &&
    decide (1 ≤ d.nsend) && decide (d.nsend ≤ 16777216) && decide (1 ≤ d.nrecv) && decide (d.nrecv ≤ 16777216) &&
    decide (d.endgate % 2 ^ 63 < 2 ^ 19) && decide (d.reserved = 0)

/-- The lowest misaligned table address of a descriptor (R277). -/
def DescWords.misaligned (d : DescWords) : Option Nat :=
  if d.sendList % 4 ≠ 0 then some d.sendList
  else if d.recvList % 4 ≠ 0 then some d.recvList
  else if 1 < d.nrecv ∧ d.splits % 4 ≠ 0 then some d.splits
  else if 0 < d.ngrp ∧ d.groups % 8 ≠ 0 then some d.groups
  else none

/-- A group entry (R290), or none when it is out of range. -/
def groupEntry (nrecv w : Nat) : Option (Nat × Nat) :=
  let lo := w % 2 ^ 24
  let hi := w / 2 ^ 32 % 2 ^ 25
  if w / 2 ^ 24 % 256 = 0 ∧ w / 2 ^ 57 = 0 ∧ lo < hi ∧ hi ≤ nrecv then some (lo, hi) else none

/-- What the descriptor says of a round. -/
def DescWords.desc (d : DescWords) (splits : List Nat) (groups : List (Nat × Nat)) : RoundDesc where
  pwidth := d.byte 2
  comb := d.byte 3
  cfmt := d.byte 3 / 4 % 8
  climit := d.byte 4
  sampleExp := d.byte 5 % 32
  sampling := 128 ≤ d.byte 5
  splits := splits
  groups := groups
  endgate := if 2 ^ 63 ≤ d.endgate then some (d.endgate % 2 ^ 19) else none

/-- A merge point by its place (R283): the injector and the egress merge of a die, the switch of a package, the position that
the packages of a quad share at stage 1, on the way up and on the way down, and a switch of the stages 1 to 3. What rises from
lower to higher packages is carried apart from what falls, so that every input has a contiguous range of senders and every port
one of receivers (R281, log entry 17). -/
inductive XNode where
  | injector (die : Nat)
  | switch (pkg : Nat)
  | quad (q : Nat) (up rises : Bool)
  | stage (level pre : Nat) (rises : Bool)
  | egress (die : Nat)
deriving DecidableEq, Repr

/-- The low bits of a hart number that the switches of a stage tell apart (R283). -/
def stageBits : Nat → Nat
  | 1 => 17
  | 2 => 22
  | _ => 27

/-- The merge point that follows on the way to hart number `n` (R283). -/
def XNode.hop (n : Nat) : XNode → XNode
  | .injector d => .switch (d / 4)
  | .switch p =>
    if n / 1024 = p then .egress (n / 256)
    else if n / 4096 = p / 4 then .switch (n / 1024)
    else .quad (p / 4) true (decide (p < n / 1024))
  | .quad q up rises => if up then .stage 1 (q / 32) rises else .switch (n / 1024)
  | .stage l pre up =>
    if n / 2 ^ stageBits l ≠ pre ∧ l < 3 then .stage (l + 1) (pre / 32) up
    else if l = 1 then .quad (n / 4096) false up
    else .stage (l - 1) (n / 2 ^ stageBits (l - 1)) up
  | .egress d => .egress d

/-- The path from a merge point to hart number `n`, at most `fuel` hops. -/
def XNode.path (n : Nat) : Nat → XNode → List XNode
  | 0, u => [u]
  | fuel + 1, u =>
    match u with
    | .egress _ => [u]
    | _ => u :: XNode.path n fuel (u.hop n)

/-- The consecutive members of a list. -/
def pairs {α : Type} : List α → List (α × α)
  | a :: b :: rest => (a, b) :: pairs (b :: rest)
  | _ => []

/-- The links between merge points on the way from the dies of some senders to a receiver. -/
def linksTo (dies : List Nat) (n : Nat) : List (XNode × XNode) :=
  distinct (dies.flatMap fun d => pairs (XNode.path n 12 (.injector d)))

/-- Every link between merge points that a round uses, those of lower senders first. -/
def roundLinks (dies recvs : List Nat) : List (XNode × XNode) :=
  distinct (dies.flatMap fun d => (distinct (recvs.map fun n => n / 256)).flatMap fun t =>
    pairs (XNode.path (256 * t) 12 (.injector d)))

/-- The merge points of a round: the injectors first (R283). -/
def roundNodes (dies recvs : List Nat) : List XNode :=
  distinct (dies.map XNode.injector ++ (roundLinks dies recvs).map fun l => l.2)

/-- The inputs of a merge point in the order of their senders (R281). -/
def nodeInputs (links : List (XNode × XNode)) (u : XNode) : List XNode :=
  (links.filter fun l => l.2 == u).map fun l => l.1

/-- An input of a port, or one that carries nothing to it; the multicast lane is closed when the round has no group
(R279). -/
def newInput (used mc : Bool) : XInput := ⟨if used then [] else [.shut], if used && mc then [] else [.shut]⟩

/-- The runs of equal neighbours in a list of keyed indices: key, first and past the last. -/
def runsOf {α : Type} [DecidableEq α] : List (α × Nat) → List (α × Nat × Nat)
  | [] => []
  | (a, i) :: rest =>
    match runsOf rest with
    | (b, _, hi) :: more => if a = b then (a, i, hi) :: more else (a, i, i + 1) :: (b, i + 1, hi) :: more
    | [] => [(a, i, i + 1)]

/-- The receivers that a merge point leads to, with the point that follows, in the order of their indices. -/
def nodeTargets (dies recvs : List Nat) (u : XNode) : List (XNode × Nat) :=
  recvs.zipIdx.filterMap fun p =>
    ((linksTo dies p.1).find? fun l => l.1 == u).map fun l => (l.2, p.2)

/-- One merge point of a round (R283): its ports with the receivers they serve, and their inputs. -/
def newPoint (d : RoundDesc) (sends recvs : List Nat) (u : XNode) : XPoint :=
  let dies := diesOf sends
  let links := roundLinks dies recvs
  let mc := !d.groups.isEmpty
  let split := fun lo => if lo = 0 then 0 else d.splits.getD (lo - 1) 0
  match u with
  | .egress t =>
    ⟨(recvs.zipIdx.filter fun p => p.1 / 256 == t).map fun p =>
        ⟨none, p.2, p.2 + 1, split p.2, [newInput true mc], none, false, none⟩, [], []⟩
  | .injector t =>
    ⟨[⟨some ((roundNodes dies recvs).idxOf (.switch (t / 4)), (nodeInputs links (.switch (t / 4))).idxOf u), 0, recvs.length, 0,
        (sends.filter fun n => n / 256 == t).map fun _ => newInput true mc, none, false, none⟩], [], []⟩
  | _ =>
    ⟨(runsOf (nodeTargets dies recvs u)).map fun (v, lo, hi) =>
        let serves := (recvs.drop lo).take (hi - lo)
        ⟨some ((roundNodes dies recvs).idxOf v, (nodeInputs links v).idxOf u), lo, hi, split lo,
          (nodeInputs links u).map fun w =>
            newInput (dies.any fun t => serves.any fun n =>
              (pairs (pairs (XNode.path n 12 (.injector t)))).contains ((w, u), (u, v))) mc,
          none, false, none⟩, [], []⟩

/-- The merge points of a round (R283, log entry 17). -/
def newPoints (d : RoundDesc) (sends recvs : List Nat) : List XPoint :=
  (roundNodes (diesOf sends) recvs).map (newPoint d sends recvs)

/-- The fabric port that leads from this package to another: a direct link of the quad, else one to stage 1 (R221, R283); a
port with all its lanes before one at half width, and of those the first. The rules name no port (the model's choice, log entry
68). -/
def State.portTo (s : State) (pkg : Nat) : Option Nat :=
  let k := ((List.range 4).filter fun i => i ≠ s.pkg.toNat % 4).idxOf (pkg % 4)
  let direct := if pkg / 4 = s.pkg.toNat / 4 then [2 * k, 2 * k + 1] else []
  let free := (direct ++ (List.range 26).map fun i => 6 + i).filter s.portUsable
  (free.find? fun p => s.power.lanes.getD p 0 == 4).or free.head?

/-- The fabric ports of this package that a round's traffic uses, fixed when the round is armed (R306). -/
def State.roundPorts (s : State) (sends recvs : List Nat) : List Nat :=
  let mine := fun (n : Nat) => n / 1024 == s.pkg.toNat
  let away := fun (a b : List Nat) => if a.any mine then (b.filter fun n => !mine n).map fun n => n / 1024 else []
  distinct ((away sends recvs ++ away recvs sends).filterMap s.portTo)

/-- A round as XROUND makes it (R279). -/
def State.newRound (s : State) (ctx id : BitVec 16) (desc : RoundDesc) (sends recvs : List Nat) : Round where
  ctx := ctx
  id := id
  state := .armed
  desc := desc
  senders := sends.map fun n => ⟨n, false, false, 0, none, none⟩
  receivers := recvs.map fun n => ⟨n, false, 0, [], false, [], false, 0, false, none⟩
  points := newPoints desc sends recvs
  links := s.roundPorts sends recvs
  samples := []

/-- The round armed (R279, R295): an ABORTED round of the ROUNDID is armed again, and its completion record goes. -/
def State.arm (s : State) (r : Round) : State :=
  { s with
    rounds := (s.rounds.filter fun q => !(q.ctx == r.ctx && q.id == r.id)) ++ [r]
    completions := s.completions.filter fun c => !(c.ctx == r.ctx && c.id == r.id) }

/-- The last checks of XROUND, and its effect (R295). -/
def State.armChecked (s : State) (e : VEntry) (d : DescWords) (sends recvs splits groups : List Nat) : VRun :=
  let ctx := s.hart.xctx.ctxid
  let id : BitVec 16 := BitVec.ofNat 16 d.w0
  let gs := groups.filterMap (groupEntry d.nrecv)
  let others := (s.rounds.filter fun r => r.ctx == ctx && r.id != id).length
  let live : Bool := match s.round ctx id with
    | some r => r.state != .aborted
    | none => false
  if !rising sends || !rising recvs || !notFalling splits || gs.length != groups.length ||
      (sends ++ recvs).any fun n => !s.partyPresent ctx n then xtrap s e id 5
  else if live then xtrap s e id 6
  else if 8 ≤ others then xtrap s e id 0x0A
  else
    ran (s.arm (s.newRound ctx id (d.desc splits gs) sends recvs))

/-- The places of the tables of a descriptor, in order (R277). -/
def DescWords.tables (d : DescWords) : List (Word × Nat) :=
  tableEntries (BitVec.ofNat 64 d.sendList) 4 d.nsend ++ tableEntries (BitVec.ofNat 64 d.recvList) 4 d.nrecv ++
    tableEntries (BitVec.ofNat 64 d.splits) 4 (d.nrecv - 1) ++ tableEntries (BitVec.ofNat 64 d.groups) 8 d.ngrp

/-- XROUND once its tables are read (R295). -/
def armRead (e : VEntry) (d : DescWords) (ws : List Nat) (s : State) : VRun :=
  let rest := ws.drop (d.nsend + d.nrecv)
  s.armChecked e d (ws.take d.nsend) ((ws.drop d.nsend).take d.nrecv) (rest.take (d.nrecv - 1)) (rest.drop (d.nrecv - 1))

/-- The tables of a descriptor read and checked (R295). The rule orders the reasons of cause 0x0E only: a field out of its range
comes first, then a misaligned table, then what reading the tables meets, then what they hold (the model's choice, log entry
69). -/
def State.readRound (s : State) (e : VEntry) (d : DescWords) : VRun :=
  if !d.valid then xtrap s e (BitVec.ofNat 16 d.w0) 5
  else
    match d.misaligned with
    | some va => stopped s (vtrap e 0x06 (BitVec.ofNat 64 va) none 0)
    | none => State.tableWords e (armRead e d) d.tables [] s

/-- XROUND once the eight words of its descriptor are read (R295). -/
def runXroundOn (e : VEntry) (ws : List Nat) (s : State) : VRun :=
  match ws with
  | [w0, w1, a, b, c, d, g, r] => s.readRound e ⟨w0, w1, a, b, c, d, g, r⟩
  | _ => ran s

/-- XROUND (R295). -/
def State.runXround (s : State) (e : VEntry) : VRun :=
  if !aligned e.x0 64 then stopped s (vtrap e 0x06 e.x0 none 0)
  else State.tableWords e (runXroundOn e) (tableEntries e.x0 8 8) [] s

/-! ### Harts of other packages -/

/-- A record that a hart of another package sends, with the fields its injector gives it (R280, R288). -/
def Round.peerSend (r : Round) (i : Nat) (x : XRecord) : Round :=
  (r.send i { x with
    sender := BitVec.ofNat 24 i, seq := BitVec.ofNat 32 (r.sender i).sent, kind := 0, cmb := false, flags := 0 }).1

/-- What a hart of another package does in a round (R296, R297, R300, R301); an act that its own package would refuse, or that
waits for room, changes nothing. A link elsewhere that carries the round and has no lane left aborts it (R306). -/
def State.peerAct (s : State) (ctx id : BitVec 16) (n : Nat) (act : PeerAct) : State :=
  match s.round ctx id with
  | none => s
  | some r =>
    if r.state = .aborted ∨ n / 1024 = s.pkg.toNat then s
    else
      let sends := (r.senderOf n 0).filter fun i => (r.sender i).opened && !(r.sender i).closed
      match act with
      | .opened send recv spill =>
        s.setRound (r.opened none (if send then r.senderOf n 0 else none) (if recv then r.receiverOf n 0 else none) spill)
      | .sent x =>
        match sends with
        | some i => if r.sendRoom i x then s.setRound (r.peerSend i x) else s
        | none => s
      | .floored f =>
        match sends.filter r.markRoom with
        | some i => s.setRound (r.raise i f)
        | none => s
      | .closed =>
        match sends.filter r.markRoom with
        | some i => s.setRound (r.close i)
        | none => s
      | .received k =>
        match r.receiverOf n 0 with
        | some j =>
          if (r.stream (r.receiver j)).isEmpty && r.atEnd (r.receiver j) then
            let r := r.mapReceiver j fun q => { q with ended := true }
            (s.setRound r).finishRound r
          else s.setRound (r.mapReceiver j fun q => q.pop (min k (r.stream q).length))
        | none => s
      | .lost => s.abortRound r

/-- A round that an XROUND of another package arms, when no live one has its ROUNDID (R279, R295). -/
def State.peerRound (s : State) (ctx id : BitVec 16) (d : RoundDesc) (sends recvs : List Nat) : State :=
  if (s.round ctx id).any fun r => r.state != .aborted then s else s.arm (s.newRound ctx id d sends recvs)

end Sys2Proof.Machine
end

