-- ==== Sys2Proof/Machine/Copy.lean ====
section
/-! DEFINITION. Copies, chunk maps and PUBLISH (R257, R265 to R271, R350). -/

namespace Sys2Proof.Machine

/-! ### Geometry -/

/-- Bytes of a copy (R267). -/
def Copy.total (c : Copy) : Nat := c.rows * c.rowBytes

/-- Chunks that a copy covers (R267). -/
def Copy.chunks (c : Copy) : Nat := ceilDiv c.total c.csize

/-- The destination address of byte `i` (R267). -/
def Copy.dstAddr (c : Copy) (i : Nat) : Word :=
  c.dst + BitVec.ofNat 64 (i / c.rowBytes) * c.dpitch + BitVec.ofNat 64 (i % c.rowBytes)

/-- The source address of byte `i` (R267). -/
def Copy.srcAddr (c : Copy) (i : Nat) : Word :=
  c.src + BitVec.ofNat 64 (i / c.rowBytes) * c.spitch + BitVec.ofNat 64 (i % c.rowBytes)

/-- The pieces of bytes [i, stop) that lie in one row and one aligned destination word (R241): first byte and length. -/
def Copy.pieces (c : Copy) (stop : Nat) : Nat → Nat → List (Nat × Nat)
  | 0, _ => []
  | fuel + 1, i =>
    if stop ≤ i then []
    else
      let n := min (8 - (c.dstAddr i).toNat % 8) (min (c.rowBytes - i % c.rowBytes) (stop - i))
      (i, n) :: c.pieces stop fuel (i + n)

/-- The pieces of the chunk with ordinal `j` (R267). -/
def Copy.chunkPieces (c : Copy) (j : Nat) : List (Nat × Nat) :=
  c.pieces (min c.total ((j + 1) * c.csize)) c.csize (j * c.csize)

/-- The shape and pitches of a posted CPY: x0 pitches, x1 source, x2 destination, x3 shape (R266). -/
def copyOf (e : VEntry) (sh : Bool) (o : CpyOps) : Copy where
  src := e.x1
  dst := e.x2
  spitch := (e.x0.setWidth 32).signExtend 64
  dpitch := (BitVec.ofNat 32 (e.x0.toNat / 2 ^ 32)).signExtend 64
  rows := e.x3.toNat / 2 ^ 24 % 65536
  rowBytes := e.x3.toNat % 2 ^ 24
  c0 := o.c0.val
  csize := 512 * 2 ^ o.csh.val
  scope := o.scope
  map := o.map
  sh := sh
  gate := if e.x3.getLsbD 40 then some (e.x3.toNat / 2 ^ 52 % 256 * 2048 + e.x3.toNat / 2 ^ 41 % 2048) else none
  next := 0
  inFlight := []
  failure := none
  reported := false

/-- The bits of a chunk map that a copy covers. -/
def Copy.cover (c : Copy) : BitVec 64 := BitVec.ofNat 64 ((2 ^ c.chunks - 1) * 2 ^ c.c0)

/-- The chunks of a map that copies posted and not begun cover: BUSY as the issue of a further CPY finds it (R267). -/
def Hart.postedCover (h : Hart) (m : Fin 64) : BitVec 64 :=
  h.viq.foldl
    (fun b q =>
      match q.e.instr with
      | .cpy sh o => if o.map = m && !q.e.complete then b ||| (copyOf q.e sh o).cover else b
      | _ => b) 0

/-- Whether a CPY at issue is reserved (R267): cause 0x05, TVAL 0x02. -/
def State.copyReserved (s : State) (e : VEntry) (sh : Bool) (o : CpyOps) : Bool :=
  let c := copyOf e sh o
  decide (2 ^ 60 ≤ e.x3.toNat) || o.rsv != 0 || decide (64 < c.c0 + c.chunks) ||
    ((s.hart.chunks[o.map].busy ||| s.hart.postedCover o.map) &&& c.cover) != 0

/-! ### Deferred faults -/

/-- One chunk map set. -/
def Hart.setChunks (h : Hart) (m : Fin 64) (c : ChunkMap) : Hart := { h with chunks := h.chunks.set m c }

/-- TVAL of kinds 1 to 5 (R269). -/
def CopyFail.tval (f : CopyFail) : Word := BitVec.ofNat 64 (f.kind * 2 ^ 60) ||| BitVec.ofNat 64 (f.addr.toNat % 2 ^ 57)

/-- TVAL of kinds 6 to 8 (R271). -/
def mapTval (kind : Nat) (m : Fin 64) (chunk : Nat) : Word := BitVec.ofNat 64 (kind * 2 ^ 60 + m.val * 64 + chunk)

/-- The first undelivered copy failure, and the copies with it marked delivered (R269); a copy that met an error in a page
walk goes on from its failing chunk when the error is consumed (R380, log entry 63). -/
def takeFailure : List CopyCtx → Option (CopyFail × List CopyCtx)
  | [] => none
  | c :: rest =>
    match c.copy.failure, c.copy.reported with
    | some f, false =>
      some (f, { c with copy :=
        if f.ecc.isSome then { c.copy with failure := none } else { c.copy with reported := true } } :: rest)
    | _, _ =>
      match takeFailure rest with
      | some (f, r) => some (f, c :: r)
      | none => none

/-- A copy-class instruction of the vector side: a pending copy fault is delivered first (R269, R376), or the error that a page
walk of a copy met is consumed (R380). -/
def State.copyClass (s : State) (e : VEntry) (k : State → VRun) : VRun :=
  match takeFailure s.hart.copies with
  | some (f, cs) =>
    stopped (s.withHart fun h => { h with copies := cs })
      (match f.ecc with
        | some g => s.eccStop g
        | none => vtrap e 0x0B f.tval f.xlinfo 0)
  | none => k s

/-- A copy-class instruction of the scalar side, its VIQ empty (R269, R376, R380). -/
def State.copyClassScalar (s : State) (k : State → State) : State :=
  match takeFailure s.hart.copies with
  | some (f, cs) =>
    let s := s.withHart fun h => { h with copies := cs }
    match f.ecc with
    | some g => s.accessFault .load f.addr (.ecc g)
    | none => s.takeTrap ⟨0x0B, f.tval, 0, s.hart.scalar.pc, f.xlinfo, none⟩
  | none => k s

/-! ### CPY -/

/-- The gate arrival of a copy, a release at its scope (R267); a refusal is a failure of kind 5 (R269). -/
def State.copyArrive (s : State) (c : CopyCtx) : State × Option CopyFail :=
  match c.copy.gate with
  | none => (s, none)
  | some g =>
    let id : Word := BitVec.ofNat 64 g
    match s.gateMisuse id c.xctx.ctxid (.arrive 1) with
    | some r => (s, some ⟨5, gateTval id r, none, none⟩)
    | none => (s.setGate id ((s.gateOf id).arrive 1), none)

/-- A copy whose chunks are all LANDED arrives on its gate and is complete, or is kept with its failure (R268, R269). -/
def State.endCopy (s : State) (c : CopyCtx) : State × List CopyCtx :=
  match s.copyArrive c with
  | (s, none) => (s, [])
  | (s, some f) => (s, [{ c with copy := { c.copy with failure := some f } }])

/-- CPY and CPY.SH (R267, R268): a ninth outstanding copy waits. -/
def State.runCpy (s : State) (e : VEntry) (sh : Bool) (o : CpyOps) : VRun :=
  s.copyClass e fun s =>
    if 8 ≤ s.hart.copies.length then stopped s .wait
    else
      let c : CopyCtx := ⟨copyOf e sh o, s.hart.xctx, e.level⟩
      if c.copy.total = 0 then
        let (s, rest) := s.endCopy c
        ran (s.withHart fun h => { h with copies := h.copies ++ rest })
      else
        let b := c.copy.cover
        ran (s.withHart fun h =>
          let m := h.chunks[o.map]
          { h.setChunks o.map
              { released := m.released &&& ~~~b, landed := m.landed &&& ~~~b
                sh := if sh then m.sh ||| b else m.sh &&& ~~~b, busy := m.busy ||| b
                scopes := (List.range c.copy.chunks).foldl (fun l j => assocSet l (c.copy.c0 + j) c.copy.scope) m.scopes } with
            copies := h.copies ++ [c]
            shChunks := h.shChunks.filter fun q => !(q.1 == o.map && b.getLsbD q.2.1) })

/-! ### The copy engine -/

/-- A copy engine as a requester (R356). -/
def State.engine (s : State) (c : CopyCtx) : Requester := ⟨1, c.xctx.ctxid, s.pkg, s.hart.core⟩

/-- What reading part of a chunk gives: bytes with their poison, a failure, or no path. -/
inductive CopyRead where
  | bytes (bs : List Byte) (poison : Bool)
  | fail (f : CopyFail)
  | noPath

/-- A failure of a copy access, its kind from its cause (R269): source kinds 1 and 2, destination kinds 3 and 4. -/
def copyFailOf (src : Bool) (va : Word) (cause reason level : Nat) : CopyRead :=
  .fail ⟨(if cause = 7 then 1 else 2) + (if src then 0 else 2), va, some (mkXlinfo (if src then 2 else 3) reason level), none⟩

/-- An error that a page walk of a copy engine met: it is consumed at the hart's next copy-class instruction (R380, log entry
63). -/
def copyEcc (va : Word) (g : Nat) : CopyRead := .fail ⟨0, va, none, some g⟩

/-- One source byte read as a load of the hart reads it, through the caches of its core and die (R222, R241); a transient error
is fetched again, poison is carried along (R379). -/
def State.copyByte (s : State) (c : CopyCtx) (late : Bool) (va : Word) : State × CopyRead :=
  match s.translate (s.engine c) c.xctx c.level .load va.toNat with
  | (s, .error (.fault x r l)) => (s, copyFailOf true va x r l)
  | (s, .error (.ecc g)) => (s, copyEcc va g)
  | (s, .error .noPath) => (s, if late then copyFailOf true va 8 8 3 else .noPath)
  | (s, .ok (pa, kind)) =>
    match s.physRead (s.engine c) .load pa 1 (some kind) with
    | (s, .bytes bs none) => (s, .bytes bs false)
    | (s, .bytes bs (some g)) =>
      let s := s.dropTransient g
      match s.physRead (s.engine c) .load pa 1 (some kind) with
      | (s, .bytes bs' e) => (s, .bytes bs' e.isSome)
      | (s, _) => (s, .bytes bs (s.store.poison.contains g))
    | (s, .error) => (s, copyFailOf true va 8 8 3)
    | (s, .noPath) => (s, if late then copyFailOf true va 8 8 3 else .noPath)

/-- `n` source bytes from byte `i` on. -/
def State.copyBytes (c : CopyCtx) (late : Bool) : Nat → Nat → State → State × CopyRead
  | 0, _, s => (s, .bytes [] false)
  | n + 1, i, s =>
    match s.copyByte c late (c.copy.srcAddr i) with
    | (s, .bytes b p) =>
      match State.copyBytes c late n (i + 1) s with
      | (s, .bytes bs q) => (s, .bytes (b ++ bs) (p || q))
      | r => r
    | r => r

/-- A failed translation of a CPY.SH destination (R269, R349, R350): a shadow word that is missing or no valid, well-formed leaf
with W is kind 3. -/
def shadowFailOf (va : Word) (cause reason level : Nat) : CopyRead :=
  if reason = 0 then .fail ⟨3, va, none, none⟩
  else if reason = 4 then .fail ⟨3, va, some (mkXlinfo 3 reason level), none⟩
  else copyFailOf false va cause reason level

/-- The destination of a piece translated and checked: through the shadow word for CPY.SH (R350). -/
def State.copyDest (s : State) (c : CopyCtx) (late : Bool) (va : Word) : State × Except CopyRead Nat :=
  let t := if c.copy.sh then s.translateShadow (s.engine c) c.xctx c.level va.toNat
    else s.translate (s.engine c) c.xctx c.level .store va.toNat
  match t with
  | (s, .error (.fault x r l)) =>
    (s, .error (if c.copy.sh then shadowFailOf va x r l else copyFailOf false va x r l))
  | (s, .error (.ecc g)) => (s, .error (copyEcc va g))
  | (s, .error .noPath) => (s, .error (if late then copyFailOf false va 8 8 3 else .noPath))
  | (s, .ok (pa, _)) =>
    match s.physCheck (s.engine c) .store pa with
    | (s, .bytes _ _) => (s, .ok pa)
    | (s, .error) => (s, .error (copyFailOf false va 8 8 3))
    | (s, .noPath) => (s, .error (if late then copyFailOf false va 8 8 3 else .noPath))

/-- The pieces of a chunk translated and read, or the first failure (R267, R269): that of the lowest piece, its source before
its destination, an order that the spec leaves open (log entry 37). -/
def State.readPieces (c : CopyCtx) (late : Bool) : List (Nat × Nat) → State → State × Except CopyRead (List CopyPiece)
  | [], s => (s, .ok [])
  | (i, n) :: rest, s =>
    match State.copyBytes c late n i s with
    | (s, .bytes bs p) =>
      match s.copyDest c late (c.copy.dstAddr i) with
      | (s, .error r) => (s, .error r)
      | (s, .ok pa) =>
        match State.readPieces c late rest s with
        | (s, .ok ps) => (s, .ok (⟨pa, bs, p⟩ :: ps))
        | (s, .error r) => (s, .error r)
    | (s, r) => (s, .error r)

/-- The next chunk of a copy read: RELEASED is set, or the copy is suspended (R267, R269). -/
def State.readChunk (s : State) (c : CopyCtx) (late : Bool) : State × CopyCtx :=
  match State.readPieces c late (c.copy.chunkPieces c.copy.next) s with
  | (s, .ok ps) =>
    let b : BitVec 64 := BitVec.ofNat 64 (2 ^ (c.copy.c0 + c.copy.next))
    (s.withHart fun h => h.setChunks c.copy.map { h.chunks[c.copy.map] with released := h.chunks[c.copy.map].released ||| b },
      { c with copy := { c.copy with next := c.copy.next + 1, inFlight := c.copy.inFlight ++ [(c.copy.next, ps)] } })
  | (s, .error (.fail f)) => (s, { c with copy := { c.copy with failure := some f } })
  | (s, .error _) => (s, c)

/-- Whether a copy may issue its next chunk: it is not suspended, and its hart is neither being saved nor removed (R269,
R270, R389). -/
def State.issues (s : State) (c : CopyCtx) : Bool :=
  c.copy.failure.isNone && decide (c.copy.next < c.copy.chunks) && !s.hart.marks.saving && !s.hart.marks.removed

/-- The first copy of a list with a property changed by `f`, which also changes the state. -/
def State.updateCopy (p : CopyCtx → Bool) (f : State → CopyCtx → State × List CopyCtx) :
    List CopyCtx → State → State × List CopyCtx
  | [], s => (s, [])
  | c :: rest, s =>
    if p c then
      let (s, cs) := f s c
      (s, cs ++ rest)
    else
      let (s, cs) := State.updateCopy p f rest s
      (s, c :: cs)

/-- The copies of the current hart updated. -/
def State.onCopy (s : State) (p : CopyCtx → Bool) (f : State → CopyCtx → State × List CopyCtx) : State :=
  let (t, cs) := State.updateCopy p f s.hart.copies s
  t.withHart fun h => { h with copies := cs }

/-- CHUNK_READ (R267, R269). -/
def execChunkRead (h : HartId) (map chunk : Fin 64) (s : State) : Answered :=
  .next (s.onHart h fun s =>
    s.onCopy (fun c => c.copy.map == map && c.copy.c0 + c.copy.next == chunk.val && s.issues c) fun s c =>
      let (s, c) := s.readChunk c false
      (s, [c]))

/-- The pieces of a chunk written (R241, R379): those to consecutive bytes that hold no poison clear the granules they fill. -/
def State.writePieces (s : State) (c : CopyCtx) (ps : List CopyPiece) : State :=
  let s := ps.foldl (fun t p => t.physWrite (t.engine c) p.pa p.bytes) s
  let runs := joinStores ((ps.filter fun p => !p.poison).map fun p => ⟨0, p.pa, p.bytes, .rc⟩)
  let s := runs.foldl (fun t q => t.fillGranules q.pa q.bytes.length) s
  (ps.filter fun p => p.poison).foldl (fun t p => t.poisonRange p.pa p.bytes.length) s

/-- A chunk written: LANDED is set and BUSY clears; after the last one the copy ends (R267, R268). -/
def State.landChunk (s : State) (c : CopyCtx) (j : Nat) (ps : List CopyPiece) : State × List CopyCtx :=
  let b : BitVec 64 := BitVec.ofNat 64 (2 ^ (c.copy.c0 + j))
  let s := (s.writePieces c ps).withHart fun h =>
    let m := h.chunks[c.copy.map]
    { h.setChunks c.copy.map { m with landed := m.landed ||| b, busy := m.busy &&& ~~~b } with
      shChunks := if c.copy.sh then h.shChunks ++ [(c.copy.map, c.copy.c0 + j, { c.copy with inFlight := [] })] else h.shChunks }
  let c := { c with copy := { c.copy with inFlight := c.copy.inFlight.filter fun q => q.1 ≠ j } }
  if c.copy.inFlight.isEmpty && decide (c.copy.next = c.copy.chunks) then s.endCopy c else (s, [c])

/-- The first chunk that the current hart's copies have read is written (R267). -/
def State.landNext (s : State) : State :=
  s.onCopy (fun c => !c.copy.inFlight.isEmpty) fun s c =>
    match c.copy.inFlight with
    | (j, ps) :: _ => s.landChunk c j ps
    | [] => (s, [c])

/-- At most `n` such chunks written. -/
def State.landChunks : Nat → State → State
  | 0, s => s
  | n + 1, s => State.landChunks n s.landNext

/-- Every chunk that the current hart's copies have read is written: a save waits for them (R270). -/
def State.landAll (s : State) : State := State.landChunks (s.hart.copies.map fun c => c.copy.inFlight.length).sum s

/-- CHUNK_LANDED (R267). -/
def execChunkLanded (h : HartId) (map chunk : Fin 64) (s : State) : Answered :=
  .next (s.onHart h fun s =>
    s.onCopy (fun c => c.copy.map == map && c.copy.inFlight.any fun q => c.copy.c0 + q.1 == chunk.val) fun s c =>
      match c.copy.inFlight.find? fun q => c.copy.c0 + q.1 == chunk.val with
      | some (j, ps) => s.landChunk c j ps
      | none => (s, [c]))

/-- The chunks of the current hart's copies whose source was read are written: nothing of them is left behind (R389, R402). -/
def State.drainCopies (s : State) : State :=
  let t := s.hart.copies.foldl (fun t c => c.copy.inFlight.foldl (fun t p => t.writePieces c p.2) t) s
  t.withHart fun h => { h with copies := h.copies.map fun c => { c with copy := { c.copy with inFlight := [] } } }

/-- The copies of a hart whose next chunk has no path fail, 2^20 cycles being over (R391). -/
def State.failPathless (s : State) : State :=
  s.onCopy (fun c => s.issues c) fun s c =>
    match (State.readPieces c false (c.copy.chunkPieces c.copy.next) s).2 with
    | .error .noPath =>
      let (s, c) := s.readChunk c true
      (s, [c])
    | _ => (s, [c])

/-! ### Chunk maps -/

/-- The lowest bit of a mask below `n`, counted from `i`. -/
def lowestBit (m : BitVec 64) : Option Nat := (List.range 64).find? fun i => m.getLsbD i

/-- The acquires of a wait on LANDED, each at the scope of its chunk's copy (R241, R271). -/
def State.acquireChunks (s : State) (m : ChunkMap) (mask : BitVec 64) : State :=
  (m.scopes.filter fun p => mask.getLsbD p.1).foldl (fun t p => t.acquireAt p.2) s

/-- CMWAIT (R271): an acquire once every masked chunk has its bit. -/
def State.runCmwait (s : State) (e : VEntry) (o : CmwaitOps) : VRun :=
  s.copyClass e fun s =>
    let m := s.hart.chunks[o.map]
    let plane := if o.plane then m.released else m.landed
    let clear := e.x0 &&& ~~~plane
    match lowestBit (clear &&& ~~~m.busy) with
    | some i => stopped s (vtrap e 0x0B (mapTval 6 o.map i) none 0)
    | none => if clear = 0 then ran (if o.plane then s else s.acquireChunks m e.x0) else stopped s .wait

/-- CMTEST (R271). -/
def State.runCmtest (s : State) (e : VEntry) (o : CmtestOps) : VRun :=
  s.copyClass e fun s =>
    let m := s.hart.chunks[o.map]
    let v := e.x0 &&& (if o.plane then m.released else m.landed)
    ran ((if o.plane then s else s.acquireChunks m v).setScalar o.d v)

/-- CMCLR (R271). -/
def State.runCmclr (s : State) (e : VEntry) (o : CmclrOps) : VRun :=
  s.copyClass e fun s =>
    let m := s.hart.chunks[o.map]
    match lowestBit (e.x0 &&& m.busy) with
    | some i => stopped s (vtrap e 0x0B (mapTval 7 o.map i) none 0)
    | none =>
      ran (s.withHart fun h =>
        { h.setChunks o.map { m with released := m.released ||| e.x0, landed := m.landed ||| e.x0, sh := m.sh &&& ~~~e.x0 } with
          shChunks := h.shChunks.filter fun q => !(q.1 == o.map && e.x0.getLsbD q.2.1) })

/-! ### PUBLISH -/

/-- Whether the destination of a copy overlaps [lo, hi). -/
def Copy.overlaps (c : Copy) (lo hi : Nat) : Bool :=
  (List.range c.rows).any fun r =>
    let a := (c.dst + BitVec.ofNat 64 r * c.dpitch).toNat
    decide (lo < hi) && decide (0 < c.rowBytes) && decide (a < hi) && decide (lo < a + c.rowBytes)

/-- The chunks of its map that a copy has not LANDED (R267): those to be read, and those being written. One that has LANDED is
another copy's once that covers it (R265). -/
def Copy.unlanded (c : Copy) : List Nat :=
  ((List.range c.chunks).filter fun j => decide (c.next ≤ j) || c.inFlight.any fun p => p.1 == j).map fun j => c.c0 + j

/-- The map and the lowest chunk of it not LANDED among the CPY.SH copies whose destinations overlap [lo, hi) (R257). When such
chunks lie in several maps, the map is that of the copy issued first, which the spec leaves open (log entry 64). -/
def Hart.openShadow (h : Hart) (lo hi : Nat) : Option (Fin 64 × Nat) :=
  let open_ := (h.copies.map fun c => c.copy).filter fun c => c.sh && c.overlaps lo hi && !c.unlanded.isEmpty
  open_.head?.bind fun c =>
    ((List.range 64).find? fun i => open_.any fun d => d.map == c.map && d.unlanded.contains i).map fun i => (c.map, i)

/-- The table words of the pages of a range found (R350), and that they accept stores (R359): otherwise the first page that has no
shadow mapping or whose word refuses. An uncorrectable error met at any page comes before that, and the pages after the first that
fails are looked at for one only (R376). -/
def State.publishWords (s : State) : Nat → Nat → State × Except (Nat × AccFault) (List (Nat × Nat × Nat × Nat × Nat))
  | 0, _ => (s, .ok [])
  | n + 1, va =>
    let (t, r) : State × Except AccFault (Nat × Nat × Nat × Nat) :=
      match s.shadowWords s.me s.hart.xctx va with
      | (s, .error f) => (s, .error f)
      | (s, .ok w) =>
        match s.checkAt .store w.1 with
        | (s, .error f) => (s, .error f)
        | (s, .ok ()) =>
          match s.checkAt .store w.2.1 with
          | (s, .error f) => (s, .error f)
          | (s, .ok ()) => (s, .ok w)
    match r with
    | .error (.ecc g) => (t, .error (va, .ecc g))
    | .error f =>
      match t.publishWords n (va + 65536) with
      | (_, .error (a, .ecc g)) => (t, .error (a, .ecc g))
      | _ => (t, .error (va, f))
    | .ok w =>
      match t.publishWords n (va + 65536) with
      | (t, .ok ws) => (t, .ok ((va, w) :: ws))
      | (t, .error f) => (t, .error f)

/-- The live and shadow words of one page exchanged, SHD set in the new live word, and its TLB entries dropped (R350). -/
def State.publishPage (s : State) (w : Nat × Nat × Nat × Nat × Nat) : State :=
  let (va, live, shadow, old, new) := w
  let s := s.physWrite s.me live (natBytes 8 (new ||| 256))
  let s := s.physWrite s.me shadow (natBytes 8 old)
  s.tlbDrop 2 s.hart.xctx.ctxid (va / 65536)

/-- The SH bits of the chunks of copies published are cleared (R257). -/
def Hart.clearShadow (h : Hart) (lo hi : Nat) : Hart :=
  let gone := h.shChunks.filter fun q => q.2.2.overlaps lo hi
  let h := gone.foldl
    (fun k q => k.setChunks q.1 { k.chunks[q.1] with sh := k.chunks[q.1].sh &&& ~~~(BitVec.ofNat 64 (2 ^ q.2.1)) }) h
  { h with shChunks := h.shChunks.filter fun q => !q.2.2.overlaps lo hi }

/-- What a failure of PUBLISH at a page leads to (R257, R349, R359, R375): a page without a shadow mapping traps with cause
0x08 and no XLINFO (log entry 28), a table word that the walk or the access tables refuse as any access does. -/
def State.publishFault (s : State) (va : Nat) (f : AccFault) : State :=
  match f with
  | .fault c r l =>
    s.takeTrap ⟨c, BitVec.ofNat 64 va, 3, s.hart.scalar.pc, if r = 0 then none else some (mkXlinfo 3 r l), none⟩
  | f => s.accessFault .store (BitVec.ofNat 64 va) f

/-- PUBLISH (R243, R257, R350): a pending copy fault comes before a misaligned base, and that before an error in a register read
(R376). A page without a shadow mapping is reported before a chunk that is not LANDED: the spec does not rank the two (log
entry 64). -/
def execPublish (o : RangeOps) (s : State) : Answered :=
  .next (
    let base := s.x o.base
    let n := (s.x o.len).toNat
    if !s.hart.viq.isEmpty then s.stall
    else if 4096 < n then s.trap 0x05 2
    else
      s.scalarAlone 1 [] [] fun s => s.copyClassScalar fun s => s.dataReads base 65536 [o.base, o.len] fun s =>
        let lo := base.toNat
        let hi := lo + n * 65536
        s.committing true fun s =>
          match s.commit.publishWords n lo with
          | (s, .error (va, f)) => s.publishFault va f
          | (s, .ok ws) =>
            match s.hart.openShadow lo hi with
            | some (m, i) => s.trap 0x0B (mapTval 8 m i)
            | none => (((ws.foldl State.publishPage s).withHart fun h => h.clearShadow lo hi).acquireAt .s).advance)

end Sys2Proof.Machine
end

