-- ==== Sys2Proof/Machine/Tile.lean ====
section
/-! DEFINITION. Tile settings and grants, strips and their events, accumulator groups (R23, R24, R116 to R121, R169). -/

namespace Sys2Proof.Machine

/-! ### Carried registers -/

/-- The carried registers among those that entry `e` writes, before their first write in its strip, copied to their shadows
(R23). -/
def Hart.shadowWrites (h : Hart) (e : VEntry) (rs : List VReg) : Hart :=
  match h.stripOf e.strip with
  | none => h
  | some t =>
    let new := (rs.filter fun r => e.carried.contains r && !(t.shadows.any fun p => p.1 == r)).dedup
    h.mapStrip t.id fun t => { t with shadows := t.shadows ++ new.map fun r => (r, regSlice h.vrf r) }

/-! ### VCFG -/

/-- The carried registers that VCFG names (R116). -/
def vcfgList (v : Word) (c : Nat) : List VReg := (List.range c).map fun i => Fin.ofNat 64 (v.toNat / 2 ^ (6 * i))

/-- Whether the operand of VCFG is reserved (R116). -/
def vcfgReserved (v : Word) (nv c : Nat) : Bool :=
  decide (4 < c) || decide (2 ^ (6 * c) ≤ v.toNat) || !(vcfgList v c).all (fun r => decide (r.val + c < nv)) ||
    !decide (vcfgList v c).Nodup

/-- The tile configuration after VCFG (R116), in force from its posting. -/
def VState.configure (v : VState) (nv : Fin 4) (carried : List VReg) : VState :=
  { v with nvCode := nv, carried := carried, vl := 0, vrows := 1 }

/-- The register slots after VCFG (R116), which ends every stream (R260): once the instructions before it have run. -/
def Hart.clearSlots (h : Hart) : Hart :=
  { h.cleanRegs (List.finRange 64) with vrf := [], streams := Vector.replicate 4 none }

/-! ### SETVL, SETVR and SETVLB -/

/-- The largest row that fits at a width, at most `n` (R119). -/
def grantVl (lw words bits rows : Nat) : Nat → Nat
  | 0 => 0
  | n + 1 => if tileFits lw words bits rows (n + 1) then n + 1 else grantVl lw words bits rows n

/-- The most elements a row can have at all (R118). -/
def vlLimit (lw words : Nat) : Nat := 4 * lw * words

/-- The VL that SETVL grants (R119). -/
def State.setvlGrant (s : State) (want : Word) (w : Width) : Nat :=
  let words := s.hart.v.words
  grantVl s.lw words w.bits s.hart.v.vrows (min want.toNat (vlLimit s.lw words))

/-- The checkpointed scalar registers: those of SCHKMASK (R23, R382). -/
def Hart.checkpoint (h : Hart) : List (XReg × Word) :=
  ((List.finRange 32).filter fun r => h.ctl.schkmask.getLsbD r.val).map fun r => (r, h.readX r)

/-- The positions of the stream slots (R263). -/
def Hart.streamPositions (h : Hart) : List (Option Nat) := h.streams.toList.map fun q => q.map fun t => t.pos

/-- A new strip opened by the SETVL or SETVLB about to be posted, with destination `d`, which continues at `resume` (R23); the
positions of the streams are those that the instructions before it leave, and are taken at its turn in the VIQ. -/
def Hart.openStrip (h : Hart) (d : XReg) (resume : Word) (now : Nat) : Hart :=
  let t : Strip :=
    { id := h.nextSeq, regs := h.checkpoint, vl := h.v.vl, vrows := h.v.vrows, opener := some d, resume := resume
      shadows := [], positions := h.streamPositions, rewinds := 0, errGranule := none, noMajority := [], since := now
      closedAt := 0, sealed := false, byTimer := false }
  { h with strip := some t }

/-- The effect of SETVL at its posting (R23, R119): the open strip closes, VL and x[D] take the grant, and a strip opens. -/
def State.setvl (s : State) (d : XReg) (want : Word) (w : Width) (resume : Word) : State :=
  let n := s.setvlGrant want w
  let s := (s.withHart fun h => h.closeStrip false).settleStores
  let s := (s.withHart fun h => { h with v := { h.v with vl := n } }).writeX d (BitVec.ofNat 64 n)
  s.withHart fun h => h.openStrip d resume s.cycle

/-- The positions of the streams put into the checkpoint of the strip that entry `e` opened (R23, R263). -/
def State.strippedAt (s : State) (e : VEntry) : State :=
  s.withHart fun h => h.mapStrip e.seq fun t => { t with positions := h.streamPositions }

/-- The largest VROWS that fits, at most `n` (R120). -/
def grantVr (lw words bits vl : Nat) : Nat → Nat
  | 0 => 0
  | n + 1 => if tileFits lw words bits (n + 1) vl then n + 1 else grantVr lw words bits vl n

/-- The grant of SETVR: VROWS and VL (R120). -/
def State.setvrGrant (s : State) (want : Word) (w : Width) : Nat × Nat :=
  let words := s.hart.v.words
  let n := grantVr s.lw words w.bits s.hart.v.vl (min (max 1 want.toNat) words)
  (max 1 n, if n = 0 then grantVl s.lw words w.bits 1 s.hart.v.vl else s.hart.v.vl)

/-- The effect of SETVR at its posting (R120). -/
def State.setvr (s : State) (d : XReg) (want : Word) (w : Width) : State :=
  let g := s.setvrGrant want w
  (s.withHart fun h => { h with v := { h.v with vl := g.2, vrows := g.1 } }).writeX d (BitVec.ofNat 64 g.1)

/-! ### Strip events -/

/-- Whether the open strip of a hart has been open for 65,536 cycles (R24). -/
def Hart.autoCloseDue (h : Hart) (now : Nat) : Bool := (h.strip.map fun t => decide (t.since + 65536 ≤ now)).getD false

/-- STRIP_AUTO_CLOSE (R24): 65,536 cycles after the strip opened it commits. -/
def execStripAutoClose (h : HartId) (s : State) : Answered :=
  .next (s.onHart h fun s => if s.hart.autoCloseDue s.cycle then s.commitByTimer else s)

/-- STRIP_COMMIT_COMPLETE (R24): a commit completes once the last entry posted within its strip has retired. -/
def execStripCommitComplete (h : HartId) (s : State) : Answered := .next (s.onHart h State.settleStores)

/-! ### Accumulator groups -/

/-- The registers of an accumulator group. -/
def groupRegs (d : VReg) (g : Nat) : List VReg := (List.range g).map fun i => regPlus d i

/-- MZERO (R168, R169): every word of the group is zero. -/
def State.runMzero (s : State) (o : MzeroOps) : VRun :=
  ran (s.withHart fun h =>
    { h.cleanRegs (groupRegs o.d (grpSize o.g)) with
      vrf := (groupRegs o.d (grpSize o.g)).foldl (fun m r => dropReg m r.val) h.vrf })

end Sys2Proof.Machine
end

