-- ==== Sys2Proof/Machine/VectorOps.lean ====
section
/-! DEFINITION. What each vector-class instruction names: its head word, class (R193), registers, masks and tile widths
(R14, R48, R140). -/

namespace Sys2Proof.Machine

/-- The designator of a vector register in D (R47). -/
def vcode (r : VReg) : Nat := 64 + r.val

/-- The designator of a mask register in D (R47). -/
def mcode (r : MReg) : Nat := 32 + r.val

/-- The designator of an optional vector register in D. -/
def vcode0 : Option VReg → Nat
  | some r => vcode r
  | none => 0

/-- The head word of a vector-class instruction: major, tail length and D (R46). -/
def vhead : VInstr → Nat
  | .vcfg _ => 0x6080
  | .setvl o => 0x6280 + o.d.val
  | .setvr o => 0x6480 + o.d.val
  | .setvlb o => 0x6700 + o.d.val
  | .msets _ => 0xC280
  | .mzero o => 0xC280 + vcode o.d
  | .via _ o => 0x8100 + vcode o.d
  | .viaUnary _ o => 0x8100 + vcode o.d
  | .viai _ o => 0x8300 + vcode o.d
  | .vfa _ o => 0x8500 + vcode o.d
  | .vfmm _ o => 0x8500 + vcode o.d
  | .vfma _ o => 0x8780 + vcode o.d
  | .vfu _ o => 0x8900 + vcode o.d
  | .vfuNr _ o => 0x8900 + vcode o.d
  | .vcvt o => 0x8B00 + vcode o.d
  | .vcmp _ o => 0x8D00 + mcode o.d
  | .vfcmp _ o => 0x8F00 + mcode o.d
  | .vsel o => 0x9100 + vcode o.d
  | .vmv o => 0x9300 + vcode o.d
  | .vbcast o => 0x9300 + vcode o.d
  | .vmvxs o => 0x9300 + o.d.val
  | .vmvsx o => 0x9300 + vcode o.d
  | .viota o => 0x9300 + vcode o.d
  | .vred _ _ o => 0x9900 + vcode o.d
  | .vredFsum o => 0x9900 + vcode o.d
  | .vredFmm _ o => 0x9900 + vcode o.d
  | .vredi _ o => 0x9B00 + vcode o.d
  | .vredfi _ o => 0x9B00 + vcode o.d
  | .vscan _ _ o => 0x9D00 + vcode o.d
  | .vscanFsum _ o => 0x9D00 + vcode o.d
  | .vscanFmax _ o => 0x9D00 + vcode o.d
  | .vcompress o => 0xA100 + vcode o.d
  | .vexpand o => 0xA100 + vcode o.d
  | .vgathr o => 0xA100 + vcode o.d
  | .vslideup o => 0xA100 + vcode o.d
  | .vslidedn o => 0xA100 + vcode o.d
  | .vtrans o => 0xA100 + vcode o.d
  | .vrowbc o => 0xA100 + vcode o.d
  | .mop _ o => 0xA900 + mcode o.d
  | .mnot o => 0xA900 + mcode o.d
  | .mset o => 0xA900 + mcode o.d
  | .mcnt _ o => 0xA900 + o.d.val
  | .vld _ o => 0xB100 + vcode o.d
  | .vldx o => 0xB500 + vcode o.d
  | .vldff o => 0xB700 + vcode o.d
  | .vst _ o => 0xB900 + vcode o.d
  | .vstx _ o => 0xBB00 + vcode o.d
  | .vamo _ o => 0xBD00 + vcode o.d
  | .stra _ o => 0xBF00 + vcode o.d
  | .stroff _ => 0xBF00
  | .strpos o => 0xBF00 + o.d.val
  | .mma _ o => 0xC180 + vcode o.d
  | .wbld _ => 0xC500
  | .mdrain _ o => 0xC700 + vcode o.d
  | .vsort o => 0xD100 + vcode o.d
  | .vmrg o => 0xD380 + vcode o.d
  | .vset _ _ o => 0xD580 + vcode o.d
  | .vtopk o => 0xD700 + vcode o.d
  | .vsegr _ o => 0xD900 + vcode o.d
  | .vsegrFsum o => 0xD900 + vcode o.d
  | .vsegrFmm _ o => 0xD900 + vcode o.d
  | .xopen _ => 0xE100
  | .xclose _ => 0xE100
  | .xfloor _ => 0xE100
  | .xstat o => 0xE100 + o.d.val
  | .xsplit o => 0xE100 + o.d.val
  | .xround _ => 0xE100
  | .xsend _ o => 0xE300 + vcode0 o.pay
  | .xrecv o => 0xE500 + vcode o.d
  | .cpy _ o => 0xE980 + o.pitches.val
  | .cmwait _ => 0xEB00
  | .cmtest o => 0xEB00 + o.d.val
  | .cmclr _ => 0xEB00

/-- The floating class of a format (R193). -/
def fclass : FFmt → Nat
  | .f32 => 6
  | .f64 => 7
  | .f16 => 5
  | .bf16 => 5

/-- The capability class of a vector-class instruction (R193). -/
def vclass : VInstr → Nat
  | .vcfg _ => 4
  | .setvl _ => 4
  | .setvr _ => 4
  | .setvlb _ => 4
  | .msets _ => 20
  | .mzero _ => 20
  | .via _ _ => 4
  | .viaUnary _ _ => 4
  | .viai _ _ => 4
  | .vfa _ o => fclass o.fmt
  | .vfmm _ o => fclass o.fmt
  | .vfma _ o => fclass o.fmt
  | .vfu _ o => fclass o.fmt
  | .vfuNr _ o => fclass o.fmt
  | .vcvt _ => 8
  | .vcmp _ _ => 4
  | .vfcmp _ o => fclass o.fmt
  | .vsel _ => 4
  | .vmv _ => 4
  | .vbcast _ => 4
  | .vmvxs _ => 4
  | .vmvsx _ => 4
  | .viota _ => 4
  | .vred _ _ _ => 9
  | .vredFsum _ => 9
  | .vredFmm _ _ => 9
  | .vredi _ _ => 9
  | .vredfi _ _ => 9
  | .vscan _ _ _ => 9
  | .vscanFsum _ _ => 9
  | .vscanFmax _ _ => 9
  | .vcompress _ => 10
  | .vexpand _ => 10
  | .vgathr _ => 10
  | .vslideup _ => 10
  | .vslidedn _ => 10
  | .vtrans _ => 10
  | .vrowbc _ => 10
  | .mop _ _ => 4
  | .mnot _ => 4
  | .mset _ => 4
  | .mcnt _ _ => 4
  | .vld _ _ => 11
  | .vldx _ => 11
  | .vldff _ => 11
  | .vst _ _ => 11
  | .vstx _ _ => 11
  | .vamo _ _ => 11
  | .stra _ _ => 11
  | .stroff _ => 11
  | .strpos _ => 11
  | .mma _ o => mmaClass o.afmt.val
  | .wbld _ => 20
  | .mdrain _ _ => 20
  | .vsort _ => 12
  | .vmrg _ => 12
  | .vset _ _ _ => 12
  | .vtopk _ => 12
  | .vsegr _ _ => 12
  | .vsegrFsum _ => 12
  | .vsegrFmm _ _ => 12
  | .xopen _ => 21
  | .xclose _ => 21
  | .xfloor _ => 21
  | .xstat _ => 21
  | .xsplit _ => 21
  | .xround _ => 21
  | .xsend _ _ => 21
  | .xrecv _ => 21
  | .cpy _ _ => 22
  | .cmwait _ => 22
  | .cmtest _ => 22
  | .cmclr _ => 22

/-- The two registers of a pair (R140). -/
def pairRegs (r : VReg) : List VReg := [r, oddMember r]

/-- The vector register of a second operand, if it is one. -/
def vxReg : VX → List VReg
  | .v r => [r]
  | .x _ => []

/-- The registers an MMA reads as A or B, its pairs included (R173). -/
def mmaRegs (r : VReg) (pair : Bool) : List VReg := if pair then pairRegs r else [r]

/-- Whether the A operand of an MMA is a pair (R173, R175). -/
def mmaAPair (df : Dataflow) (o : MmaOps) : Bool := scaledCode o.afmt.val || df == .rw

/-- Whether the B operand of an MMA is a pair: never one from a weight slot, which holds the scales too (R173, R176). -/
def mmaBPair (o : MmaOps) : Bool := scaledCode o.bfmt.val && !o.bsrc

/-- The vector registers that a posted instruction writes. -/
def vwrites : VInstr → List VReg
  | .vcfg _ => []
  | .setvl _ => []
  | .setvr _ => []
  | .setvlb _ => []
  | .msets _ => []
  | .mzero o => groupRegs o.d (grpSize o.g)
  | .via _ o => [o.d]
  | .viaUnary _ o => [o.d]
  | .viai _ o => [o.d]
  | .vfa _ o => [o.d]
  | .vfmm _ o => [o.d]
  | .vfma _ o => [o.d]
  | .vfu _ o => [o.d]
  | .vfuNr _ o => [o.d]
  | .vcvt o => [o.d]
  | .vcmp _ _ => []
  | .vfcmp _ _ => []
  | .vsel o => [o.d]
  | .vmv o => [o.d]
  | .vbcast o => [o.d]
  | .vmvxs _ => []
  | .vmvsx o => [o.d]
  | .viota o => [o.d]
  | .vred _ _ o => [o.d]
  | .vredFsum o => [o.d]
  | .vredFmm _ o => [o.d]
  | .vredi _ o => pairRegs o.d
  | .vredfi _ o => pairRegs o.d
  | .vscan _ _ o => [o.d]
  | .vscanFsum _ o => [o.d]
  | .vscanFmax _ o => [o.d]
  | .vcompress o => [o.d]
  | .vexpand o => [o.d]
  | .vgathr o => [o.d]
  | .vslideup o => [o.d]
  | .vslidedn o => [o.d]
  | .vtrans o => [o.d]
  | .vrowbc o => [o.d]
  | .mop _ _ => []
  | .mnot _ => []
  | .mset _ => []
  | .mcnt _ _ => []
  | .vld _ o => [o.d]
  | .vldx o => [o.d]
  | .vldff o => [o.d]
  | .vst _ _ => []
  | .vstx _ _ => []
  | .vamo _ o => if o.ret then [o.d] else []
  | .stra _ _ => []
  | .stroff _ => []
  | .strpos _ => []
  | .mma _ o => groupRegs o.d (mmaGroup o)
  | .wbld _ => []
  | .mdrain _ o => [o.d]
  | .vsort o => pairRegs o.d
  | .vmrg o => pairRegs o.d
  | .vset _ _ o => pairRegs o.d
  | .vtopk o => pairRegs o.d
  | .vsegr _ o => pairRegs o.d
  | .vsegrFsum o => pairRegs o.d
  | .vsegrFmm _ o => pairRegs o.d
  | .xopen _ => []
  | .xclose _ => []
  | .xfloor _ => []
  | .xstat _ => []
  | .xsplit _ => []
  | .xround _ => []
  | .xsend _ _ => []
  | .xrecv o => pairRegs o.d ++ o.pay.toList
  | .cpy _ _ => []
  | .cmwait _ => []
  | .cmtest _ => []
  | .cmclr _ => []

/-- The vector registers that a posted instruction reads, in the order of its fields. -/
def vreads : VInstr → List VReg
  | .vcfg _ => []
  | .setvl _ => []
  | .setvr _ => []
  | .setvlb _ => []
  | .msets _ => []
  | .mzero _ => []
  | .via _ o => o.a :: vxReg o.b
  | .viaUnary _ o => [o.a]
  | .viai _ o => [o.a]
  | .vfa _ o => o.a :: vxReg o.b
  | .vfmm _ o => o.a :: vxReg o.b
  | .vfma _ o => o.a :: vxReg o.b ++ [o.c]
  | .vfu _ o => [o.a]
  | .vfuNr _ o => [o.a]
  | .vcvt o => [o.a]
  | .vcmp _ o => o.a :: vxReg o.b
  | .vfcmp _ o => o.a :: vxReg o.b
  | .vsel o => o.a :: vxReg o.b
  | .vmv o => [o.a]
  | .vbcast _ => []
  | .vmvxs o => [o.a]
  | .vmvsx _ => []
  | .viota _ => []
  | .vred _ _ o => [o.a]
  | .vredFsum o => [o.a]
  | .vredFmm _ o => [o.a]
  | .vredi _ o => [o.a]
  | .vredfi _ o => [o.a]
  | .vscan _ _ o => [o.a]
  | .vscanFsum _ o => [o.a]
  | .vscanFmax _ o => [o.a]
  | .vcompress o => [o.a]
  | .vexpand o => [o.a]
  | .vgathr o => [o.a, o.idx]
  | .vslideup o => [o.a]
  | .vslidedn o => [o.a]
  | .vtrans o => [o.a]
  | .vrowbc o => [o.a]
  | .mop _ _ => []
  | .mnot _ => []
  | .mset _ => []
  | .mcnt _ _ => []
  | .vld _ _ => []
  | .vldx o => [o.idx]
  | .vldff _ => []
  | .vst _ o => [o.d]
  | .vstx _ o => [o.d, o.idx]
  | .vamo _ o => [o.d, o.idx]
  | .stra _ _ => []
  | .stroff _ => []
  | .strpos _ => []
  | .mma df o =>
    mmaRegs o.a (mmaAPair df o) ++ (o.b.toList.map fun r => mmaRegs r (mmaBPair o)).flatten ++
      groupRegs o.d (mmaGroup o)
  | .wbld _ => []
  | .mdrain _ o => groupRegs o.a (grpSize o.g)
  | .vsort o => [o.a]
  | .vmrg o => pairRegs o.a ++ pairRegs o.b
  | .vset _ _ o => pairRegs o.a ++ pairRegs o.b
  | .vtopk o => [o.a]
  | .vsegr _ o => pairRegs o.a
  | .vsegrFsum o => pairRegs o.a
  | .vsegrFmm _ o => pairRegs o.a
  | .xopen _ => []
  | .xclose _ => []
  | .xfloor _ => []
  | .xstat _ => []
  | .xsplit _ => []
  | .xround _ => []
  | .xsend _ o => o.pay.toList ++ [o.keys]
  | .xrecv _ => []
  | .cpy _ _ => []
  | .cmwait _ => []
  | .cmtest _ => []
  | .cmclr _ => []

/-- The register numbers of a posted instruction that must be nameable (R13, R48, R140, R168): every register named,
the members of pairs, and the last register of a group. -/
def vnamed (i : VInstr) : List Nat :=
  ((vwrites i ++ vreads i).map fun r => r.val) ++
    match i with
    | .mma _ o => [o.d.val + mmaGroup o - 1]
    | .mdrain _ o => [o.a.val + grpSize o.g - 1]
    | .mzero o => [o.d.val + grpSize o.g - 1]
    | .stra _ o => [o.d.val]
    | _ => []

/-- The element widths at which the tile of a posted instruction must fit (R14, R140); matrix operands are tested at
their own tiles (R173, R190). -/
def vtiles : VInstr → List Nat
  | .vcfg _ => []
  | .setvl _ => []
  | .setvr _ => []
  | .setvlb _ => []
  | .msets _ => []
  | .mzero _ => []
  | .via _ o => [o.w.bits]
  | .viaUnary _ o => [o.w.bits]
  | .viai _ o => [o.w.bits]
  | .vfa _ o => [fbits o.fmt]
  | .vfmm _ o => [fbits o.fmt]
  | .vfma _ o => [fbits o.fmt]
  | .vfu _ o => [fbits o.fmt]
  | .vfuNr _ o => [fbits o.fmt]
  | .vcvt o => [codeBits o.src.val, codeBits o.dst.val]
  | .vcmp _ o => [o.w.bits]
  | .vfcmp _ o => [fbits o.fmt]
  | .vsel o => [o.w.bits]
  | .vmv o => [o.w.bits]
  | .vbcast o => [o.w.bits]
  | .vmvxs o => [o.w.bits]
  | .vmvsx o => [o.w.bits]
  | .viota o => [o.w.bits]
  | .vred _ _ o => [o.w.bits]
  | .vredFsum o => [fbits o.fmt]
  | .vredFmm _ o => [fbits o.fmt]
  | .vredi _ o => [o.w.bits, 32]
  | .vredfi _ o => [fbits o.fmt, 32]
  | .vscan _ _ o => [o.w.bits]
  | .vscanFsum _ o => [fbits o.fmt]
  | .vscanFmax _ o => [fbits o.fmt]
  | .vcompress o => [o.w.bits]
  | .vexpand o => [o.w.bits]
  | .vgathr o => [o.w.bits, 32]
  | .vslideup o => [o.w.bits]
  | .vslidedn o => [o.w.bits]
  | .vtrans o => [o.w.bits]
  | .vrowbc o => [o.w.bits]
  | .mop _ _ => []
  | .mnot _ => []
  | .mset _ => []
  | .mcnt _ _ => []
  | .vld _ o => [o.w.bits]
  | .vldx o => [o.w.bits, 32]
  | .vldff o => [o.w.bits]
  | .vst _ o => [o.w.bits]
  | .vstx _ o => [o.w.bits, 32]
  | .vamo _ o => [8 * amoBytes o.dbl, 32]
  | .stra _ _ => []
  | .stroff _ => []
  | .strpos _ => []
  | .mma _ _ => []
  | .wbld _ => []
  | .mdrain _ _ => []
  | .vsort o => [o.w.bits, 32]
  | .vmrg o => [o.w.bits, 32]
  | .vset _ _ o => [valBits o.fmt, 32]
  | .vtopk o => [valBits o.fmt, 32]
  | .vsegr _ o => [o.w.bits, 32]
  | .vsegrFsum o => [fbits o.fmt, 32]
  | .vsegrFmm _ o => [fbits o.fmt, 32]
  | .xopen _ => []
  | .xclose _ => []
  | .xfloor _ => []
  | .xstat _ => []
  | .xsplit _ => []
  | .xround _ => []
  | .xsend _ _ => [32]
  | .xrecv _ => [32]
  | .cpy _ _ => []
  | .cmwait _ => []
  | .cmtest _ => []
  | .cmclr _ => []

/-- The mask register that a posted instruction writes. -/
def vmaskWrite : VInstr → Option MReg
  | .vcmp _ o => some o.d
  | .vfcmp _ o => some o.d
  | .mop _ o => some o.d
  | .mnot o => some o.d
  | .mset o => some o.d
  | .vldff _ => some 15
  | .mdrain z _ => z
  | _ => none

/-- The mask registers that a posted instruction reads. -/
def vmaskReads : VInstr → List MReg
  | .via _ o => [o.m]
  | .viaUnary _ o => [o.m]
  | .vfa _ o => [o.m]
  | .vfmm _ o => [o.m]
  | .vfma _ o => [o.m]
  | .vfu _ o => [o.m]
  | .vfuNr _ o => [o.m]
  | .vcvt o => [o.m]
  | .vcmp _ o => [o.m]
  | .vfcmp _ o => [o.m]
  | .vsel o => [o.m]
  | .vmv o => [o.m]
  | .vbcast o => [o.m]
  | .viota o => [o.a, o.m]
  | .vred _ _ o => [o.m]
  | .vredFsum o => [o.m]
  | .vredFmm _ o => [o.m]
  | .vredi _ o => [o.m]
  | .vredfi _ o => [o.m]
  | .vscan _ _ o => [o.m]
  | .vscanFsum _ o => [o.m]
  | .vscanFmax _ o => [o.m]
  | .vcompress o => [o.m]
  | .vexpand o => [o.m]
  | .vgathr o => [o.m]
  | .vslideup o => [o.m]
  | .vslidedn o => [o.m]
  | .vtrans o => [o.m]
  | .vrowbc o => [o.m]
  | .mop _ o => [o.a, o.b, o.m]
  | .mnot o => [o.a, o.m]
  | .mset o => [o.m]
  | .mcnt _ o => [o.a, o.m]
  | .vld _ o => [o.m]
  | .vldx o => [o.m]
  | .vldff o => [o.m]
  | .vst _ o => [o.m]
  | .vstx _ o => [o.m]
  | .vamo _ o => [o.m]
  | .mma _ o => [o.kmask, o.cmask]
  | .wbld o => [o.m]
  | .mdrain _ o => [o.m]
  | .vsort o => [o.m]
  | .vtopk o => [o.m]
  | .vsegr _ o => [o.m]
  | .vsegrFsum o => [o.m]
  | .vsegrFmm _ o => [o.m]
  | .xsend _ o => [o.m]
  | _ => []

/-- Whether every element of the destination tile is written: the instruction's mask is m0 (R380). -/
def vunmasked (i : VInstr) : Bool := (vmaskReads i).all fun m => m == 0

/-- The scalar register that a tile-setting instruction writes at its posting (R119 to R121). -/
def postedDest : VInstr → Option XReg
  | .setvl o => some o.d
  | .setvr o => some o.d
  | .setvlb o => some o.d
  | _ => none

/-- Whether an instruction is of the exchange or a copy, which commits the strip when it is posted (R24, R384). -/
def commitsAtPosting (i : VInstr) : Bool :=
  match i with
  | .cpy _ _ => true
  | _ => vclass i == 21

/-- Whether recheck covers an instruction (R200). -/
def rechecked (i : VInstr) : Bool :=
  match i with
  | .vcfg _ => false
  | .setvl _ => false
  | .setvr _ => false
  | .setvlb _ => false
  | .mdrain _ _ => true
  | _ => (vclass i == 4 || vclass i == 5 || vclass i == 6 || vclass i == 7 || vclass i == 8 || vclass i == 9 ||
      vclass i == 10 || vclass i == 12 || (decide (15 ≤ vclass i) && decide (vclass i ≤ 19)))

/-- Whether an instruction is a gather, a scatter or an atomic, whose re-execution PMASK governs (R136, R374). -/
def partialKind : VInstr → Bool
  | .vldx _ => true
  | .vstx _ _ => true
  | .vamo _ _ => true
  | _ => false

end Sys2Proof.Machine
end

