-- ==== Sys2Proof/Machine/VectorUnit.lean ====
section
/-! DEFINITION. The VIQ (R8 to R11, R19 to R22, R90): issue and posting, the work on the working entry, recheck entries (R199
to R206), retirement, precise traps at an entry, and the rotations of the grid and the merge unit (R160, R178). -/

namespace Sys2Proof.Machine

/-! ### Issue checks -/

/-- The registers bound to streams, by slot, once the posted entries have run (R260). -/
def postedBindings : List VSlot → List (Fin 4 × VReg) → List (Fin 4 × VReg)
  | [], b => b
  | q :: rest, b =>
    postedBindings rest
      (if q.e.complete then b
      else
        match q.e.instr with
        | .stra _ o => (o.slot, o.d) :: b.filter fun p => p.1 != o.slot && p.2 != o.d
        | .stroff o => b.filter fun p => p.1 != o.slot
        | .vcfg _ => []
        | _ => b)

/-- The registers bound to streams as an instruction at issue finds them (R260). -/
def Hart.bindings (h : Hart) : List (Fin 4 × VReg) :=
  postedBindings h.viq ((List.finRange 4).filterMap fun i => h.streams[i].map fun q => (i, q.reg))

/-- Whether a register is bound to a stream at issue (R260). -/
def Hart.bound (h : Hart) (r : VReg) : Bool := h.bindings.any fun p => p.2 == r

/-- Whether an MMA names an odd register where it needs a pair (R140, R173). -/
def mmaOddPair (df : Dataflow) (o : MmaOps) : Bool :=
  (mmaAPair df o && o.a.val % 2 == 1) ||
    (mmaBPair o && (o.b.map fun r => r.val % 2 == 1).getD false)

/-- Step 2e of R56 for the registers that depend on the hart's streams, tile or formats (R140, R260). -/
def State.badOperand (s : State) (i : VInstr) : Bool :=
  (vwrites i).any s.hart.bound ||
    match i with
    | .mma df o => (vreads i).any s.hart.bound || mmaOddPair df o
    | .mdrain _ _ => (vreads i).any s.hart.bound
    | .stra _ o => s.hart.v.carried.contains o.d
    | _ => false

/-- Step 2d of R56 for the operand of VCFG, which is also reserved while a strip is open (R116). -/
def State.reservedOperand (s : State) (i : VInstr) (e : VEntry) : Bool :=
  match i with
  | .vcfg o => vcfgReserved e.x0 (8 * 2 ^ o.nv.val) o.c.val || s.hart.strip.isSome
  | _ => false

/-- Steps 2d to 2f of R56 that depend on the hart (R13, R48, R116, R260). -/
def State.issueIllegal (s : State) (i : VInstr) (e : VEntry) : Option IllegalReason :=
  if s.reservedOperand i e then some .reserved
  else if s.badOperand i then some .register
  else if !(vnamed i).all s.hart.v.nameable then some .range else none

/-- Step 3 of R56: TVAL of the cause 0x05 that an instruction raises at issue; the instruction's own checks, then the
tile test of R14. `x0` is its first captured scalar. -/
def State.issueReserved (s : State) (i : VInstr) (e : VEntry) : Option Nat :=
  let vl := s.hart.v.vl
  let rows := s.hart.v.vrows
  let cap := rows * vl
  match i with
  | .mma df o => s.mmaReason df o
  | .wbld o => s.wbldReason o
  | .mdrain _ o => s.mdrainReason o
  | .cpy sh o => if s.copyReserved e sh o then some 2 else none
  | .msets _ => if (mshapeOf e.x0).isNone then some 2 else none
  | .mzero o => if o.d.val % grpSize o.g ≠ 0 then some 3 else none
  | _ =>
    let own : Bool :=
      match i with
      | .vcvt o => vcvtReserved o vl
      | .vsort _ => decide (1024 < vl)
      | .vtopk _ => decide (vl < e.x0.toNat)
      | .vtrans _ => decide (vl ≠ rows)
      | .vmrg _ => lensReserved e.x0 cap true
      | .vset inter _ _ => lensReserved e.x0 cap (!inter)
      | _ => false
    if own || !(vtiles i).all (fun b => s.fits b rows vl) then some 0 else none

/-! ### Posting -/

/-- The captured scalar operand `i` of an instruction (R90). -/
def State.captured (s : State) (i : VInstr) (n : Nat) : Word :=
  match (capturedRegs i)[n]? with
  | some r => s.x r
  | none => 0

/-- Whether an instruction works element group by element group (R19, R22): the elementwise instructions, the plain
loads and stores, and under PFMODE = 1 the indexed ones (R377). -/
def Hart.groupwise (h : Hart) : VInstr → Bool
  | .via _ _ => true
  | .viaUnary _ _ => true
  | .viai _ _ => true
  | .vfa _ _ => true
  | .vfmm _ _ => true
  | .vfma _ _ => true
  | .vfu _ _ => true
  | .vfuNr _ _ => true
  | .vcvt _ => true
  | .vcmp _ _ => true
  | .vfcmp _ _ => true
  | .vsel _ => true
  | .vmv _ => true
  | .vbcast _ => true
  | .viota _ => true
  | .vld _ _ => true
  | .vst _ _ => true
  | .vldx _ => h.trap.pfGroup
  | .vstx _ _ => h.trap.pfGroup
  | .vamo _ _ => h.trap.pfGroup
  | _ => false

/-- Whether an instruction of the current hart works element group by element group (R19, R22). -/
def State.groupwise (s : State) (i : VInstr) : Bool := s.hart.groupwise i

/-- The elements of its tile that an instruction executed again finds complete (R22). -/
def State.resumed (s : State) (i : VInstr) : Nat :=
  if s.hart.marks.resuming && s.groupwise i then s.hart.v.resumeElems s.lw else 0

/-- The entry of an instruction posted now (R90). -/
def State.entryOf (s : State) (i : VInstr) : VEntry where
  instr := i
  seq := s.hart.nextSeq
  pc := s.hart.scalar.pc
  next := s.hart.nextPc
  level := s.hart.scalar.level
  vl := s.hart.v.vl
  vrows := s.hart.v.vrows
  nvCode := s.hart.v.nvCode
  carried := s.hart.v.carried
  mshape := s.hart.v.mshape
  strip := s.hart.stripId
  x0 := s.captured i 0
  x1 := s.captured i 1
  x2 := s.captured i 2
  x3 := s.captured i 3
  start := s.resumed i
  done := elemsToGroups s.lw s.hart.v.vl (s.resumed i)
  skip := s.resumed i
  m15Only := s.hart.marks.pmaskLive && partialKind i
  begun := false
  complete := false
  icount := s.hart.scalar.instret
  aborted := false

/-- An entry posted; the hart continues by R43 (R8). -/
def State.post (s : State) (e : VEntry) : State :=
  s.withHart fun h =>
    { h.goto e.next with viq := h.viq ++ [⟨e, VResult.empty⟩], nextSeq := h.nextSeq + 1 }

/-! ### Recheck entries -/

/-- FORCED of RCHKMODE (R199, R210, R213): a pending test does not force its own kernel's hart. -/
def State.forced (s : State) : Bool :=
  (s.core s.hart.core).marked != 0 || ((s.core s.hart.core).testPending && s.hart.marks.test.isNone)

/-- The effective recheck mode: 0 OFF, 1 STALL, 2 SAMPLE (R199); an in-field test kernel is never rechecked (R202). -/
def State.effectiveMode (s : State) : Nat :=
  if s.hart.marks.test.isSome then 0 else if s.forced then 1 else s.hart.ctl.rchkmode.val

/-- The VIQ slots of the harts of the current hart's core that have not been removed (R201, R206). -/
def State.coreSlots (s : State) : List VSlot :=
  (s.placed.filter fun h => h.core == s.hart.core && !h.marks.removed).flatMap fun h => h.viq

/-- Recheck entries held on the core (R201). -/
def State.entriesHeld (s : State) : Nat := (s.coreSlots.filter fun q => q.r.phase == .held).length

/-- Whether an entry of the core has waited 4,096 cycles for its runs: it goes ahead of new primary work (R206). -/
def State.overdue (s : State) : Bool :=
  s.coreSlots.any fun q => q.e.complete && q.r.phase == .held && (q.r.waited || decide (q.r.stamp + 4096 ≤ s.cycle))

/-- Instructions of the core that have waited for a recheck entry since before tick `t` (R201). -/
def State.waitersBefore (s : State) (t : Nat) : Nat :=
  (s.coreSlots.filter fun q => q.r.phase == .waiting && decide (q.r.stamp < t)).length

/-- Whether an entry has any work (R92, R172, R200). -/
def VEntry.works (e : VEntry) : Bool :=
  match e.instr with
  | .mma _ _ => e.mshape.m * e.mshape.n * e.mshape.k != 0
  | .mdrain _ _ => e.mshape.m * e.mshape.n != 0
  | .wbld _ => true
  | .mzero _ => true
  | _ => e.vl != 0

/-- Whether recheck covers an entry (R200). -/
def VEntry.covered (e : VEntry) : Bool := rechecked e.instr && e.works

/-- One more instruction that ran without recheck, up to the largest count (R199). -/
def Hart.skipRecheck (h : Hart) : Hart :=
  { h with ctl := { h.ctl with rchkskip := if h.ctl.rchkskip = 0xFFFFFFFF then 0xFFFFFFFF else h.ctl.rchkskip + 1 } }

/-- The recheck entry that the working entry takes when its primary run begins (R201): entries go to those that have waited
longest, and new work waits for entries that are overdue (R206). One that needs no entry any more waits for none. -/
def State.takeRecheck (s : State) (e : VEntry) : VRun :=
  let mode := s.effectiveMode
  let r := s.workResult
  let free := s.withResult fun r => { r with phase := .off }
  if !e.covered then ran s
  else if s.overdue then stopped s .wait
  else if mode == 0 then ran free
  else if s.entriesHeld + s.waitersBefore (if r.phase = .waiting then r.stamp else s.tick) < 32 then
    ran (s.withResult fun r => { r with phase := .held })
  else if mode == 1 then
    stopped (if r.phase = .waiting then s else s.withResult fun r => { r with phase := .waiting, stamp := s.tick }) .wait
  else ran (free.withHart Hart.skipRecheck)

/-! ### Beginning an entry -/

/-- An uncorrectable vector register, weight slot or mask register that an entry reads (R380), with its SRC of R381; `popped`
are the registers that take a tile first. A slot whose data a restore left out is fetched again first (R188). -/
def State.badSource (s : State) (e : VEntry) (popped : List VReg) : Option (Nat × Bool) :=
  let bad := s.hart.marks.badRegs
  let id := s.hart.ident.id
  let slot := match e.instr with
    | .mma _ o => o.bsrc && !(s.weightSlot o.wslot).stale && bad.contains (.weightSlot id o.wslot)
    | _ => false
  if !e.works then none
  else if slot || (vreads e.instr).any (fun r => !popped.contains r && bad.contains (.vectorRegister id r)) then some (5, true)
  else if ((vmaskReads e.instr).map e.mask).any (fun m => m != 0 && bad.contains (.maskRegister id m)) then some (6, false) else none

/-- The working entry changed. -/
def State.withEntry (s : State) (f : VEntry → VEntry) : State :=
  s.withHart fun h => h.withWorking fun q => { q with e := f q.e }

/-- The prior contents of an entry's destinations kept, and the shadows of carried ones (R23, R141, R201). -/
def State.savePrior (s : State) (e : VEntry) : State :=
  if !e.works then s
  else
    let ds := (vwrites e.instr).dedup
    let s := s.withHart fun h => h.shadowWrites e ds
    s.withResult fun r =>
      { r with
        prior := ds.map fun d => (d, regSlice s.hart.vrf d)
        priorMask := (vmaskWrite e.instr).map fun m => (m, maskSlice s.hart.masks m) }

/-- Whether an entry writes every position of its destination's tile: it has no destination mask, and leaves nothing undisturbed
(R380). -/
def State.writesTile (s : State) (e : VEntry) : Bool :=
  match e.instr with
  | .mzero _ => true
  | .mop _ o => o.m == 0
  | .mnot o => o.m == 0
  | .mset o => o.m == 0
  | .vscan _ _ o => o.m == 0
  | .vscanFsum _ o => o.m == 0
  | .vscanFmax _ o => o.m == 0
  | .vexpand o => o.m == 0
  | .vgathr o => o.m == 0
  | .vslidedn o => o.m == 0
  | .vtrans o => o.m == 0
  | .vrowbc o => o.m == 0
  | .vsort o => o.m == 0
  | .vldx o => e.mask o.m == 0
  | .mdrain _ o => o.m == 0
  | i => s.groupwise i && vunmasked i

/-- The places with an error that an entry writes whole (R380). -/
def State.rewritten (s : State) (e : VEntry) : List ErrorPlace :=
  let id := s.hart.ident.id
  if e.works && s.writesTile e then
    s.hart.marks.badRegs.filter fun b =>
      (vwrites e.instr).any (fun r => b == .vectorRegister id r) || (vmaskWrite e.instr).any fun m => b == .maskRegister id m
  else []

/-- The primary run of the working entry is complete: what it has written whole holds no error, and its recheck waits from
now on (R201, R206, R380). -/
def State.finishEntry (s : State) (e : VEntry) : State :=
  let gone := s.rewritten e
  (s.withHart fun h => { h with marks := { h.marks with badRegs := h.marks.badRegs.filter fun b => !gone.contains b } }).withHart
    fun h => h.withWorking fun q =>
      { e := { q.e with complete := true }, r := { q.r with stamp := s.cycle, priorBad := gone } }

/-- The mask and the element's bytes of a vector memory instruction (R132 to R138, R253). -/
def memShape : VInstr → Option (MReg × Nat)
  | .vld _ o => some (o.m, o.w.bytes)
  | .vst _ o => some (o.m, o.w.bytes)
  | .vldff o => some (o.m, o.w.bytes)
  | .vldx o => some (o.m, o.w.bytes)
  | .vstx _ o => some (o.m, o.w.bytes)
  | .vamo _ o => some (o.m, amoBytes o.dbl)
  | _ => none

/-- Whether a mask register of the current hart holds an error (R380). -/
def State.badMask (s : State) (m : MReg) : Bool := m != 0 && s.hart.marks.badRegs.contains (.maskRegister s.hart.ident.id m)

/-- The alignment check of a vector memory instruction and of WBLD before it reads anything (R133, R186, R376). The size of an
image is told by its K mask: an error there is met after a misaligned address. -/
def State.alignedFirst (s : State) (e : VEntry) (go : State → VRun) : VRun :=
  match e.instr, memShape e.instr with
  | .wbld o, _ =>
    match misalignedImage e with
    | some a => if s.badMask o.m || !s.imageTooLarge e o then stopped s (vtrap e 0x06 a none 0) else go s
    | none => go s
  | _, some (m, bytes) => s.alignedAll e m bytes go
  | _, none => go s

/-- Whether an instruction uses the grid (R178). -/
def usesGrid : VInstr → Bool
  | .mma _ _ => true
  | _ => false

/-- Whether the grid of the current hart's core is held: a matrix instruction keeps it until its recheck is resolved
(R178, R206). -/
def State.gridHeld (s : State) : Bool :=
  s.coreSlots.any fun q => usesGrid q.e.instr && q.e.complete && q.r.phase == .held

/-- Elements in a row of an instruction's destination: columns of C for a matrix instruction (R167, R190). -/
def VEntry.rowLength (e : VEntry) : Nat :=
  match e.instr with
  | .mma _ _ => e.mshape.n
  | .mdrain _ _ => e.mshape.n
  | _ => e.vl

/-- Rows of an instruction's destination. -/
def VEntry.rowCount (e : VEntry) : Nat :=
  match e.instr with
  | .mma _ _ => e.mshape.m
  | .mdrain _ _ => e.mshape.m
  | _ => e.vrows

/-- The sources of a matrix instruction whose writers must have retired before it begins: the accumulator, and A where it is
not transposed (R183, R192). -/
def retiredSources : VInstr → List VReg
  | .mma df o =>
    groupRegs o.d (mmaGroup o) ++ (if df = .rw || o.ta then [] else mmaRegs o.a (scaledCode o.afmt.val))
  | .mdrain _ o => groupRegs o.a (grpSize o.g)
  | _ => []

/-- The masks of an MMA, whose writers must have retired before it begins (R183). -/
def retiredMasks : VInstr → List MReg
  | .mma _ o => (vmaskReads (.mma .ip o)).filter fun m => m != 0
  | _ => []

/-- The sources of an MMA that it may read as they are written, with the row length that their writer's tile has then
(R183). -/
def chainedSources (e : VEntry) : List (VReg × Nat) :=
  match e.instr with
  | .mma df o =>
    (if o.ta && df != .rw then (mmaRegs o.a (scaledCode o.afmt.val)).map fun r => (r, e.mshape.m) else []) ++
      (o.b.toList.flatMap fun b => mmaRegs b (mmaBPair o)).map fun r => (r, e.mshape.n)
  | _ => []

/-- Whether an older instruction keeps the progress index of a register at 0 until it retires: it accumulates there (R183). -/
def accumulates (i : VInstr) (r : VReg) : Bool := usesGrid i && (vwrites i).contains r

/-- Whether an instruction waits for an older one that has not retired: a matrix instruction for the writers of its sources, any
other for the accumulators that it reads (R21, R183, R192). -/
def State.writersOpen (s : State) (e : VEntry) : Bool :=
  let older := s.hart.viq.filter fun q => decide (q.e.seq < e.seq)
  e.works &&
    ((vreads e.instr).any (fun r => older.any fun q => accumulates q.e.instr r) ||
      (retiredSources e.instr).any (fun r => older.any fun q => (vwrites q.e.instr).contains r) ||
      (retiredMasks e.instr).any (fun m => older.any fun q => vmaskWrite q.e.instr == some m) ||
      (chainedSources e).any fun p =>
        match older.reverse.find? fun q => (vwrites q.e.instr).contains p.1 with
        | some q => q.e.rowLength != p.2
        | none => false)

/-- Errors met among the sources of an entry before anything else of it is done (R376, R380). -/
def State.soundSources (s : State) (e : VEntry) (ps : List Pop) (go : VRun) : VRun :=
  match ps.findSome? fun p => p.tile.ecc with
  | some g => stopped s (s.eccStop g)
  | none =>
    match s.badSource e (ps.map fun p => p.q.reg) with
    | some (src, covered) => stopped s (.ecc src none covered)
    | none => go

/-- The data of a weight slot that a restore left out, fetched again before the first MMA that names the slot begins
(R188). -/
def State.refetched (s : State) (e : VEntry) : VRun :=
  match e.instr with
  | .mma _ o => if o.bsrc then s.refetchSlot e o.wslot else ran s
  | _ => ran s

/-- An entry begins (R183, R188, R201, R206, R261, R376): it has the grid if it needs it, and what must retire first has; its
streams' faults are reported, its addresses are aligned, no source holds an error, a weight slot that it names holds its data,
and it takes its recheck entry. Then its pops are made, and its destinations' prior contents are kept. -/
def State.beginEntry (s : State) (e : VEntry) : VRun :=
  if e.begun then ran s
  else if (usesGrid e.instr && s.gridHeld) || s.writersOpen e then stopped s .wait
  else
    let (s, ps) := s.popsOf e (vreads e.instr).dedup
    match s.popStop e ps with
    | (s, some w) => (s, some w)
    | (s, none) =>
      let pop := fun t : State => ps.foldl (fun t p => t.takePop e p) t
      (pop s).alignedFirst e fun t =>
        t.soundSources e ps
          (match s.refetched e with
          | (s, some w) => (s, some w)
          | (s, none) =>
            match s.takeRecheck e with
            | (s, some w) => (s, some w)
            | (s, none) => ran (((pop s).savePrior e).withEntry fun e => { e with begun := true }))

/-! ### The work of an entry -/

/-- Element group `g` of a groupwise entry. -/
def State.runGroup (s : State) (e : VEntry) (g : Nat) : VRun :=
  match e.instr with
  | .via op o => s.runVia e g op o
  | .viaUnary op o => s.runViaUnary e g op o
  | .viai op o => s.runViai e g op o
  | .vfa op o => s.runVfa e g op o
  | .vfmm op o => s.runVfmm e g op o
  | .vfma op o => s.runVfma e g op o
  | .vfu op o => s.runVfu e g op o
  | .vfuNr op o => s.runVfuNr e g op o
  | .vcvt o => s.runVcvt e g o
  | .vcmp c o => s.runVcmp e g c o
  | .vfcmp c o => s.runVfcmp e g c o
  | .vsel o => s.runVsel e g o
  | .vmv o => s.runVmv e g o
  | .vbcast o => s.runVbcast e g o
  | .viota o => s.runViota e g o
  | .vld _ o => s.loadGroup e g o.d o.w o.m
  | .vst _ o => s.storeGroup e g false o.d o.w o.m
  | .vldx o => s.loadGroup e g o.d o.w o.m
  | .vstx ordered o => s.storeGroup e g ordered o.d o.w o.m
  | .vamo op o => s.amoGroup e g op o
  | _ => ran s

/-- Whether an instruction uses the merge unit (R160, R178). -/
def usesMerge (i : VInstr) : Bool :=
  match i with
  | .mma .rw _ => true
  | _ => vclass i == 12

/-- The grid and the merge unit have served the current hart's instruction: the rotations go on from it (R160, R178). -/
def State.served (s : State) (i : VInstr) : State :=
  if !usesGrid i && !usesMerge i then s
  else
    let c := s.core s.hart.core
    let k := Fin.ofNat 4 s.hart.slot
    s.setCore s.hart.core
      { c with gridLast := if usesGrid i then k else c.gridLast, mergeLast := if usesMerge i then k else c.mergeLast }

/-- MSETS, VCFG and SETVL have taken effect at their posting; at its turn VCFG empties the register slots, and a strip
that opened takes the positions of the streams. -/
def State.runTileSetting (s : State) (e : VEntry) : VRun :=
  match e.instr with
  | .vcfg _ => ran (s.withHart Hart.clearSlots)
  | .setvl _ => ran (s.strippedAt e)
  | .setvlb _ => ran (s.strippedAt e)
  | _ => ran s

/-- The whole work of an entry that is not groupwise. -/
def State.runWhole (s : State) (e : VEntry) : VRun :=
  match e.instr with
  | .mzero o => s.runMzero o
  | .vmvxs o => s.runVmvxs e o
  | .vmvsx o => s.runVmvsx e o
  | .vred op sat o => s.runVred e op sat o
  | .vredFsum o => s.runVredFsum e o
  | .vredFmm m o => s.runVredFmm e m o
  | .vredi m o => s.runVredi e m o
  | .vredfi m o => s.runVredfi e m o
  | .vscan op x o => s.runVscan e op x o
  | .vscanFsum x o => s.runVscanFsum e x o
  | .vscanFmax x o => s.runVscanFmax e x o
  | .vcompress o => s.runVcompress e o
  | .vexpand o => s.runVexpand e o
  | .vgathr o => s.runVgathr e o
  | .vslideup o => s.runVslideup e o
  | .vslidedn o => s.runVslidedn e o
  | .vtrans o => s.runVtrans e o
  | .vrowbc o => s.runVrowbc e o
  | .mop op o => s.runMop e op o
  | .mnot o => s.runMnot e o
  | .mset o => s.runMset e o
  | .mcnt op o => s.runMcnt e op o
  | .vldx o => s.runVldx e o
  | .vldff o => s.runVldff e o
  | .vstx ord o => s.runVstx e ord o
  | .vamo op o => s.runVamo e op o
  | .stra ind o => s.runStra e ind o
  | .stroff o => s.runStroff o
  | .strpos o => s.runStrpos o
  | .mma df o => s.runMma e df o
  | .wbld o => s.runWbld e o
  | .mdrain z o => s.runMdrain e z o
  | .vsort o => s.runVsort e o
  | .vmrg o => s.runVmrg e o
  | .vset inter mode o => s.runVset e inter mode o
  | .vtopk o => s.runVtopk e o
  | .vsegr op o => s.runVsegr e op o
  | .vsegrFsum o => s.runVsegrFsum e o
  | .vsegrFmm m o => s.runVsegrFmm e m o
  | .xopen o => s.runXopen e o
  | .xclose _ => s.runXclose e
  | .xfloor _ => s.runXfloor e
  | .xstat o => s.runXstat e o
  | .xsplit o => s.runXsplit e o
  | .xround _ => s.runXround e
  | .xsend mc o => s.runXsend e mc o
  | .xrecv o => s.runXrecv e o
  | .cpy sh o => s.runCpy e sh o
  | .cmwait o => s.runCmwait e o
  | .cmtest o => s.runCmtest e o
  | .cmclr o => s.runCmclr e o
  | _ => s.runTileSetting e

/-- At most `fuel` element groups of an entry from group `g` on; `total` groups make it complete. -/
def State.runGroups (e : VEntry) (total : Nat) : Nat → Nat → State → VRun
  | 0, g, s => ran (if total ≤ g then s.finishEntry e else s)
  | fuel + 1, g, s =>
    if total ≤ g then ran (s.finishEntry e)
    else
      match s.runGroup { e with done := g } g with
      | (s, none) => State.runGroups e total fuel (g + 1) (s.withEntry fun e => { e with done := g + 1 })
      | r => r

/-- The groups of an entry's tile (R19). -/
def State.entryGroups (s : State) (e : VEntry) : Nat := tileGroups s.lw e.vrows e.vl

/-- The work of an entry that has begun: `one` element group, or all that is left. -/
def State.runEntry (s : State) (e : VEntry) (one : Bool) : VRun :=
  if s.groupwise e.instr then
    let n := s.entryGroups e
    State.runGroups e n (if one then 1 else n - e.done) e.done (if n ≤ e.done then s.amoEmpty e else s)
  else
    match s.runWhole e with
    | (s, none) => ran ((s.served e.instr).finishEntry e)
    | r => r

/-- The working entry begun, if it has not, and worked on. -/
def State.attempt (s : State) (q : VSlot) (one : Bool) : VRun :=
  match s.beginEntry q.e with
  | (s, some w) => (s, some w)
  | (s, none) => s.runEntry ((s.hart.working.map fun q => q.e).getD q.e) one

/-! ### Precise traps at an entry -/

/-- The restart point of an entry that traps with group `resume` to come: nothing stands after a misaligned address (R22,
R133). -/
def State.resumeAt (s : State) (e : VEntry) (t : Trap) : Option Resume :=
  if t.cause = 0x06 then none
  else t.vresume.map fun g => ⟨g, s.lw, e.vl, max e.skip (groupsToElems s.lw e.vl g)⟩

/-- A precise trap at the oldest entry (R11, R22, R371): the flags of completed groups are merged (R78), pops are
returned (R263), younger work is discarded, and the trap is taken with the entry's own work standing. -/
def State.trapEntry (s : State) (e : VEntry) (t : Trap) : State :=
  let r := s.workResult
  let at_ := s.resumeAt e t
  let s := s.withHart fun h =>
    let h := ((h.mergeFlags r.fflags).unpop r.pops).rollback e
    { h with viq := [], hist := [], v := { h.v with vresumeAt := at_ } }
  s.enterTrap t

/-- What stopped work on the oldest entry takes effect: a trap, the consumption of an error (R380), or a wait. -/
def State.stopEntry (s : State) (e : VEntry) : VStop → State
  | .trap t => s.trapEntry e t
  | .ecc src g covered =>
    s.consumeError src g (if covered then s.hart.stripOf e.strip else none) fun v s =>
      s.trapEntry e ⟨0x18, v, 0, e.pc, none, some ((s.hart.working.map fun q => q.e.done).getD 0)⟩
  | .wait => s

/-! ### Retirement -/

/-- The first VIQ entry dropped with the history entries that it freed (R9); the hart looks again at what it waited for. -/
def Hart.dropHead (h : Hart) (seq : Nat) : Hart :=
  { h with
    viq := h.viq.drop 1
    hist := h.hist.filter fun i => decide (seq < i.after)
    marks := { h.marks with wait := .none } }

/-- The oldest entry retires: its results are delivered (R8, R78, R142, R144), and the strips and stores that waited for it
commit and become visible (R24, R238). -/
def State.retire (s : State) (q : VSlot) : State :=
  (s.withHart fun h =>
    let h := (h.deliver q.r).dropHead q.e.seq
    { h with scalar := { h.scalar with vret := h.scalar.vret + 1 } }).settleStores

/-- An order violation under ORDTRAP (R144): the entry retires, younger work is discarded, and cause 0x0D is taken at the
instruction that follows. -/
def State.retireOrder (s : State) (q : VSlot) (src : Bool) (pos : Nat) : State :=
  let s := s.withHart fun h => h.rollback q.e
  (s.retire q).enterTrap ⟨0x0D, orderTval src pos, 0, q.e.next, none, none⟩

/-- The oldest entry, complete and resolved, retires. -/
def State.retireHead (s : State) (q : VSlot) : State :=
  match q.r.order with
  | some (src, pos) => if s.hart.trap.ordTrap then s.retireOrder q src pos else s.retire q
  | none => s.retire q

/-- An entry of a removed hart retires as an empty operation (R389). -/
def State.retireEmpty (s : State) (q : VSlot) : State :=
  (s.withHart fun h =>
    let h := h.dropHead q.e.seq
    { h with scalar := { h.scalar with vret := h.scalar.vret + 1 } }).settleStores

/-- Whether an entry that ran without recheck must have one before it retires: its core is being checked throughout (R210,
R213). -/
def State.mustCheck (s : State) (q : VSlot) : Bool :=
  q.r.phase == .off && q.e.covered && s.forced && s.hart.marks.test.isNone

/-- Whether a complete oldest entry may retire: its result is confirmed, or needs no confirmation (R8, R203). -/
def State.mayRetire (s : State) (q : VSlot) : Bool :=
  q.e.complete && q.r.phase != .held && q.r.phase != .waiting && !s.mustCheck q

/-- The oldest entry changed. -/
def Hart.mapHead (h : Hart) (f : VSlot → VSlot) : Hart :=
  match h.viq with
  | [] => h
  | q :: rest => { h with viq := f q :: rest }

/-- A complete oldest entry that must be rechecked takes an entry of the recheck queue (R201, R210). -/
def State.holdHead (s : State) (q : VSlot) : State :=
  if q.e.complete && s.mustCheck q && decide (s.entriesHeld < 32) then
    s.withHart fun h => h.mapHead fun q => { q with r := { q.r with phase := .held, stamp := s.cycle } }
  else s

/-- The complete entries at the head of the VIQ that may retire do so, at most `n` of them. -/
def State.retireReady : Nat → State → State
  | 0, s => s
  | n + 1, s =>
    match s.hart.viq with
    | [] => s
    | q :: _ => if s.mayRetire q then State.retireReady n (s.retireHead q) else s.holdHead q

/-- Whether the working entry may run now: the oldest entry may, and behind entries whose rechecks are open one that is
covered, which touches nothing but registers (R201). -/
def State.runsNow (s : State) (q : VSlot) : Bool :=
  (s.hart.viq.head?.map fun k => k.e.seq) == some q.e.seq || rechecked q.e.instr

/-! ### The grid and the merge unit -/

/-- Whether the working entry of the current hart is ready: it may run, and nothing that it needs to begin is missing. -/
def State.canBegin (s : State) (q : VSlot) : Bool :=
  s.runsNow q && !s.hart.marks.removed && !s.hart.marks.saving &&
    match s.beginEntry q.e with
    | (_, some .wait) => false
    | _ => true

/-- Whether a hart has an instruction ready that satisfies `p` (R160). -/
def State.readyFor (s : State) (p : VInstr → Bool) (h : HartId) : Bool :=
  match s.findHart h with
  | some k =>
    match k.working with
    | some q => p q.e.instr && (s.focus h).canBegin q
    | none => false
  | none => false

/-- The harts of a core in the rotation of R160, from the hart after the one served last. -/
def rotation (core last : Nat) : List HartId :=
  (List.range 4).map fun i => Fin.ofNat 1024 (4 * core + (last + 1 + i) % 4)

/-- The hart that the grid of a core serves next (R178). -/
def State.gridFirst (s : State) (core : Nat) : Option HartId :=
  (rotation core (s.core core).gridLast.val).find? (s.readyFor usesGrid)

/-- Whether an instruction needs both units. -/
def usesBoth (i : VInstr) : Bool := usesGrid i && usesMerge i

/-- The hart that the merge unit of a core serves next (R160): one that needs the grid too has it first. -/
def State.mergeFirst (s : State) (core : Nat) : Option HartId :=
  (rotation core (s.core core).mergeLast.val).find? fun h =>
    s.readyFor (fun i => usesMerge i && !usesGrid i) h || (s.readyFor usesBoth h && s.gridFirst core == some h)

/-- The hart that the units an instruction of a core needs serve next. -/
def State.unitTurn (s : State) (core : Nat) (i : VInstr) : Option HartId :=
  if usesGrid i then
    match s.gridFirst core with
    | some h => if s.readyFor usesBoth h then s.mergeFirst core else some h
    | none => none
  else s.mergeFirst core

/-- Whether the units that the working entry of the current hart needs are this hart's to take (R160, R178). -/
def State.ownTurn (s : State) (q : VSlot) : Bool :=
  (!usesGrid q.e.instr && !usesMerge q.e.instr) ||
    match s.unitTurn s.hart.core q.e.instr with
    | some h => h == s.hart.ident.id
    | none => true

/-! ### The vector unit of a hart -/

/-- Work on the working entry of the current hart: `one` element group, or all of it. What stops an entry behind the oldest
one has not happened yet: it is met again when the entry is the oldest. -/
def State.workEntry (s : State) (one : Bool) (q : VSlot) : State :=
  if (s.hart.viq.head?.map fun k => k.e.seq) = some q.e.seq then
    match s.attempt q one with
    | (s, some w) => s.stopEntry q.e w
    | (s, none) => s
  else if !rechecked q.e.instr then s
  else
    match s.attempt q one with
    | (t, none) => t
    | (t, some .wait) => if t.workResult.phase = .waiting then t else s
    | _ => s

/-- The vector unit of the current hart moves: entries retire, and the working entry is worked on when the units it
needs are this hart's to take. An entry of a removed hart retires as an empty operation (R389); that of a hart being saved stands
(R334). -/
def State.workOn (s : State) (one : Bool) : State :=
  if s.hart.marks.removed then
    match s.hart.viq.head? with
    | some q => s.retireEmpty q
    | none => s
  else
    let s := State.retireReady s.hart.viq.length s
    match s.hart.working with
    | none => s
    | some q =>
      if s.hart.marks.saving || !s.ownTurn q then s
      else
        let s := s.workEntry one q
        if one then s else State.retireReady s.hart.viq.length s

/-- The vector unit of the current hart moves; where its working entry needs a unit that another hart's instruction has first,
that one is served instead (R160, R178). -/
def State.work (s : State) : State :=
  match s.hart.working with
  | none => s.workOn false
  | some q =>
    if s.ownTurn q then s.workOn false
    else
      match s.unitTurn s.hart.core q.e.instr with
      | some h => s.onHart h fun s => s.workOn false
      | none => s

/-- The vector unit after an instruction is posted: it moves when the hart runs no further ahead than its allowance (log
entry 6). -/
def State.settle (s : State) : State := if s.hart.lead < s.hart.viq.length then s.work else s

/-! ### Issue -/

/-- Whether a WBLD that has not run is posted for the weight slot that an MMA names (R176, R185). -/
def Hart.slotPending (h : Hart) (i : VInstr) : Bool :=
  match i with
  | .mma _ o => o.bsrc && h.viq.any fun q => !q.e.complete &&
      match q.e.instr with
      | .wbld w => w.slot == o.wslot
      | _ => false
  | _ => false

/-- Whether the VIQ is full, or the history buffer for an instruction that writes a register at its posting (R8, R9). -/
def Hart.full (h : Hart) (i : VInstr) : Bool :=
  decide (64 ≤ h.viq.length) || ((postedDest i).isSome && !h.viq.isEmpty && decide (64 ≤ h.hist.length))

/-- An address of an instruction that is known to be misaligned from the captured registers that hold no error (R133, R186, R258,
R277): an element of the first row, an image, a descriptor. -/
def State.knownMisaligned (s : State) (i : VInstr) (e : VEntry) : Option Word :=
  let sound := fun n => !((capturedRegs i)[n]?.map s.hart.badX).getD false
  let bad := fun n size => if sound n && !aligned (s.captured i n) size then some (s.captured i n) else none
  let row := fun m strided bytes =>
    let els := (List.range (if strided then 1 else e.vl)).map fun j => (0, j)
    if !sound 0 || s.badMask (e.mask m) || e.vl == 0 || e.vrows == 0 then none
    else (misaligned bytes (memElems s.hart.masks (e.mask m) e.vl (pitchAddr e strided bytes) els)).map fun x => x.va
  match i with
  | .vld st o => row o.m st o.w.bytes
  | .vst st o => row o.m st o.w.bytes
  | .vldff o => row o.m false o.w.bytes
  | .wbld o =>
    if !s.badMask o.m && s.imageTooLarge e o then none
    else
      match bad 0 64, bad 1 64 with
      | some a, some b => some (if b < a then b else a)
      | some a, none => some a
      | none, b => b
  | .stra _ _ => bad 0 8
  | .xround _ => bad 0 64
  | .xsplit _ => bad 1 64
  | _ => none

/-- Whether a stream's tile decides what comes of an instruction before an error in a captured register, or in the strip store
buffer that the instruction commits: a deferred copy fault or the stream fault of its tile comes first (R376). -/
def State.faultFirst (s : State) (i : VInstr) (e : VEntry) : Bool :=
  s.hart.viq.isEmpty &&
    ((vclass i == 22 && (takeFailure s.hart.copies).isSome) ||
      let (s, ps) := s.popsOf e (vreads i).dedup
      match s.popStop e ps with
      | (_, some (.trap _)) => true
      | (t, some _) => (t.knownMisaligned i e).isSome
      | _ => false)

/-- An instruction whose captured registers, or whose strip store buffer, hold an error that `consume` consumes: the faults that
come first are taken instead (R376). -/
def State.erring (s : State) (i : VInstr) (consume : State → State) : State :=
  let e := s.entryOf i
  if s.faultFirst i e then (s.post e).work
  else if !s.hart.viq.isEmpty then s.stall
  else
    match s.knownMisaligned i e with
    | some a => s.takeTrap ⟨0x06, a, 0, s.hart.scalar.pc, none, some 0⟩
    | none => consume s

/-- Whether an instruction does nothing with its operands when VL is 0 (R92, R145); tile settings, streams, matrix, exchange and
copy instructions have other tiles or none, and a vector atomic still has its order. -/
def idleAtZero : VInstr → Bool
  | .vcfg _ => false
  | .setvl _ => false
  | .setvr _ => false
  | .setvlb _ => false
  | .vamo _ _ => false
  | .stra _ _ => false
  | i => decide (4 ≤ vclass i) && decide (vclass i ≤ 12)

/-- The registers whose values an instruction needs when it is posted (R90, R92). -/
def State.neededRegs (s : State) (i : VInstr) : List XReg :=
  if idleAtZero i && s.hart.v.vl == 0 then [] else capturedRegs i

/-- The issue of a vector-class instruction (R8 to R10, R56, R90): the registers it captures, or writes at once, are there,
its checks pass, and `k` posts it. -/
def State.issueWith (s : State) (i : VInstr) (k : State → State) : State :=
  let e := s.entryOf i
  if (capturedRegs i ++ (postedDest i).toList).any s.hart.pendingX || s.hart.slotPending i then s.stall
  else
    match s.issueIllegal i e with
    | some r => s.illegal r (vhead i)
    | none =>
      match s.issueReserved i e with
      | some n => s.trap 0x05 (BitVec.ofNat 64 n)
      | none =>
        s.classed (vclass i) fun s =>
          if s.hart.full i then s.stall
          else
            match (s.neededRegs i).find? s.hart.badX with
            | some r => s.erring i fun s => s.badRegister r
            | none => k s

/-- A vector-class instruction at issue: posted once the strip commit that the exchange and copies bring with them is under
way (R24, R384). -/
def State.issueVector (s : State) (i : VInstr) : State :=
  s.issueWith i fun s =>
    if commitsAtPosting i && s.badBuffer then s.erring i State.bufferError
    else
      let t := if commitsAtPosting i then s.commit else s
      s.drained (t.post (t.entryOf i)).settle

/-! ### Events of the vector unit -/

/-- VECTOR_GROUP_COMPLETE (R20): the working entry of a hart completes one element group. -/
def execVectorGroupComplete (h : HartId) (s : State) : Answered := .next (s.onHart h fun s => s.workOn true)

/-- VIQ_RETIRE (R8): the oldest entry retires when it is complete and resolved. -/
def execViqRetire (h : HartId) (s : State) : Answered := .next (s.onHart h fun s => State.retireReady 1 s)

/-- GRID_GRANT (R178): the grid serves the first hart in rotation with a ready MMA. -/
def execGridGrant (core : CoreId) (s : State) : Answered :=
  .next (match s.gridFirst core.val with
    | some h =>
      if s.readyFor usesBoth h && s.mergeFirst core.val != some h then s else s.onHart h fun s => s.workOn false
    | none => s)

/-- MERGE_UNIT_GRANT (R160): the merge unit serves the first hart in rotation with an instruction ready for it. -/
def execMergeUnitGrant (core : CoreId) (s : State) : Answered :=
  .next (match s.mergeFirst core.val with
    | some h => s.onHart h fun s => s.workOn false
    | none => s)

end Sys2Proof.Machine
end

