-- ==== Sys2Proof/Machine/Strips.lean ====
section
/-! DEFINITION. The tile-setting instructions, MSETS and MZERO, which take effect at their posting and retire through the VIQ
(R8, R116 to R121, R169), and the mask branches (R109). -/

namespace Sys2Proof.Machine

/-- VCFG (R116). -/
def execVcfg (o : VcfgOps) (s : State) : Answered :=
  .next (s.issueWith (.vcfg o) fun s =>
    let e := s.entryOf (.vcfg o)
    ((s.withHart fun h => { h with v := h.v.configure o.nv (vcfgList e.x0 o.c.val) }).post e).settle)

/-- Whether a register of the checkpoint awaits a posted instruction (R10, R23). -/
def Hart.checkpointPending (h : Hart) : Bool :=
  (List.finRange 32).any fun r => h.ctl.schkmask.getLsbD r.val && h.pendingX r

/-- SETVL (R119). -/
def execSetvl (o : SetvlOps) (s : State) : Answered :=
  .next (s.issueWith (.setvl o) fun s =>
    if s.hart.checkpointPending then s.stall
    else if s.badBuffer then s.bufferError
    else
      let e := s.entryOf (.setvl o)
      ((s.setvl o.d e.x0 o.w e.next).post e).settle)

/-- SETVR (R120). -/
def execSetvr (o : SetvlOps) (s : State) : Answered :=
  .next (s.issueWith (.setvr o) fun s =>
    let e := s.entryOf (.setvr o)
    ((s.setvr o.d e.x0 o.w).post e).settle)

/-- The posting of a SETVLB that continues at `next` (R121). -/
def State.postSetvlb (s : State) (o : SetvlbOps) (next : Word) : State :=
  let e := { s.entryOf (.setvlb o) with next := next }
  ((s.setvl o.d e.x0 o.w next).post e).settle

/-- SETVLB (R121): when the grant is 0 it transfers, and an illegal target traps with nothing done (R45). -/
def execSetvlb (o : SetvlbOps) (s : State) : Answered :=
  .next (s.issueWith (.setvlb o) fun s =>
    if s.hart.checkpointPending then s.stall
    else if s.setvlGrant (s.x o.a) o.w = 0 then
      let target := relTarget s.hart.scalar.pc o.loff.toInt o.slot.val
      s.checkTarget s.hart.scalar.level target fun s =>
        if s.badBuffer then s.bufferError else s.postSetvlb o target
    else if s.badBuffer then s.bufferError
    else s.postSetvlb o s.hart.nextPc)

/-- MSETS (R165, R169): the shape is in force for the instructions after it. -/
def execMsets (a : XReg) (s : State) : Answered :=
  .next (s.issueWith (.msets a) fun s =>
    let e := s.entryOf (.msets a)
    ((s.withHart fun h => { h with v := { h.v with mshape := (mshapeOf e.x0).getD h.v.mshape } }).post e).settle)

/-- MZERO (R168, R169). -/
def execMzero (o : MzeroOps) (s : State) : Answered := .next (s.issueVector (.mzero o))

/-! ### Mask branches -/

/-- Whether a position of the tile is set in a mask (R109). -/
def State.anyMask (s : State) (m : MReg) : Bool :=
  (List.range (s.hart.v.vrows * s.hart.v.vl)).any fun p => mget s.hart.masks m p

/-- Whether a mask register awaits a posted instruction (R10, R109). -/
def Hart.pendingMask (h : Hart) (m : MReg) : Bool := m != 0 && h.viq.any fun q => vmaskWrite q.e.instr == some m

/-- A mask branch (R109): it waits for the mask's writers, and consumes an error in the mask. -/
def State.maskBranch (s : State) (o : MaskBranchOps) (any : Bool) : State :=
  s.scalar 0 [] [] fun s =>
    if s.hart.pendingMask o.a then s.stall
    else if o.a != 0 && s.hart.marks.badRegs.contains (.maskRegister s.hart.ident.id o.a) then
      if s.hart.viq.isEmpty then s.consumeError 6 none none fun v t => t.trap 0x18 v else s.stall
    else if s.anyMask o.a == any then
      s.transfer (relTarget s.hart.scalar.pc o.loff.toInt o.slot.val) fun s => s
    else s.advance

/-- BMANY (R109). -/
def execBmany (o : MaskBranchOps) (s : State) : Answered := .next (s.maskBranch o true)
/-- BMNONE (R109). -/
def execBmnone (o : MaskBranchOps) (s : State) : Answered := .next (s.maskBranch o false)

end Sys2Proof.Machine
end

