-- ==== Sys2Proof/Machine/System.lean ====
section
/-! DEFINITION. System instructions and the CSRs (R54, R110 to R115, R361 to R366, R369, R370, R377, R382, R383, R388):
each CSR of R114 with its access rule, its reserved bits, what it reads and what a write of it does. -/

namespace Sys2Proof.Machine

/-! ### System functions -/

/-- NOP (R110). -/
def execNop (s : State) : Answered := .next (s.scalar 0 [] [] fun s => s.advance)

/-- 16 bytes of a live-set table as two words; none when reading it faults (R332). -/
def State.liveEntry (s : State) (va : Nat) : State × Option (Nat × Nat) :=
  match s.locate .load (BitVec.ofNat 64 va) with
  | (s, .error _) => (s, none)
  | (s, .ok (pa, kind)) =>
    match s.readAt .load pa 16 kind (s.hart.newest + 1) with
    | (s, .error _) => (s, none)
    | (s, .ok bs) => (s, some (leNat (bs.take 8), leNat (bs.drop 8)))

/-- The search of a live-set table for a program counter, at most `fuel` entries from `va` (R330, R332). -/
def State.liveSearch (pc : Word) : Nat → Nat → State → State × BitVec 64
  | 0, _, s => (s, BitVec.allOnes 64)
  | fuel + 1, va, s =>
    match s.liveEntry va with
    | (s, none) => (s, BitVec.allOnes 64)
    | (s, some (p, m)) =>
      if p = 0 then (s, BitVec.allOnes 64)
      else if p = pc.toNat then (s, BitVec.ofNat 64 m)
      else State.liveSearch pc fuel (va + 16) s

/-- The live vector registers of a cooperative save at the YIELD `pc` (R332). -/
def State.liveMask (s : State) (pc : Word) : State × BitVec 64 :=
  if s.hart.ctl.livetab = 0 then (s, BitVec.allOnes 64)
  else State.liveSearch pc 1024 s.hart.ctl.livetab.toNat s

/-- The save of the current hart begins (R332 to R334): it issues no more; `live` are the vector registers recorded. -/
def State.beginSave (s : State) (live : BitVec 64) : State :=
  s.withHart fun h => { h with marks := { h.marks with saving := true, savedLive := some live, forced := false } }

/-- YIELD (R110, R332): the strip commits, and with REQ set the hart is saved, to go on at the slot that follows. -/
def execYield (s : State) : Answered :=
  .next (s.scalarAlone 0 [] [] fun s =>
    let pc := s.hart.scalar.pc
    let s := s.commit
    if s.hart.ctl.preqReq then
      let (s, live) := s.liveMask pc
      s.advance.beginSave live
    else s.advance)

/-- A hart that received cause 0x1A ends, or is saved, before it has sealed: the window runs its whole length (R402). -/
def State.leaveUnsealed (s : State) (h : Hart) : State :=
  if s.power.window && h.ctl.holdgrant.getLsbD 31 && !h.marks.powerFail && !h.marks.sealed then
    { s with power := { s.power with unsealed := true } }
  else s

/-- The current hart ends (R110): its slot and its index are free (R314), stores to unordered pages reach their home
(R237), and a stage-0 hart's end is recorded (R313); a launch left with saved harts only is saved (R331, R337). -/
def State.endHart (s : State) : State :=
  let s := (s.leaveUnsealed s.hart).sendUnordered s.hart
  let s := if s.hart.ident.stage = 0 then s.updateLaunch s.hart.ident.seq fun l => { l with stage0Halted := true } else s
  let s := s.withHart fun h => { h with marks := { h.marks with halted := true, wait := .none } }
  s.settleSaved s.hart.ident.seq

/-- Whether every chunk of a copy is LANDED (R267). -/
def Copy.landed (c : Copy) : Bool := c.inFlight.isEmpty && decide (c.chunks ≤ c.next)

/-- HALT (R110, R389): the strip commits; a removed hart ends at once, any other delivers a pending copy fault, waits
for its copies and ends. -/
def execHalt (s : State) : Answered :=
  .next (s.scalarAlone 0 [] [] fun s =>
    let s := s.commit
    if s.hart.marks.removed then s.drainCopies.advance.endHart
    else s.copyClassScalar fun s =>
      if s.hart.copies.all fun c => c.copy.landed then s.advance.endHart else s.stall)

/-- ERET (R110, R374). -/
def execEret (s : State) : Answered :=
  .next (
    if s.hart.scalar.level = .u then s.illegal .function 0x4003
    else s.scalarAlone 0 [] [] fun s => s.eret)

/-- BRK (R110, R111). -/
def execBrk (s : State) : Answered := .next (s.scalar 0 [] [] fun s => s.trapAfter 0x10 0)

/-- TRAP (R111). -/
def execTrap (code : BitVec 16) (s : State) : Answered :=
  .next (s.scalar 0 [] [] fun s => s.trapAfter 0x0F (code.setWidth 64))

/-- ILLEGAL_INSTRUCTION (R56): a slot that is not an instruction traps with cause 0x01. -/
def execIllegalInstruction (r : IllegalReason) (word : BitVec 16) (s : State) : Answered :=
  .next (s.illegal r word.toNat)

/-! ### CSR access -/

/-- The bits of a CSR that are not reserved; none for an unassigned number (R114). A write of TPC or TVEC keeps the bits that R42
reserves in a program counter, as the register's own table gives it all 64 (the model's choice, log entry 79). -/
def csrFields (n : Nat) : Option Nat :=
  match n with
  | 0x001 => some (2 ^ 19 - 1)
  | 0x002 => some (2 ^ 11 - 1)
  | 0x003 => some (2 ^ 20 - 1)
  | 0x004 => some (2 ^ 29 - 1)
  | 0x005 => some (2 ^ 8 - 1)
  | 0x006 => some (2 ^ 19 - 1)
  | 0x007 => some (2 ^ 51 - 2 ^ 12 + 1)
  | 0x008 => some (2 ^ 5 - 1)
  | 0x009 => some (2 ^ 36 - 1)
  | 0x010 => some (2 ^ 64 - 1)
  | 0x011 => some (2 ^ 64 - 1)
  | 0x012 => some (2 ^ 10 - 1)
  | 0x013 => some (2 ^ 25 - 1)
  | 0x014 => some (2 ^ 32 - 2 ^ 16 + 7)
  | 0x015 => some (2 ^ 16 - 1)
  | 0x020 => some (2 ^ 57 - 1)
  | 0x100 => some (2 ^ 32 - 2)
  | 0x101 => some (2 ^ 48 - 2 ^ 32 + 7)
  | 0x105 => some (2 ^ 16 - 2 ^ 8 + 1)
  | 0x110 => some (2 ^ 8 + 3)
  | 0x111 => some (2 ^ 32 - 1)
  | 0x200 => some (2 ^ 33 - 1)
  | 0x201 => some (2 ^ 32 - 1)
  | 0x202 => some (2 ^ 11 - 2 ^ 8 + 7)
  | 0x203 => some (2 ^ 57 - 2 ^ 4)
  | 0x300 => some (2 ^ 12 - 1)
  | 0x301 => some (2 ^ 64 - 1)
  | 0x302 => some (2 ^ 64 - 1)
  | 0x303 => some (2 ^ 64 - 1)
  | 0x304 => some 7
  | 0x305 => some 7
  | 0x400 => some (2 ^ 16 - 1)
  | 0x401 => some (2 ^ 57 - 2 ^ 5)
  | 0x402 => some (2 ^ 64 - 2 ^ 7 + 3)
  | 0x403 => some (2 ^ 57 - 2 ^ 12 + 1)
  | 0x404 => some (2 ^ 12 - 2 ^ 4 + 3)
  | 0x405 => some (2 ^ 6 - 1)
  | 0x500 => some (2 ^ 23 - 1)
  | 0x501 => some (2 ^ 23 - 1)
  | 0x600 => some (2 ^ 64 - 2 ^ 48 + 0x1F1F)
  | 0x700 => some (2 ^ 31 + 0x7F * 2 ^ 16 + 0x1FFF)
  | 0x701 => some (0x7F * 2 ^ 40 + 0x7F * 2 ^ 32 + 0x7F * 2 ^ 24 + 0xF)
  | _ => none

/-- The read-only CSRs (R113 and their register maps). -/
def csrReadOnly (n : Nat) : Bool :=
  [0x003, 0x004, 0x005, 0x010, 0x011, 0x012, 0x013, 0x014, 0x015, 0x404, 0x405, 0x500, 0x501, 0x700, 0x701].contains n

/-- Whether U may access a CSR number (R113, R388). -/
def csrUser (n : Nat) (write : Bool) : Bool :=
  (decide (n < 0x300) && n != 0x105) || (decide (0x600 ≤ n) && decide (n < 0x700)) ||
    (decide (0x500 ≤ n) && decide (n < 0x600) && !write)

/-- Whether an access to a CSR is permitted at a level (R113). -/
def csrPermitted (lvl : Level) (n : Nat) (write : Bool) : Bool :=
  (csrFields n).isSome && (lvl == .s || csrUser n write) && !(write && csrReadOnly n)

/-- Whether a CSR is one that vector-class instructions set, or that count them (R10, R115, R199, R383). -/
def csrVector (n : Nat) : Bool := [0x001, 0x002, 0x006, 0x007, 0x008, 0x011, 0x101, 0x111, 0x600].contains n

/-- Whether a CSR instruction waits for an empty VIQ (R10, R113). -/
def csrWaits (n : Nat) (write : Bool) : Bool := csrVector n || (write && decide (0x100 ≤ n))

/-- Whether a value written to a CSR sets a reserved bit, or a field to a reserved value (R113, R198, R353, R377, R382). -/
def csrReserved (n : Nat) (v : Word) : Bool :=
  (v.toNat &&& (csrFields n).getD 0) != v.toNat ||
    match n with
    | 0x100 => decide (8 < ((List.range 64).filter fun i => v.getLsbD i).length)
    | 0x110 => v.toNat % 4 == 3
    | 0x305 => decide (2 ≤ v.toNat / 2 % 4)
    | 0x402 => v.toNat % 4 == 3
    | _ => false

/-- The TVAL of the cause 0x05 that a write of VL, VROWS or MSHAPE out of range raises (R118, R165). -/
def State.csrShape (s : State) (n : Nat) (v : Word) : Option Word :=
  match n with
  | 0x001 => if vlLimit s.lw s.hart.v.words < v.toNat then some 0 else none
  | 0x002 => if v.toNat = 0 ∨ s.hart.v.words < v.toNat then some 0 else none
  | 0x009 => if (mshapeOf v).isNone then some 2 else none
  | _ => none

/-! ### What a CSR reads -/

/-- VCFGR (R117). -/
def Hart.vcfgr (h : Hart) : Nat :=
  h.v.nvCode.val + 4 * h.v.carried.length + ((h.v.carried.zipIdx).map fun p => p.1.val * 2 ^ (5 + 6 * p.2)).sum

/-- VSTAT (R143). -/
def Hart.vstat (h : Hart) : Nat :=
  h.v.cnt % 2 ^ 19 * 2 ^ 32 + bit01 h.v.osrc * 2 ^ 31 + h.v.opos % 2 ^ 19 * 4096 + bit01 h.v.order

/-- STRIPCTL (R383). -/
def Hart.stripctl (h : Hart) : Nat :=
  h.ctl.rewinds.toNat * 2 ^ 32 + bit01 h.strip.isNone * 4 + bit01 h.strip.isSome * 2

/-- PREQ.LEFT (R327). -/
def State.preqLeft (s : State) (h : Hart) : Nat :=
  if h.ctl.preqReq then h.ctl.preqLeft.toNat - (s.cycle - h.ctl.preqSince) else 0

/-- TSTATUS (R369). -/
def TrapCsrs.status (t : TrapCsrs) : Nat := bit01 t.pmask * 4 + bit01 t.inTrap * 2 + bit01 t.spl

/-- The debug state in force (R365; a standing SECURE INVASIVE keeps its state where the table refuses a request). -/
def State.debugInForce (s : State) : DebugState :=
  match s.mgmt.debugReq with
  | .none => .none
  | .observe => if s.power.endgame || s.power.state == .off then .none else .observe
  | .invasive =>
    if s.mgmt.lifecycle = .secure then .invasive
    else if s.power.endgame || s.power.state == .off then .none
    else if s.power.state == .ret then .observe else .invasive

/-- The code of a debug state (R366). -/
def debugCode : DebugState → Nat
  | .none => 0
  | .observe => 1
  | .invasive => 2

/-- The code of a lifecycle state (R366). -/
def Lifecycle.code : Lifecycle → Nat
  | .manufacture => 0
  | .secure => 1
  | .rma => 2

/-- SECSTAT (R366). -/
def State.secstat (s : State) : Nat :=
  s.power.state.code * 16 + debugCode s.debugInForce * 4 + s.mgmt.lifecycle.code

/-- The value of a CSR as a number (R114). -/
def State.csrNat (s : State) (n : Nat) : Nat :=
  let h := s.hart
  match n with
  | 0x001 => h.v.vl
  | 0x002 => h.v.vrows
  | 0x003 => s.lw * h.v.words
  | 0x004 => h.vcfgr
  | 0x005 => (h.marks.test.map fun t => 2 ^ t.2.val).getD (s.core h.core).lanemap.toNat
  | 0x006 => h.v.vresume
  | 0x007 => h.vstat
  | 0x008 => h.v.fflags.toNat
  | 0x009 => h.v.mshape.word.toNat
  | 0x010 => s.cycle
  | 0x011 => (h.scalar.instret + h.scalar.vret).toNat
  | 0x012 => h.ident.id.val
  | 0x013 => s.pkg.toNat * 256 + h.core
  | 0x014 => h.ident.seq % 65536 * 65536 + h.ident.stage.val
  | 0x015 => 1
  | 0x020 => h.scalar.csptr.toNat
  | 0x100 => h.ctl.schkmask.toNat
  | 0x101 => h.stripctl
  | 0x105 => bit01 h.ctl.vlgcapEn
  | 0x110 => bit01 s.forced * 256 + h.ctl.rchkmode.val
  | 0x111 => h.ctl.rchkskip.toNat
  | 0x200 => s.preqLeft h * 2 + bit01 h.ctl.preqReq
  | 0x201 => h.ctl.pdeadline.toNat
  | 0x202 => h.ctl.lprio.val * 256 + h.ctl.prio.val
  | 0x203 => h.ctl.livetab.toNat
  | 0x300 => h.trap.sub.toNat * 256 + h.trap.cause.toNat
  | 0x301 => h.trap.tpc.toNat
  | 0x302 => h.trap.tval.toNat
  | 0x303 => h.trap.tvec.toNat
  | 0x304 => h.trap.status
  | 0x305 => bit01 h.trap.pfGroup * 2 + bit01 h.trap.ordTrap
  | 0x400 => h.xctx.ctxid.toNat
  | 0x401 => h.xctx.ptroot.toNat
  | 0x403 => h.xctx.strbase.toNat
  | 0x404 => h.trap.xlinfo.toNat
  | 0x405 => s.secstat
  | 0x500 => (s.core h.core).cap.toNat
  | 0x501 => h.ctl.usemask.toNat
  | 0x600 => h.ctl.xstatus.toNat
  | 0x700 => h.ctl.holdgrant.toNat
  | 0x701 => h.ctl.pfstat.toNat
  | _ => 0

/-- The value of a CSR (R114). -/
def State.csrRead (s : State) (n : Nat) : Word := BitVec.ofNat 64 (s.csrNat n)

/-! ### What a CSR write does -/

/-- A CSR of the scalar side that issues without waiting for the VIQ: its prior value is recorded (R9). -/
def State.recordCsr (s : State) (n : Fin 4096) : State :=
  let old := s.csrRead n.val
  s.withHart fun h => h.record fun k => .csr k n old

/-- PDEADLINE after a write (R328). -/
def pdeadlineWrite (lvl : Level) (placed v : BitVec 32) : BitVec 32 :=
  if v = 0 then 1 else if lvl = .u ∧ placed < v then placed else v

/-- PRIO after a write (R329). -/
def prioWrite (lvl : Level) (lprio old v : Fin 8) : Fin 8 := if lvl = .u ∧ lprio < v then old else v

/-- XSTATUS after a write of its W1C bits (R303). -/
def xstatusWrite (old v : Word) : Word := old &&& ~~~(v &&& 0x1F1F)

/-- The control CSRs 0x100 to 0x2FF of a hart after a write (R198, R199, R327 to R330, R382, R383). -/
def Hart.writeControl (h : Hart) (n : Nat) (v : Word) : Hart :=
  let c := h.ctl
  match n with
  | 0x100 => { h with ctl := { c with schkmask := v.setWidth 32 } }
  | 0x101 => { h with ctl := { c with rewinds := BitVec.ofNat 16 (v.toNat / 2 ^ 32) } }
  | 0x110 => { h with ctl := { c with rchkmode := Fin.ofNat 3 (v.toNat % 4) } }
  | 0x111 => { h with ctl := { c with rchkskip := v.setWidth 32 } }
  | 0x201 => { h with ctl := { c with pdeadline := pdeadlineWrite h.scalar.level c.pdeadlinePlaced (v.setWidth 32) } }
  | 0x202 => { h with ctl := { c with prio := prioWrite h.scalar.level c.lprio c.prio (Fin.ofNat 8 v.toNat) } }
  | 0x203 => { h with ctl := { c with livetab := v } }
  | 0x600 => { h with ctl := { c with xstatus := xstatusWrite c.xstatus v } }
  | _ => h

/-- The trap and translation CSRs of a hart after a write (R351, R363, R369, R377). -/
def Hart.writeTrap (h : Hart) (n : Nat) (v : Word) : Hart :=
  match n with
  | 0x300 => { h with trap := { h.trap with sub := BitVec.ofNat 4 (v.toNat / 256), cause := v.setWidth 8 } }
  | 0x301 => { h with trap := { h.trap with tpc := v } }
  | 0x302 => { h with trap := { h.trap with tval := v } }
  | 0x303 => { h with trap := { h.trap with tvec := v } }
  | 0x304 => { h with trap := { h.trap with pmask := v.getLsbD 2, inTrap := v.getLsbD 1, spl := v.getLsbD 0 } }
  | 0x305 => { h with trap := { h.trap with pfGroup := v.getLsbD 1, ordTrap := v.getLsbD 0 } }
  | 0x400 => { h with xctx := { h.xctx with ctxid := v.setWidth 16 } }
  | 0x401 => { h with xctx := { h.xctx with ptroot := v } }
  | 0x403 => { h with xctx := { h.xctx with strbase := v } }
  | _ => h

/-- The vector and stack CSRs of a hart after a write, on a core of `lw` lanes (R17, R77, R106, R118, R143, R165, R370). -/
def Hart.writeVector (h : Hart) (lw n : Nat) (v : Word) : Hart :=
  match n with
  | 0x001 => { h with v := { h.v with vl := v.toNat } }
  | 0x002 => { h with v := { h.v with vrows := v.toNat } }
  | 0x006 => { h with v := { h.v with vresume := v.toNat, vresumeAt := some ⟨v.toNat, lw, 0, 0⟩ } }
  | 0x007 => { h with v := { h.v with order := v.getLsbD 0 } }
  | 0x008 => { h with v := { h.v with fflags := v.setWidth 5 } }
  | 0x009 => { h with v := { h.v with mshape := (mshapeOf v).getD h.v.mshape } }
  | 0x020 => { h with scalar := { h.scalar with csptr := v } }
  | _ => h

/-- An invalidation of TLB entries by a hart (R353): the strip commits, the hart's stores are visible, and the matching
entries are dropped. -/
def State.tlbinv (s : State) (kind : Nat) (ctx : BitVec 16) (vpn : Nat) : State := s.commit.tlbDrop kind ctx vpn

/-- A write of EN = 0 to the VLGCAP of the current hart, which goes on (R388, R389). -/
def State.vlgcapWrite (s : State) (v : Word) : State :=
  let id := some s.hart.ident.id
  if v.getLsbD 0 then s else s.beginRemoval s.hart.ident.seq (BitVec.ofNat 8 (v.toNat / 256)) id id

/-- The effect of a CSR write (R113): a number in 0x100 to 0x7FF commits the strip (R384). -/
def State.csrWrite (s : State) (n : Fin 4096) (v : Word) : State :=
  if n.val < 0x100 then (s.recordCsr n).withHart fun h => h.writeVector s.lw n.val v
  else
    let s := s.commit
    if n.val = 0x105 then s.vlgcapWrite v
    else if n.val = 0x402 then s.tlbinv (v.toNat % 4) (BitVec.ofNat 16 (v.toNat / 128)) (v.toNat / 2 ^ 23)
    else if 0x300 ≤ n.val ∧ n.val < 0x500 then s.withHart fun h => h.writeTrap n.val v
    else s.withHart fun h => h.writeControl n.val v

/-- Whether an address of a context was translated by an entry that an invalidation of KIND, CTX and VPN drops; the block that
covers the page counts whole (R353). -/
def invMatches (kind : Nat) (ctx : BitVec 16) (vpn : Nat) (c : BitVec 16) (va : Nat) : Bool :=
  kind == 0 || (c == ctx && (kind == 1 || va / 2 ^ 29 == vpn / 2 ^ 13))

/-- Whether an access translated with an entry that an invalidation drops is still to be performed (R353, log entry 39): a chunk
that is being written, or a store in the strip store buffer of a hart other than `own`, or of one that is saved (R338). -/
def State.tlbHeld (s : State) (own : Option HartId) (kind : Nat) (ctx : BitVec 16) (vpn : Nat) : Bool :=
  (s.placed.any fun h =>
    h.copies.any (fun c => !c.copy.inFlight.isEmpty) ||
      (some h.ident.id != own && h.sbuf.any fun e => invMatches kind ctx vpn e.ctx e.va)) ||
    s.savedHarts.any fun h => h.sbuf.any fun e => invMatches kind ctx vpn e.ctx e.va

/-- KIND, CTX and VPN of a value written to TLBINV or TLBINVR (R353). -/
def invFields (v : Word) : Nat × BitVec 16 × Nat := (v.toNat % 4, BitVec.ofNat 16 (v.toNat / 128), v.toNat / 2 ^ 23)

/-! ### The CSR instructions -/

/-- The head word of a CSR instruction (R49, R112). -/
def csrHead (d : XReg) : Nat := 0x4300 + d.val

/-- The effect of a CSR instruction whose checks passed (R112). -/
def State.csrDone (s : State) (o : CsrOps) (writes : Bool) (old new : Word) : State :=
  s.scalar 0 [o.a] [o.d] fun s => s.drained (((if writes then s.csrWrite o.csr new else s)).wrote o.d old)

/-- A CSR instruction (R56, R112, R113): its access, its waits, its value's checks, then one write and x[D]. -/
def State.csrOp (s : State) (o : CsrOps) (always : Bool) (f : Word → Word → Word) : State :=
  let n := o.csr.val
  let writes := always || o.a != 0
  if !csrPermitted s.hart.scalar.level n writes then s.illegal .csr (csrHead o.d)
  else if s.hart.pendingX o.a || s.hart.pendingX o.d then s.stall
  else if csrWaits n writes && !s.hart.viq.isEmpty then s.stall
  else if s.hart.badX o.a then s.badRegister o.a
  else
    let old := s.csrRead n
    let new := f old (s.x o.a)
    if writes && csrReserved n new then s.illegal .csr (csrHead o.d)
    else if n = 0x402 && writes && s.tlbHeld (some s.hart.ident.id) (invFields new).1 (invFields new).2.1 (invFields new).2.2 then
      s.stall
    else
      match if writes then s.csrShape n new else none with
      | some t => s.trap 0x05 t
      | none => s.csrDone o writes old new

/-- CSRRW (R112). -/
def execCsrrw (o : CsrOps) (s : State) : Answered := .next (s.csrOp o true fun _ v => v)
/-- CSRRS (R112). -/
def execCsrrs (o : CsrOps) (s : State) : Answered := .next (s.csrOp o false fun old v => old ||| v)
/-- CSRRC (R112). -/
def execCsrrc (o : CsrOps) (s : State) : Answered := .next (s.csrOp o false fun old v => old &&& ~~~v)

/-! ### Register writes as steps of their own -/

/-- STRIPCTL_SEAL (R383): the open strip commits and is sealed. -/
def execStripctlSeal (s : State) : Answered := .next s.commit

/-- VLGCAP_WRITE (R388, R389): EN = 0 written to the VLGCAP of a hart by its runtime or by the management controller. -/
def execVlgcapWrite (h : HartId) (byMc : Bool) (cause : BitVec 8) (s : State) : Answered :=
  .next (match s.findHart h with
    | some k =>
      if byMc then s.beginRemoval k.ident.seq 0x1B none none
      else s.beginRemoval k.ident.seq cause (some h) (some h)
    | none => s)

/-- The write of TLBINV by the current hart: it waits for an empty VIQ and for the accesses already translated. -/
def State.tlbinvWhenFree (s : State) (kind : Nat) (ctx : BitVec 16) (vpn : Nat) : State :=
  if s.hart.viq.isEmpty && !s.tlbHeld (some s.hart.ident.id) kind ctx vpn then s.tlbinv kind ctx vpn else s.stall

/-- TLBINV_ALL (R353). -/
def execTlbinvAll (s : State) : Answered := .next (s.tlbinvWhenFree 0 0 0)
/-- TLBINV_CONTEXT (R353). -/
def execTlbinvContext (ctx : BitVec 16) (s : State) : Answered := .next (s.tlbinvWhenFree 1 ctx 0)
/-- TLBINV_PAGE (R353). -/
def execTlbinvPage (ctx : BitVec 16) (vpn : BitVec 41) (s : State) : Answered := .next (s.tlbinvWhenFree 2 ctx vpn.toNat)

end Sys2Proof.Machine
end

