-- ==== Sys2Proof/Machine/Task.lean ====
section
/-! DEFINITION. LAUNCH and the hardware queues (R311, R320 to R326). -/

namespace Sys2Proof.Machine

/-! ### Stages of a launch -/

/-- The record of a stage. -/
def Launch.stage (l : Launch) (n : Nat) : Option StageRec := l.record.stages[n]?

/-- OUTQ of a stage (R27). -/
def Launch.outq (l : Launch) (n : Nat) : Option (Fin 64) := (l.stage n).bind fun r => r.outq

/-- The harts of a stage: placed, or saved, which counts as placed (R320). -/
def State.stageHarts (s : State) (l : Launch) (n : Nat) : List Hart :=
  (s.placed.filter fun h => h.ident.seq == l.seq && h.ident.stage.val == n) ++
    l.savedHarts.filter fun h => h.ident.stage.val == n

/-- Whether a launch that has been placed binds a queue number (R313). -/
def Launch.binds (l : Launch) (q : Nat) : Bool :=
  l.phase != .queued && l.record.stages.any fun r => (r.outq.map fun k => k.val) == some q

/-- A queue with no entry: bound, with its depth, by the launch that names it (R313). -/
def State.freshQueue (s : State) (q : Nat) : Queue :=
  match s.sched.launches.find? fun l => l.binds q with
  | some l =>
    ⟨((l.record.stages.find? fun r => (r.outq.map fun k => k.val) == some q).map fun r => r.qdepth).getD 0,
      some l.seq, []⟩
  | none => ⟨0, none, []⟩

/-- A queue of a core. -/
def State.queue (s : State) (c : Nat) (q : Nat) : Queue := (assocGet (s.core c).queues q).getD (s.freshQueue q)

/-- A queue of a core set. -/
def State.setQueue (s : State) (c q : Nat) (v : Queue) : State :=
  s.setCore c { s.core c with queues := assocSet (s.core c).queues q v }

/-- Entries of a queue number on every core of the package. -/
def State.queueTotal (s : State) (q : Nat) : Nat :=
  (s.cores.map fun p => ((assocGet p.2.queues q).map fun v => v.entries.length).getD 0).sum

/-- Entries of a queue number on the cores of a die. -/
def State.queueDie (s : State) (die q : Nat) : Nat :=
  ((s.cores.filter fun p => p.1 / 64 == die).map fun p =>
    ((assocGet p.2.queues q).map fun v => v.entries.length).getD 0).sum

/-- Whether a stage of a placed launch has ended (R320). -/
def State.stageEnded (s : State) (l : Launch) : Nat → Bool
  | 0 => l.stage0Halted && (s.stageHarts l 0).isEmpty
  | n + 1 =>
    State.stageEnded s l n && (s.stageHarts l (n + 1)).isEmpty &&
      match l.outq n with
      | some q => s.queueTotal q.val == 0
      | none => true

/-- The launch of the current hart. -/
def State.myLaunch (s : State) : Option Launch := s.launch s.hart.ident.seq

/-- OUTQ of the stage before the current hart's (R326). -/
def State.inQueue (s : State) : Option (Fin 64) :=
  if s.hart.ident.stage = 0 then none else s.myLaunch.bind fun l => l.outq (s.hart.ident.stage.val - 1)

/-- OUTQ of the current hart's stage (R326). -/
def State.outQueue (s : State) : Option (Fin 64) := s.myLaunch.bind fun l => l.outq s.hart.ident.stage.val

/-- Whether the stage that feeds the current hart has ended (R320). -/
def State.feedEnded (s : State) : Bool :=
  match s.myLaunch with
  | some l => s.hart.ident.stage != 0 && s.stageEnded l (s.hart.ident.stage.val - 1)
  | none => false

/-- Whether a queue is bound to the current hart's launch. -/
def State.queueBound (s : State) (q : Fin 64) : Bool := (s.queue s.hart.core q.val).launch == some s.hart.ident.seq

/-- The queue check that fails, if any (R326): `push` for QPUSH. -/
def State.queueReason (s : State) (q : Fin 64) (push : Bool) : Option Nat :=
  if !s.queueBound q then some 0x21
  else if push then (if s.outQueue != some q then some 0x22 else none)
  else if s.inQueue != some q then some 0x23 else none

/-- TVAL of a queue error (R326). -/
def queueTval (reason : Nat) (q : Fin 64) : Word := BitVec.ofNat 64 (q.val * 256 + reason)

/-- The checks of a queue instruction, then the strip's commit (R24, R384), then `k`. -/
def State.queueOp (s : State) (q : Fin 64) (push : Bool) (k : State → State) : State :=
  match s.queueReason q push with
  | some r => s.trap 0x14 (queueTval r q)
  | none => k s.commit

/-- Whether a queue of a core holds an error that cannot be corrected (R380). -/
def State.badQueue (s : State) (c : Nat) (q : Fin 64) : Bool := (s.core c).bad.contains (.queue (Fin.ofNat 256 c) q)

/-- The machine check of a queue operation (R380, R381). -/
def State.queueCheck (s : State) : State := s.trap 0x18 (checkTval 6 true false 0)

/-! ### QPUSH -/

/-- QPUSH (R323): it waits while the queue is full. -/
def execQpush (o : QpushOps) (s : State) : Answered :=
  .next (s.scalarAlone 2 [o.w0, o.w1] [] fun s =>
    s.queueOp o.q true fun s =>
      let c := s.hart.core
      let v := s.queue c o.q.val
      if s.badQueue c o.q then s.queueCheck
      else if v.depth ≤ v.entries.length then s.block (.qpush o.q)
      else (s.setQueue c o.q.val { v with entries := v.entries ++ [(s.x o.w0, s.x o.w1)] }).advance)

/-! ### QPOP and QTRYPOP -/

/-- The cores of the die in ring order after core `c` (R324). -/
def ringAfter (c : Nat) : List Nat := (List.range 63).map fun i => c / 64 * 64 + (c + 1 + i) % 64

/-- The core a pop takes from, and whether it steals (R324). -/
def State.popFrom (s : State) (q : Fin 64) : Option (Nat × Bool) :=
  let c := s.hart.core
  if !(s.queue c q.val).entries.isEmpty then some (c, false)
  else ((ringAfter c).find? fun c2 => !(s.queue c2 q.val).entries.isEmpty).map fun c2 => (c2, true)

/-- The status of a pop that takes an entry (R324). -/
def popStatus (c : Nat) (stolen : Bool) : Word := BitVec.ofNat 64 (if stolen then 3 + c % 64 * 256 else 1)

/-- A pop takes an entry of core `c`: the head of the own queue, the tail of another (R324). -/
def State.popTake (s : State) (o : QpopOps) (c : Nat) (stolen : Bool) : State :=
  let v := s.queue c o.q.val
  if s.badQueue c o.q then s.queueCheck
  else
    let (e, rest) :=
      if stolen then ((v.entries.getLast?).getD (0, 0), v.entries.dropLast)
      else ((v.entries.head?).getD (0, 0), v.entries.drop 1)
    let s := ((s.setQueue c o.q.val { v with entries := rest }).acquireAt .d).writeX o.d e.1
    (s.writeX (o.d + 1) e.2).wrote o.st (popStatus c stolen)

/-- The cycle at which the current wait of a QPOP on `q` began, and whether R319 chose it. -/
def State.popWait (s : State) (q : Fin 64) : Nat × Bool :=
  match s.hart.marks.wait with
  | .qpop q' since surplus => if q' = q then (since, surplus) else (s.cycle, false)
  | _ => (s.cycle, false)

/-- QPOP and QTRYPOP (R324). -/
def State.pop2 (s : State) (o : QpopOps) (try_ : Bool) : State :=
  s.scalarAlone 2 [] [o.d, o.d + 1, o.st] fun s =>
    s.queueOp o.q false fun s =>
      match s.popFrom o.q with
      | some (c, stolen) => s.popTake o c stolen
      | none =>
        let (since, surplus) := s.popWait o.q
        if s.feedEnded && s.queueTotal o.q.val == 0 then s.wrote o.st 4
        else if try_ then s.wrote o.st 0
        else if surplus then s.wrote o.st 8
        else s.block (.qpop o.q since false)

/-- QPOP (R324). -/
def execQpop (o : QpopOps) (s : State) : Answered := .next (s.pop2 o false)
/-- QTRYPOP (R324). -/
def execQtrypop (o : QpopOps) (s : State) : Answered := .next (s.pop2 o true)

/-- The state word of a queue (R325). -/
def State.qstatWord (s : State) (q : Fin 64) : Word :=
  if !s.queueBound q then 0
  else
    let v := s.queue s.hart.core q.val
    let ended := match s.myLaunch with
      | some l =>
        match (List.range 8).find? fun n => l.outq n == some q with
        | some n => s.stageEnded l n
        | none => false
      | none => false
    BitVec.ofNat 64
      (2 ^ 63 + bit01 ended * 2 ^ 62 + s.queueDie s.hart.die q.val * 2 ^ 32 + v.depth * 65536 + v.entries.length)

/-- QSTAT (R325): it reads the queue on every core of the die, and consumes an error there (R380). -/
def execQstat (o : QstatOps) (s : State) : Answered :=
  .next (s.scalarAlone 2 [] [o.d] fun s =>
    if s.queueBound o.q && (List.range 64).any fun i => s.badQueue (s.hart.die * 64 + i) o.q then s.commit.queueCheck
    else s.commit.wrote o.d (s.qstatWord o.q))

/-- QPUSH_WAKE (R323): the blocked hart looks again. -/
def execQpushWake (h : HartId) (s : State) : Answered :=
  .next (s.onHart h fun s =>
    match s.hart.marks.wait with
    | .qpush _ => s.block .none
    | _ => s)

/-- QPOP_WAKE (R324): the sleeping hart looks again; its wait is the same one, so it keeps its start. -/
def execQpopWake (h : HartId) (s : State) : Answered :=
  .next (s.onHart h fun s =>
    match s.hart.marks.wait with
    | .qpop q since surplus => s.block (.qpop q since surplus)
    | _ => s)

/-! ### LAUNCH -/

/-- The record address handed to the package scheduler (R311). -/
def State.handOver (s : State) (addr : Word) : State :=
  let r : LaunchReq := ⟨addr, s.hart.xctx.ctxid, 0, some s.hart.ident.id, s.sched.arrivals⟩
  { s with sched := { s.sched with fifo := s.sched.fifo ++ [r], arrivals := s.sched.arrivals + 1 } }

/-- Whether the current hart's LAUNCH is with the scheduler. -/
def State.launching (s : State) : Bool := s.sched.fifo.any fun r => r.hart == some s.hart.ident.id

/-- The answer of the scheduler taken. -/
def State.takeAnswer (s : State) : State := s.withHart fun h => { h with marks := { h.marks with launchAnswer := none } }

/-- LAUNCH (R311): a release of scope .s, the hand-over, and the wait for the scheduler's answer. -/
def execLaunch (d record : XReg) (s : State) : Answered :=
  .next (s.scalarAlone 2 [record] [d] fun s =>
    let a := s.x record
    let s := s.commit
    match s.hart.marks.launchAnswer with
    | some (.inl code) => s.takeAnswer.trap 0x14 (code.setWidth 64)
    | some (.inr seq) => s.takeAnswer.wrote d (BitVec.ofNat 64 (seq % 65536))
    | none =>
      if a.toNat % 256 ≠ 0 ∨ 2 ^ 57 ≤ a.toNat then s.trap 0x14 1
      else if s.launching then s.block .launch
      else (s.handOver a).block .launch)

end Sys2Proof.Machine
end

