-- ==== Sys2Proof/Machine/Hold.lean ====
section
/-! DEFINITION. SEAL and SEALQ (R397 to R400). -/

namespace Sys2Proof.Machine

/-- HOLDGRANT.G of the current hart (R397). -/
def Hart.granted (h : Hart) : Bool := h.ctl.holdgrant.getLsbD 31

/-- HOLDGRANT.NITEM of the current hart (R397). -/
def Hart.nitem (h : Hart) : Nat := h.ctl.holdgrant.toNat / 65536 % 128

/-- The items declared by the current hart's launch (R395). -/
def State.myItems (s : State) : List HoldItem := ((s.myLaunch.bind fun l => l.hold).map fun d => d.items).getD []

/-- MAXLEN of a declared item (R395). -/
def State.itemMax (s : State) (i : Nat) : Nat := ((s.myItems[i]?).map fun t => t.maxlen).getD 0

/-- The reason of the cause 0x05 of a hold instruction (R398); `len` for SEAL. -/
def State.holdReason (s : State) (i : Word) (len : Option Word) : Option Word :=
  if !s.hart.granted then some 0x08
  else if s.hart.nitem ≤ i.toNat then some 0x09
  else
    match len with
    | some n => if n.toNat % 64 ≠ 0 ∨ s.itemMax i.toNat < n.toNat then some 0x0A else none
    | none => none

/-- A hold instruction (R56, R398): its registers' waits, an empty VIQ, its checks, its class, then `k`. -/
def State.holdOp (s : State) (reads writes : List XReg) (i : Word) (len : Option Word) (k : State → State) : State :=
  if (reads ++ writes).any s.hart.pendingX || !s.hart.viq.isEmpty then s.stall
  else
    match s.holdReason i len with
    | some r => s.trap 0x05 r
    | none => s.scalarAlone 3 reads writes k

/-- Item `i` of a declaration with its length recorded (R399). -/
def HoldDecl.setLen (d : HoldDecl) (i n : Nat) : HoldDecl :=
  { d with items := d.items.zipIdx.map fun p => if p.2 = i then { p.1 with len := n } else p.1 }

/-- The effect of SEAL once the copies have landed (R399): the length is recorded, and inside a power-fail window the
hart is marked sealed. -/
def State.sealItem (s : State) (i n : Nat) : State :=
  let s := s.updateLaunch s.hart.ident.seq fun l => { l with hold := l.hold.map fun d => d.setLen i n }
  s.withHart fun h => { h with marks := { h.marks with sealed := h.marks.sealed || s.power.window } }

/-- SEAL (R399): it waits for the chunks of every copy that is not suspended, and for those that were being read when one
failed (R269). -/
def execSeal (item length : XReg) (s : State) : Answered :=
  .next (s.holdOp [item, length] [] (s.x item) (some (s.x length)) fun s =>
    let i := (s.x item).toNat
    let n := (s.x length).toNat
    let s := s.commit
    if s.hart.copies.all fun c => c.copy.landed || (c.copy.failure.isSome && c.copy.inFlight.isEmpty) then (s.sealItem i n).advance else s.stall)

/-- What SEALQ reads of an item (R400). -/
def RestoredItem.word (r : RestoredItem) : Word :=
  BitVec.ofNat 64
    (r.len % 2 ^ 29 * 2 ^ 32 + bit01 r.restored * 16 + bit01 r.poison * 8 + bit01 r.fault * 4 + r.cls.val)

/-- The word of item `i` of the current hart's launch; 0 when it claimed no saved set (R400). -/
def State.sealqWord (s : State) (i : Nat) : Word :=
  ((s.myLaunch.bind fun l => l.restored[i]?).map RestoredItem.word).getD 0

/-- SEALQ (R400). -/
def execSealq (d item : XReg) (s : State) : Answered :=
  .next (s.holdOp [item] [d] (s.x item) none fun s => s.wrote d (s.sealqWord (s.x item).toNat))

end Sys2Proof.Machine
end

