-- ==== Sys2Proof/Machine/Save.lean ====
section
/-! DEFINITION. Event records (R390), saves (R332 to R336, R270, R276, R304) and restores of single harts (R337, R345),
and the room that cores have (R12, R314). -/

namespace Sys2Proof.Machine

/-! ### The units of the package as requesters -/

/-- The scheduler and the hold-up engine as a party of class core, for a context (R356). -/
def State.unit (s : State) (ctx : BitVec 16) : Requester := ⟨0, ctx, s.pkg, 0⟩

/-- Size of the event ring in records (R415). -/
def ringSize (evring : Word) : Nat := 256 * 2 ^ (evring.toNat % 16)

/-- An event record appended to the runtime event ring (R390, R415): its cause, context and hart number, and word 1. -/
def State.appendEvent (s : State) (cause : Nat) (ctx : BitVec 16) (n : Nat) (w1 : Word) : State :=
  let size := ringSize s.fdie.evring
  let i := s.fdie.evNext
  let pa := s.fdie.evring.toNat % 2 ^ 57 / 4096 * 4096 + 16 * (i % size)
  let bs := natBytes 8 (n * 2 ^ 32 + ctx.toNat * 65536 + cause) ++ natBytes 8 w1.toNat
  let s := match s.physCheck (s.unit ctx) .store pa with
    | (s, .bytes _ _) => s.physWrite (s.unit ctx) pa bs
    | (s, _) => s
  let wraps := if (i + 1) % size = 0 then min (s.fdie.evWraps + 1) (2 ^ 32 - 1) else s.fdie.evWraps
  { s with fdie := { s.fdie with evNext := (i + 1) % 2 ^ 32, evWraps := wraps } }

/-! ### The form of a saved hart -/

/-- Vector registers outside a live set read 0 after the restore (R332). -/
def keepLive (live : BitVec 64) (vrf : Mem) : Mem :=
  (List.range 64).foldl (fun m r => if live.getLsbD r then m else dropReg m r) vrf

/-- An entry as it is saved: its progress in elements of the tile (R17, R334). -/
def VEntry.toElems (e : VEntry) (lw : Nat) : VEntry := { e with skip := max e.skip (groupsToElems lw e.vl e.done) }

/-- An entry as it is restored on a core: its progress in whole groups, and the elements done beyond them (R17, R334). -/
def VEntry.toGroups (e : VEntry) (lw : Nat) : VEntry := { e with done := elemsToGroups lw e.vl e.skip }

/-- The entries of a hart that work group by group changed. -/
def Hart.mapProgress (h : Hart) (f : VEntry → VEntry) : Hart :=
  { h with viq := h.viq.map fun q => if h.groupwise q.e.instr then { q with e := f q.e } else q }

/-- A strip whose auto-close count changes between a cycle and a number of cycles: it stands still while the hart is saved
(R338). -/
def Strip.recount (now : Nat) (t : Strip) : Strip := { t with since := now - t.since }

/-- A hart as its save records it (R263, R332 to R334, R338): progress is held in elements, fetched stream elements, weight
data and registers that are not live are dropped with what was wrong with them, the counts of its strips stand still. -/
def Hart.savedForm (h : Hart) (lw now : Nat) : Hart :=
  let live := h.marks.savedLive.getD (BitVec.allOnes 64)
  let h := h.mapProgress fun e => e.toElems lw
  { h with
    vrf := keepLive live h.vrf
    streams := h.streams.map fun q => q.map fun t => { t with fetched := [], again := true }
    weights := h.weights.map fun w => { w with stale := w.valid, values := [], scales := [] }
    strip := h.strip.map (Strip.recount now)
    closing := h.closing.map (Strip.recount now)
    ctl := { h.ctl with preqReq := false, preqLeft := 0 }
    marks := { h.marks with
      wait := .none, saving := false, savedLive := none, forced := false
      badRegs := h.marks.badRegs.filter fun b =>
        !((List.finRange 2).any fun i => b == .weightSlot h.ident.id i && h.weights[i].valid) &&
          !((List.finRange 64).any fun r => b == .vectorRegister h.ident.id r && !live.getLsbD r.val) } }

/-- The place of an error that travels with a hart. -/
def movePlace (id : HartId) : ErrorPlace → ErrorPlace
  | .vectorRegister _ r => .vectorRegister id r
  | .weightSlot _ n => .weightSlot id n
  | .scalarRegister _ r => .scalarRegister id r
  | .maskRegister _ m => .maskRegister id m
  | .callStack _ => .callStack id
  | .storeBuffer _ => .storeBuffer id
  | p => p

/-- A saved hart restored at a place (R332, R337): progress and VRESUME count the groups of its new core. -/
def Hart.restoredForm (h : Hart) (id : HartId) (lw now : Nat) : Hart :=
  let h := h.mapProgress fun e => e.toGroups lw
  let at_ := h.v.vresumeAt.map fun r => r.restored lw h.v.vl
  { h with
    ident := { h.ident with id := id }
    v := { h.v with vresume := (at_.map fun r => r.groups).getD h.v.vresume, vresumeAt := at_ }
    strip := h.strip.map (Strip.recount now)
    closing := h.closing.map (Strip.recount now)
    marks := { h.marks with migrating := none, badRegs := h.marks.badRegs.map (movePlace id) } }

/-! ### Beginning and completing a save -/

/-- A hart's record address withdrawn from the scheduler: its LAUNCH is executed again after the restore (R311, R333). -/
def State.withdraw (s : State) (h : HartId) : State :=
  { s with sched := { s.sched with fifo := s.sched.fifo.filter fun r => r.hart != some h } }

/-- A hart leaves the package: its slot is free. -/
def State.unplace (s : State) (h : HartId) : State :=
  { s with
    hart := if s.hart.ident.id = h then { s.hart with marks := { s.hart.marks with halted := true } } else s.hart
    others := s.others.filter fun k => k.ident.id != h }

/-- Whether an active element of a vector memory instruction lies on an SO page (R236). -/
def State.touchesSo (s : State) (e : VEntry) : Bool :=
  match memShape e.instr with
  | some (m, _) =>
    (s.elemsFrom { e with skip := 0 } m 0).any fun x =>
      match s.locateAt e.level .load x.va with
      | (_, .ok (_, kind)) => kind == .so
      | _ => false
  | none => false

/-- Whether an entry that has begun is completed before a save: its recheck is to be resolved (R206), or it is a sequence of
SO accesses (R236). -/
def State.completesFirst (s : State) (q : VSlot) : Bool :=
  q.e.begun && (q.r.phase == .held || (0 < q.e.done && s.touchesSo q.e))

/-- A forced save of the current hart begins (R334): what may retire does, an entry that cannot stop at its group boundary is
completed, the others stand there, and no copy issues a further chunk (R270). -/
def State.beginForced (s : State) : State :=
  let s := State.retireReady s.hart.viq.length s
  let s := match s.hart.working with
    | some q => if s.completesFirst q then s.workEntry false q else s
    | none => s
  (State.retireReady s.hart.viq.length s).beginSave (BitVec.allOnes 64)

/-- Whether an MMA of a hart has begun and not retired: a save waits for it (R178). A removed hart's has no effect any more
(R389). -/
def Hart.matrixBegun (h : Hart) : Bool := !h.marks.removed && h.viq.any fun q => usesGrid q.e.instr && q.e.begun

/-- Whether a save may complete: every chunk whose source was read has been written (R270), no recheck is open (R206), and no MMA
has begun (R178). -/
def Hart.saveReady (h : Hart) : Bool :=
  h.marks.saving && h.copies.all (fun c => c.copy.inFlight.isEmpty) && !(h.viq.any fun q => q.r.phase == .held) &&
    !h.matrixBegun

/-- The save of a hart completes (R336): its slot is free, and its launch holds it, or firmware a test kernel (R215); a launch
with no placed hart left is saved. The runtime is told of a forced one, with the VIQ entries saved (R334, R390). -/
def State.completeSave (s : State) (h : HartId) : State :=
  match s.findHart h with
  | none => s
  | some k =>
    if !k.saveReady then s
    else
      let lw := s.lanesFor k k.core
      let s := if k.marks.forced then
          s.appendEvent 0x11 k.xctx.ctxid (s.hartNumber k) (BitVec.ofNat 64 k.viq.length) else s
      let s := ((s.leaveUnsealed k).withdraw h).unplace h
      if k.marks.test.isSome then { s with savedTests := s.savedTests ++ [k.savedForm lw s.cycle] }
      else
        let s := s.updateLaunch k.ident.seq fun l =>
          if l.phase = .removing then l else { l with savedHarts := l.savedHarts ++ [k.savedForm lw s.cycle] }
        s.settleSaved k.ident.seq

/-- SAVE_COMPLETION (R336). -/
def execSaveCompletion (h : HartId) (s : State) : Answered := .next (s.completeSave h)

/-! ### Saving a waiting hart -/

/-- The vector-class waits (R304, R333). -/
def waitsVector : VInstr → Bool
  | .cmwait _ => true
  | .xsend _ _ => true
  | .xclose _ => true
  | .xfloor _ => true
  | .xrecv _ => true
  | .xsplit _ => true
  | _ => false

/-- Whether the oldest VIQ entry of the current hart is in a wait (R333). -/
def State.headWaits (s : State) : Bool :=
  match s.hart.viq.head? with
  | some q =>
    !q.e.complete && waitsVector q.e.instr && !s.hart.marks.removed &&
      match s.attempt q false with
      | (_, some .wait) => true
      | _ => false
  | none => false

/-- Whether a wait is one of the scalar side's (R333, R372). -/
def Wait.scalarSide : Wait → Bool
  | .waitm _ => true
  | .gate _ => true
  | .qpush _ => true
  | .qpop _ _ _ => true
  | .launch => true
  | _ => false

/-- Whether the current hart is blocked in a scalar-side wait. -/
def Hart.scalarWait (h : Hart) : Bool := h.marks.wait.scalarSide && h.viq.isEmpty && h.marks.launchAnswer.isNone

/-- The save of a hart at a scalar-side wait (R333): the strip commits, every configured register is live. -/
def State.saveAtScalarWait (s : State) : State := s.commit.beginSave (BitVec.allOnes 64)

/-- Whether the current hart is asked to yield and waits (R333). -/
def State.mustSave (s : State) : Bool :=
  s.hart.ctl.preqReq && !s.hart.marks.saving && (s.hart.scalarWait || s.headWaits)

/-- A hart with REQ set that waits is saved without yielding (R333). -/
def State.saveIfWaiting (s : State) : State :=
  if !s.mustSave then s
  else if s.hart.scalarWait then s.saveAtScalarWait
  else if s.headWaits then s.beginForced
  else s

/-- A hart of a launch resumes at the instruction its trap addresses, as the runtime leaves it (R211). -/
def Hart.leaveHandler (h : Hart) : Hart :=
  { h with
    scalar := { h.scalar with pc := h.trap.tpc, level := if h.trap.spl then .s else .u }
    trap := { h.trap with inTrap := false, pmask := false }
    marks := { h.marks with resuming := true } }

/-- Whether a launch may be migrated (R26, R211). -/
def State.mayMigrate (s : State) (seq : Nat) : Bool := ((s.launch seq).map fun l => l.record.migrate).getD false

/-- The forced save of a hart whose LEFT has reached 0 (R334); the runtime is told with cause 0x11 when the save completes. -/
def State.forceSave (s : State) (h : HartId) : State :=
  s.onHart h fun s => s.beginForced.withHart fun h => { h with marks := { h.marks with forced := true } }

/-- FORCED_SAVE (R211, R334): LEFT has reached 0 while REQ is set, and the runtime is told with cause 0x11; or the runtime
migrates a hart that trapped with cause 0x03. -/
def execForcedSave (h : HartId) (s : State) : Answered :=
  .next (s.onHart h fun s =>
    if s.hart.marks.saving then s
    else if s.hart.ctl.preqReq && s.preqLeft s.hart == 0 then s.forceSave h
    else if s.hart.trap.inTrap && s.hart.trap.cause == 3 && s.mayMigrate s.hart.ident.seq then
      let cls := s.hart.trap.tval.toNat
      (s.beginForced).withHart fun h =>
        { h.leaveHandler with marks := { h.leaveHandler.marks with migrating := some cls } }
    else s)

/-! ### Room on cores -/

/-- What is free on a core: words per lane of its VRF, hart slots, and the classes it runs (R12, R314). -/
structure CoreRoom where
  core : Nat
  words : Nat
  free : List Nat
  cap : BitVec 23
deriving DecidableEq, Repr

/-- The room of a core for launches when the harts of `gone` are away: test kernels give up their slots (R215, R315). -/
def State.room (s : State) (gone : Hart → Bool) (c : Nat) : CoreRoom :=
  let hs := s.placed.filter fun h => h.core == c && !gone h && h.marks.test.isNone
  ⟨c, 8192 - (hs.map fun h => shareWords h.v.share).sum,
    (List.range 4).filter fun i => !(hs.any fun h => h.slot == i), (s.core c).cap⟩

/-- Whether harts may be placed on a core: it is online, and neither marked for retirement nor lent to a test (R210, R314). -/
def State.coreTakes (s : State) (c : Nat) : Bool := s.coreOnline c && (s.core c).marked == 0

/-- The room of every core that takes harts, by core number. -/
def State.rooms (s : State) (gone : Hart → Bool) : List CoreRoom :=
  if s.coresOn then ((List.range 256).filter s.coreTakes).map (s.room gone) else []

/-- Whether a core takes a hart of a use mask and share (R196, R314). -/
def CoreRoom.takes (r : CoreRoom) (use : BitVec 32) (words : Nat) : Bool :=
  (use &&& ~~~(r.cap.setWidth 32)) == 0 && decide (words ≤ r.words) && !r.free.isEmpty

/-- Free slots of a die's cores in a list. -/
def dieFree (rs : List CoreRoom) (d : Nat) : Nat := ((rs.filter fun r => r.core / 64 == d).map fun r => r.free.length).sum

/-- The die with the most free slots, the lower number on a tie (R314). -/
def bestDie (rs : List CoreRoom) : Nat :=
  (List.range 4).foldl (fun b d => if dieFree rs b < dieFree rs d then d else b) 0

/-- The core that R314 takes for a hart, among those with `p`. -/
def pickCore (rs : List CoreRoom) (use : BitVec 32) (words : Nat) (p : CoreRoom → Bool) : Option CoreRoom :=
  let es := rs.filter fun r => r.takes use words && p r
  es.find? fun r => r.core / 64 == bestDie es

/-- A slot of a core taken. -/
def takeSlot (rs : List CoreRoom) (core slot words : Nat) : List CoreRoom :=
  rs.map fun r => if r.core = core then { r with words := r.words - words, free := r.free.filter fun i => i ≠ slot } else r

/-- The lowest free slot of a core, as a hart. -/
def CoreRoom.next (r : CoreRoom) : HartId := Fin.ofNat 1024 (4 * r.core + r.free.head?.getD 0)

/-- Places for `n` harts of a use mask and share, in order (R314). -/
def placeStage (use : BitVec 32) (words : Nat) : Nat → List CoreRoom → Option (List HartId × List CoreRoom)
  | 0, rs => some ([], rs)
  | n + 1, rs =>
    match pickCore rs use words fun _ => true with
    | none => none
    | some r =>
      match placeStage use words n (takeSlot rs r.core (r.next.val % 4) words) with
      | none => none
      | some (ids, rs) => some (r.next :: ids, rs)

/-- Places for the HMIN harts of every stage (R29, R313). -/
def placeStages : List StageRec → List CoreRoom → Option (List (List HartId))
  | [], _ => some []
  | st :: rest, rs =>
    match placeStage st.usemask (shareWords st.share) st.hmin rs with
    | none => none
    | some (ids, rs) => (placeStages rest rs).map fun more => ids :: more

/-! ### Places for saved harts -/

/-- Lanes of a core for the harts of launches (R16). -/
def State.lanesOf (s : State) (c : Nat) : Nat := max 8 (s.core c).lw

/-- Whether the registers that a saved VIQ entry names pass R14 on a core's lanes: at its widths, and for a matrix instruction at
its operands' tiles (R14, R18, R173, R190). -/
def VEntry.fitsLanes (e : VEntry) (words lw : Nat) : Bool :=
  match e.instr with
  | .mma df o => ((MmaOps.kind o).map fun kd => !mmaTilesFail (tileFits lw words) e.vl df o e.mshape kd).getD true
  | .mdrain _ o => !mdrainTilesFail (tileFits lw words) e.mshape o
  | i => (vtiles i).all fun b => tileFits lw words b e.vrows e.vl

/-- Whether the saved VIQ entries of a hart fit a core's lanes (R18). -/
def Hart.fitsLanes (h : Hart) (lw : Nat) : Bool :=
  h.viq.all fun q => q.e.fitsLanes { h.v with nvCode := q.e.nvCode }.words lw

/-- Whether a saved hart holds a role in a round that is not IDLE (R304). -/
def State.holdsRole (s : State) (h : Hart) : Bool := s.rounds.any fun r => r.holds h

/-- Whether the slot of a saved hart is free with the shares held beside it leaving no room for the hart's own (R12). While
another hart holds the slot the rounds stand, whatever its share (R304, log entry 77). -/
def State.shareLost (s : State) (h : Hart) : Bool :=
  let r := s.room (fun _ => false) h.core
  r.free.contains h.slot && decide (r.words < shareWords h.v.share)

/-- Whether the slot of a saved hart with an exchange role can never take it again (R304): its core is offline, no longer covers
USE, or no longer passes R12 or R18. -/
def State.slotLost (s : State) (h : Hart) : Bool :=
  !s.coreOnline h.core || (h.ctl.usemask &&& ~~~((s.core h.core).cap.setWidth 32)) != 0 || s.shareLost h ||
    !h.fitsLanes (s.lanesOf h.core)

/-- The rounds of saved harts whose slot is lost, aborted (R304). -/
def State.abortLost (s : State) (hs : List Hart) : State :=
  hs.foldl (fun t h => if t.slotLost h then t.abortRoundsOf h else t) s

/-- The place of one saved hart (R304, R337): its own slot when it holds a role and the slot can still take it, else by R314. -/
def State.placeOf (s : State) (rs : List CoreRoom) (h : Hart) : Option HartId :=
  let words := shareWords h.v.share
  if s.holdsRole h && !s.slotLost h then
    (rs.find? fun r => r.core == h.core && r.takes h.ctl.usemask words && r.free.contains h.slot).map fun _ => h.ident.id
  else (pickCore rs h.ctl.usemask words fun r => h.fitsLanes (s.lanesOf r.core)).map CoreRoom.next

/-- Places for all saved harts of a list, one after another (R337): the order, those with an exchange role first and then as they
were saved, is the model's choice (log entry 86). -/
def State.placeSaved (s : State) : List Hart → List CoreRoom → Option (List (Hart × HartId))
  | [], _ => some []
  | h :: rest, rs =>
    match s.placeOf rs h with
    | none => none
    | some id =>
      (s.placeSaved rest (takeSlot rs (id.val / 4) (id.val % 4) (shareWords h.v.share))).map fun l => (h, id) :: l

/-- Saved harts with those that hold a role first. -/
def State.rolesFirst (s : State) (hs : List Hart) : List Hart :=
  hs.filter (s.holdsRole ·) ++ hs.filter fun h => !s.holdsRole h

/-- Whether a test kernel's hart must give up its place for hart `h`: the slot is the same, or the core's VRF cannot hold both
(R12, R215). -/
def State.yieldsTo (s : State) (h k : Hart) : Bool :=
  k.marks.test.isSome && k.core == h.core && (k.ident.id == h.ident.id ||
    decide (8192 < ((s.placed.filter fun j => j.core == h.core).map fun j => shareWords j.v.share).sum + shareWords h.v.share))

/-- A hart enters the package behind the others; a test kernel that is in its way is saved, what its save waits for being done
first (R178, R215, R270). -/
def State.addHart (s : State) (h : Hart) : State :=
  let ids := (s.placed.filter (s.yieldsTo h)).map fun k => k.ident.id
  let s := ids.foldl (fun t id => t.onHart id fun s => s.beginForced.landAll) s
  let gone := ids.filterMap s.findHart
  let s := ids.foldl State.unplace s
  { s with others := s.others ++ [h], savedTests := s.savedTests ++ gone.map fun k => k.savedForm 8 s.cycle }

/-- One saved hart restored at a place; the restore of a migrated hart is recorded (R211, R214, R390), and it reads no copy
older than what it read before (R337). -/
def State.restoreHart (s : State) (h : Hart) (id : HartId) : State :=
  let k := h.restoredForm id (s.lanesOf (id.val / 4)) s.cycle
  let s := (s.addHart k).dropRemote (id.val / 4)
  match h.marks.migrating with
  | some c => s.appendEvent 3 h.xctx.ctxid (s.hartNumber k) (BitVec.ofNat 64 c)
  | none => s

end Sys2Proof.Machine
end

