-- ==== Sys2Proof/Machine/Sched.lean ====
section
/-! DEFINITION. The package scheduler: records and their validation (R26 to R29, R41, R343, R395, R396), and the answer to
a port or a LAUNCH (R34, R36, R311, R312). -/

namespace Sys2Proof.Machine

/-! ### Reading on behalf of a context -/

/-- A little-endian field of some bytes. -/
def leField (bs : List Byte) (off n : Nat) : Nat := leNat ((bs.drop off).take n)

/-- Bytes read through a context's tables by the scheduler (R28), at U (the model's choice, log entry 80); none on a translation or
access fault, nor where they are poisoned:
R380 names no scheduler among those that consume an error, and the model has such bytes as bytes that cannot be read (the model's
choice, log entry 74). -/
def State.readContext (s : State) (xc : XlateCtx) (va n : Nat) : State × Option (List Byte) :=
  match s.translate (s.unit xc.ctxid) xc .u .load va with
  | (s, .error _) => (s, none)
  | (s, .ok (pa, _)) =>
    match s.physRead (s.unit xc.ctxid) .load pa n none with
    | (s, .bytes bs none) => (s, some bs)
    | (s, _) => (s, none)

/-- The context descriptor of a CTXID; none where it is not valid (R343), or poisoned (log entry 74). -/
def State.descriptor (s : State) (ctx : BitVec 16) : State × Option XlateCtx :=
  if !s.fdie.ctxtab.getLsbD 0 then (s, none)
  else
    let pa := s.fdie.ctxtab.toNat % 2 ^ 57 / 2 ^ 21 * 2 ^ 21 + 32 * ctx.toNat
    match s.physRead (s.unit ctx) .load pa 32 none with
    | (s, .bytes bs none) =>
      let root := leField bs 0 8
      let str := leField bs 8 8
      if leField bs 0x10 4 ≠ 1 ∨ leField bs 0x14 12 ≠ 0 ∨ 2 ^ 57 ≤ root ∨ root % 32 ≠ 0 ∨ 2 ^ 57 ≤ str ∨
          str % 4096 / 2 ≠ 0 then (s, none)
      else (s, some ⟨ctx, BitVec.ofNat 64 root, BitVec.ofNat 64 str⟩)
    | (s, _) => (s, none)

/-- The context descriptor of a launch: none where R343 refuses it, as it does the context of test kernels. -/
def State.readDescriptor (s : State) (ctx : BitVec 16) : State × Option XlateCtx :=
  if ctx == 0xFFFF then (s, none) else s.descriptor ctx

/-! ### Launch records -/

/-- A stage entry (R27). -/
def parseStage (bs : List Byte) : StageRec where
  entry := BitVec.ofNat 64 (leField bs 0 8)
  usemask := BitVec.ofNat 32 (leField bs 8 4)
  hmin := leField bs 0x0C 2
  hmax := leField bs 0x0E 2
  outq := if leField bs 0x10 1 < 64 then some (Fin.ofNat 64 (leField bs 0x10 1)) else none
  qdepth := leField bs 0x11 1 + 1
  share := Fin.ofNat 4 (leField bs 0x12 1)

/-- Whether a stage entry has a reserved bit or value, or a depth without a queue (R27, R28). -/
def stageReserved (bs : List Byte) : Bool :=
  decide (2 ^ 57 ≤ leField bs 0 8) || leField bs 0 8 / 32 % 2 == 1 || decide (2 ^ 23 ≤ leField bs 8 4) ||
    (decide (64 ≤ leField bs 0x10 1) && leField bs 0x10 1 != 0xFF) ||
    (leField bs 0x10 1 == 0xFF && leField bs 0x11 1 != 0) || decide (4 ≤ leField bs 0x12 1) || leField bs 0x13 5 != 0

/-- Whether a header has a reserved bit or value (R26). A DONEPTR that is not 16-byte aligned counts as one, which is the model's
choice: R26 only says that it is aligned (log entry 15). -/
def headerReserved (bs : List Byte) : Bool :=
  decide (8 ≤ leField bs 3 1) || decide (8 ≤ leField bs 4 4) || leField bs 4 4 / 2 % 4 == 3 || leField bs 0x1C 4 != 0 ||
    leField bs 0x30 16 != 0 || leField bs 0x20 8 % 16 != 0

/-- The stage entries in the bytes that follow a header. -/
def stageBytes (bs : List Byte) (n : Nat) : List (List Byte) := (List.range n).map fun i => (bs.drop (24 * i)).take 24

/-- The OUTQ numbers that stages name. -/
def outqs (l : List StageRec) : List (Fin 64) := l.filterMap fun r => r.outq

/-- A launch record of a header and its stage entries (R26). -/
def parseRecord (bs : List Byte) (stages : List (List Byte)) : LaunchRec where
  prio := Fin.ofNat 8 (leField bs 3 1)
  migrate := leField bs 4 4 % 2 == 1
  rchk := Fin.ofNat 3 (leField bs 4 4 / 2 % 4)
  argptr := BitVec.ofNat 64 (leField bs 8 8)
  pdeadl := BitVec.ofNat 32 (if leField bs 0x18 4 = 0 then 200000 else leField bs 0x18 4)
  doneptr := BitVec.ofNat 64 (leField bs 0x20 8)
  doneval := BitVec.ofNat 64 (leField bs 0x28 8)
  stages := stages.map parseStage

/-- HMIN and HMAX out of order (R28). -/
def harmed (r : StageRec) : Bool := r.hmin == 0 || decide (r.hmax < r.hmin) || decide (1024 < r.hmax)

/-! ### Must-save declarations -/

/-- One item of a declaration (R395). -/
def parseItem (bs : List Byte) : HoldItem :=
  ⟨BitVec.ofNat 64 (leField bs 0 8), leField bs 8 8, BitVec.ofNat 32 (leField bs 0x10 4), 0⟩

/-- Whether an item is out of range or has a reserved field (R395). -/
def itemReserved (bs : List Byte) : Bool :=
  leField bs 0 8 % 64 != 0 || decide (2 ^ 57 ≤ leField bs 0 8) || leField bs 8 8 % 64 != 0 || leField bs 8 8 == 0 ||
    decide (0x1BFFFFC0 < leField bs 8 8) || leField bs 0x14 12 != 0

/-- The bytes of `n` items from an address. -/
def State.readItems (xc : XlateCtx) : Nat → Nat → State → State × Option (List (List Byte))
  | 0, _, s => (s, some [])
  | n + 1, va, s =>
    match s.readContext xc va 32 with
    | (s, none) => (s, none)
    | (s, some bs) =>
      match State.readItems xc n (va + 32) s with
      | (s, some more) => (s, some (bs :: more))
      | r => r

/-- Units that items ask for (R396). -/
def unitsOf (items : List HoldItem) : Nat := (items.map fun i => itemUnits i.maxlen).sum

/-- The declaration at SAVEPTR: none when there is none, an ERRCODE when it is refused (R396). -/
def State.readDecl (s : State) (xc : XlateCtx) (ptr : Nat) : State × Except Nat (Option HoldDecl) :=
  if ptr = 0 then (s, .ok none)
  else if ptr % 64 ≠ 0 then (s, .error 0x05)
  else
    match s.readContext xc ptr 64 with
    | (s, none) => (s, .error 0x02)
    | (s, some bs) =>
      let n := leField bs 2 1
      if leField bs 0 2 ≠ 1 ∨ n = 0 ∨ 64 < n ∨ leField bs 3 1 ≠ 0 ∨ leField bs 8 8 = 0 ∨ leField bs 0x10 48 ≠ 0 then
        (s, .error 0x05)
      else
        match State.readItems xc n (ptr + 64) s with
        | (s, none) => (s, .error 0x02)
        | (s, some its) =>
          let items := its.map parseItem
          if its.any itemReserved || unitsOf items != leField bs 4 4 then (s, .error 0x05)
          else (s, .ok (some ⟨leField bs 4 4, BitVec.ofNat 64 (leField bs 8 8), items⟩))

/-! ### Validation -/

/-- The room of the idle package, with class mxf64 present until every die is in full service (R28, R417). -/
def State.idleRooms (s : State) : List CoreRoom :=
  ((List.range 256).filter s.coreOnline).map fun c =>
    ⟨c, 8192, [0, 1, 2, 3], if s.power.full = 0xF then (s.core c).cap else (s.core c).cap ||| BitVec.ofNat 23 (2 ^ 13)⟩

/-- Whether a record's priority is one that its sender may ask for (R28, R311). -/
def State.prioAllowed (s : State) (r : LaunchReq) (p : Fin 8) : Bool :=
  match r.hart with
  | none => p == r.prio
  | some h => ((s.findHart h).map fun k => decide (p ≤ k.ctl.prio)).getD false

/-- What the reasons after 0x04 decide of a record whose parts are read (R28). -/
def State.judgeParts (s : State) (r : LaunchReq) (xc : XlateCtx) (hd : List Byte) (sts : List (List Byte)) :
    State × Except Nat (LaunchRec × Option HoldDecl) :=
  let rec_ := parseRecord hd sts
  if !s.prioAllowed r (Fin.ofNat 8 (leField hd 3 1 % 8)) then (s, .error 0x09)
  else if headerReserved hd || sts.any stageReserved || !decide (outqs rec_.stages).Nodup then (s, .error 0x05)
  else if rec_.stages.any harmed then (s, .error 0x06)
  else
    match s.readDecl xc (leField hd 0x10 8) with
    | (s, .error e) => (s, .error e)
    | (s, .ok d) =>
      if (placeStages rec_.stages s.idleRooms).isNone then (s, .error 0x07)
      else if (d.map fun q => decide (s.holdup.capunits < q.units)).getD false then (s, .error 0x0B)
      else (s, .ok (rec_, d))

/-- The validation of a record (R28): its header, its context descriptor, its stage entries, then the rest. -/
def State.judge (s : State) (r : LaunchReq) : State × Except Nat (LaunchRec × Option HoldDecl × XlateCtx) :=
  match s.readDescriptor r.ctx with
  | (s, none) => (s, .error 0x02)
  | (s, some xc) =>
    match s.readContext xc r.addr.toNat 64 with
    | (s, none) => (s, .error 0x02)
    | (s, some hd) =>
      let n := leField hd 2 1
      if leField hd 0 2 ≠ 1 then (s, .error 0x03)
      else if n = 0 ∨ 8 < n then (s, .error 0x04)
      else
        match s.readContext xc (r.addr.toNat + 0x40) (24 * n) with
        | (s, none) => (s, .error 0x02)
        | (s, some bs) =>
          match s.judgeParts r xc hd (stageBytes bs n) with
          | (s, .error e) => (s, .error e)
          | (s, .ok (q, d)) => (s, .ok (q, d, xc))

/-- A launch accepted (R41, R312): it gets the next sequence number and joins the placement queue, and no ordered copy of a
remote line, code included, is older than it. -/
def State.acceptLaunch (s : State) (q : LaunchRec) (d : Option HoldDecl) (xc : XlateCtx) : State :=
  let l : Launch :=
    { seq := s.sched.nextSeq, ctxid := xc.ctxid, record := q, hold := d, ptroot := xc.ptroot, strbase := xc.strbase
      slot := none, restored := [], holdgrant := 0, pfstat := 0, phase := .queued, stage0Halted := false, discarded := 0, removal := none
      savedHarts := [] }
  { s.dropEveryCopy with sched := { s.sched with nextSeq := s.sched.nextSeq + 1, launches := s.sched.launches ++ [l] } }

/-- The scheduler's answer to a hart that waits in LAUNCH (R311). -/
def State.answer (s : State) (h : HartId) (a : Sum (BitVec 8) Nat) : State :=
  s.mapHarts fun k =>
    if k.ident.id = h && !k.marks.halted then { k with marks := { k.marks with launchAnswer := some a } } else k

/-! ### Taking a record -/

/-- The earlier of two requests. -/
def earlier (a b : Option LaunchReq) : Option LaunchReq :=
  match a, b with
  | some x, some y => if y.arrival < x.arrival then b else a
  | none, _ => b
  | _, none => a

/-- The oldest address of the highest-priority FIFO that holds one (R29). -/
def State.portHead (s : State) : Option LaunchReq :=
  (List.range 8).reverse.findSome? fun p => s.sched.fifo.find? fun r => r.hart.isNone && r.prio.val == p

/-- The record that the scheduler takes next (R29, R311): none while 256 accepted launches wait, or where it does not
work (R367, R401, R419). -/
def State.nextRecord (s : State) : Option LaunchReq :=
  if !s.coresOn || !s.power.bootOk || s.power.endgame || decide (256 ≤ (s.sched.launches.filter fun l => l.phase == .queued).length) then none
  else earlier s.portHead (s.sched.fifo.find? fun r => r.hart.isSome)

/-- A rejection (R34, R36, R311). -/
def State.reject (s : State) (r : LaunchReq) (code : Nat) : State :=
  match r.hart with
  | none => s.rejectPort r.prio (BitVec.ofNat 8 code)
  | some h => s.answer h (.inl (BitVec.ofNat 8 code))

/-- An acceptance told to the hart that launched (R311). -/
def State.accepted (s : State) (r : LaunchReq) (seq : Nat) : State :=
  match r.hart with
  | none => s
  | some h => s.answer h (.inr seq)

/-- A record read and decided (R28, R29). -/
def State.decideRecord (s : State) (r : LaunchReq) : State :=
  let s := { s with sched := { s.sched with fifo := s.sched.fifo.filter fun q => q.arrival ≠ r.arrival } }
  match s.judge r with
  | (s, .error c) => s.reject r c
  | (s, .ok (q, d, xc)) => (s.acceptLaunch q d xc).accepted r s.sched.nextSeq

/-- SCHEDULER_TAKE_RECORD (R29). -/
def execSchedulerTakeRecord (s : State) : Answered :=
  .next (match s.nextRecord with
    | some r => s.decideRecord r
    | none => s)

end Sys2Proof.Machine
end

