-- ==== Sys2Proof/Machine/Place.lean ====
section
/-! DEFINITION. Placement (R30, R313, R314, R425), hold-up grants and claims (R396, R397, R407, R408), pre-emption (R331),
restores (R337), growth and shrinking (R317 to R319), completion and removal (R31, R320, R389, R390). -/

namespace Sys2Proof.Machine

/-! ### The placement queue -/

/-- The placed harts of a launch. -/
def State.hartsOf (s : State) (seq : Nat) : List Hart := s.placed.filter fun h => h.ident.seq == seq

/-- Whether a launch is being pre-empted. -/
def State.requested (s : State) (l : Launch) : Bool :=
  (s.hartsOf l.seq).any fun h => h.ctl.preqReq || h.marks.saving

/-- Whether a running launch has harts saved on their own, by a migration or a retirement, that wait for a core at their
launch's priority, under the rules of a placement (R210, R211, R214). -/
def State.migrants (s : State) (l : Launch) : Bool :=
  l.phase == .running && !l.savedHarts.isEmpty && !s.requested l

/-- Whether a launch waits in the placement queue (R211, R331). -/
def State.waits (s : State) (l : Launch) : Bool :=
  (l.phase == .queued || l.phase == .saved || s.migrants l) && l.removal.isNone

/-- Whether launch `a` stands ahead of `b` in the placement queue (R331). -/
def Launch.ahead (a b : Launch) : Bool :=
  decide (b.record.prio < a.record.prio) || (a.record.prio == b.record.prio && decide (a.seq < b.seq))

/-- The launch at the head of the placement queue (R331). -/
def State.headLaunch (s : State) : Option Launch :=
  (s.sched.launches.filter s.waits).foldl
    (fun best l =>
      match best with
      | some b => if l.ahead b then some l else best
      | none => some l) none

/-- The effective priority of a running launch: the lowest PRIO held by a placed hart of it (R329). -/
def State.effPrio (s : State) (l : Launch) : Nat :=
  match (s.hartsOf l.seq).map fun h => h.ctl.prio.val with
  | [] => l.record.prio.val
  | p :: rest => rest.foldl min p

/-! ### Hold-up grants -/

/-- Whether a hold-up slot holds a saved set that a launch's declaration claims (R407). -/
def claims (l : Launch) (d : HoldDecl) (h : HoldSlot) : Bool :=
  (h.state == 2 || h.state == 3) && h.ctxid == l.ctxid && h.ctxtag == d.ctxtag &&
    decide (h.items.map (fun i => i.maxlen) = d.items.map fun i => i.maxlen)

/-- The slot that a launch claims. -/
def State.claimSlot (s : State) (l : Launch) : Option (Fin 64 × HoldSlot) :=
  l.hold.bind fun d => s.holdup.slots.find? fun p => claims l d p.2

/-- The unit ranges that slots hold (R396). -/
def State.usedUnits (s : State) : List (Nat × Nat) :=
  (s.holdup.slots.filter fun p => p.2.state != 0).flatMap fun p =>
    (p.2.bases.zip p.2.items).map fun q => (q.1 / 65536, q.1 / 65536 + itemUnits q.2.maxlen)

/-- The free runs of the data region's 7,168 units: first unit and length (R405). -/
def freeGaps (used : List (Nat × Nat)) : List (Nat × Nat) :=
  (((0 :: used.map fun u => u.2).filter fun a =>
    decide (a < 7168) && !(used.any fun u => decide (u.1 ≤ a) && decide (a < u.2))).dedup).map fun a =>
      (a, ((used.filter fun u => decide (a ≤ u.1)).foldl (fun m u => min m u.1) 7168) - a)

/-- Contiguous units for each item, the free runs tried in order, if any arrangement gives them (R396, R405). -/
def arrange : List Nat → List (Nat × Nat) → Option (List Nat)
  | [], _ => some []
  | n :: rest, gaps =>
    gaps.findSome? fun g =>
      if n ≤ g.2 then
        (arrange rest (gaps.map fun k => if k.1 = g.1 then (k.1 + n, k.2 - n) else k)).map fun l => g.1 :: l
      else none

/-- The byte offsets of contiguous runs for the items of a declaration. -/
def freeRuns (items : List HoldItem) (used : List (Nat × Nat)) : Option (List Nat) :=
  (arrange (items.map fun i => itemUnits i.maxlen) (freeGaps used)).map fun l => l.map fun a => a * 65536

/-- A directory slot that is free: its number and its EPOCH. -/
def State.freeSlot (s : State) : Option (Fin 64 × BitVec 32) :=
  (List.finRange 64).findSome? fun n =>
    match assocGet s.holdup.slots n with
    | none => some (n, 0)
    | some h => if h.state = 0 then some (n, h.epoch) else none

/-- Whether the grant a launch asks for can be made (R396, R408). -/
def State.holdFits (s : State) (l : Launch) : Bool :=
  match l.hold with
  | none => true
  | some d =>
    (s.claimSlot l).isSome ||
      (!s.holdup.charging && decide (d.units ≤ s.holdup.capunits - s.granted) && s.freeSlot.isSome &&
        (freeRuns d.items s.usedUnits).isSome)

/-- Blocks of a WHOLE item written to its place in the launch's context; whether all were written (R407). -/
def State.writeBlocks (xc : XlateCtx) (src va : Nat) : Nat → State → State × Bool
  | 0, s => (s, true)
  | n + 1, s =>
    let bs := readBytes s.holdup.mdie src 64
    let (s, done) :=
      match s.translate (s.unit xc.ctxid) xc .s .store va with
      | (s, .error _) => (s, false)
      | (s, .ok (pa, _)) =>
        match s.physCheck (s.unit xc.ctxid) .store pa with
        | (s, .bytes _ _) => (s.physWrite (s.unit xc.ctxid) pa bs, true)
        | (s, _) => (s, false)
    let (s, rest) := State.writeBlocks xc (src + 64) (va + 64) n s
    (s, done && rest)

/-- One item of a claimed set restored (R400, R407). -/
def State.restoreItem (s : State) (xc : XlateCtx) (base : Nat) (i : HoldItem) (c : RestoredItem) : State × RestoredItem :=
  if c.cls = 1 then
    let (s, ok) := State.writeBlocks xc base i.vaddr.toNat (ceilDiv c.len 64) s
    (s, { c with restored := ok })
  else (s, { c with restored := false })

/-- The items of a claimed set restored in order. -/
def State.restoreItems (xc : XlateCtx) : List (Nat × HoldItem × RestoredItem) → State → State × List RestoredItem
  | [], s => (s, [])
  | (b, i, c) :: rest, s =>
    let (s, r) := s.restoreItem xc b i c
    let (s, rs) := State.restoreItems xc rest s
    (s, r :: rs)

/-- What a launch receives from its grant: its slot, its restored items, HOLDGRANT and PFSTAT (R397, R407). -/
structure Grant where
  slot : Option (Fin 64)
  restored : List RestoredItem
  holdgrant : BitVec 32
  pfstat : Word
deriving DecidableEq, Repr

/-- HOLDGRANT of a declaration (R397). -/
def holdgrantOf (d : HoldDecl) : BitVec 32 := BitVec.ofNat 32 (2 ^ 31 + d.items.length * 65536 + d.units)

/-- PFSTAT of a claimed set (R407). -/
def pfstatOf (h : HoldSlot) (rs : List RestoredItem) : Word :=
  let count := fun (c : Fin 4) => (rs.filter fun r => r.cls == c).length
  BitVec.ofNat 64
    (count 3 * 2 ^ 40 + count 2 * 2 ^ 32 + count 1 * 2 ^ 24 +
      bit01 (rs.any fun r => r.cls == 1 && (r.fault || r.poison)) * 8 + bit01 h.second * 4 + bit01 h.derated * 2 + 1)

/-- The slot of a launch, granted afresh or claimed. -/
def grantedSlot (l : Launch) (d : HoldDecl) (epoch : BitVec 32) (bases : List Nat) : HoldSlot where
  state := 1
  ctxid := l.ctxid
  epoch := epoch
  ctxtag := d.ctxtag
  begun := 0
  derated := false
  second := false
  prio := l.record.prio
  accepted := l.seq
  ptroot := l.ptroot
  strbase := l.strbase
  items := d.items
  bases := bases
  classes := []

/-- The directory record of a slot: its header and the byte offsets of its items (R405). -/
def HoldSlot.record (h : HoldSlot) : List Byte :=
  natBytes 2 h.ctxid.toNat ++ natBytes 1 h.items.length ++ natBytes 1 h.state.val ++ natBytes 4 h.epoch.toNat ++
    natBytes 8 h.ctxtag.toNat ++ natBytes 8 h.begun.toNat ++ natBytes 4 (bit01 h.second * 2 + bit01 h.derated) ++
    List.replicate 36 0 ++ h.bases.flatMap (natBytes 8)

/-- The directory record of slot `n` in the M-die (R405). -/
def writeDirectory (mdie : Mem) (n : Fin 64) (h : HoldSlot) : Mem := writeBytes mdie (0x1C000000 + 1024 * n.val) h.record

/-- A hold-up slot set, and its directory record. -/
def State.setSlot (s : State) (n : Fin 64) (h : HoldSlot) : State :=
  { s with holdup := { s.holdup with
      slots := assocSet s.holdup.slots n h
      mdie := writeDirectory s.holdup.mdie n h } }

/-- The context of a launch. -/
def Launch.xctx (l : Launch) : XlateCtx := ⟨l.ctxid, l.ptroot, l.strbase⟩

/-- The grant of a launch at its placement (R396, R407). -/
def State.grant (s : State) (l : Launch) : State × Grant :=
  match l.hold with
  | none => (s, ⟨none, [], 0, 0⟩)
  | some d =>
    match s.claimSlot l with
    | some (n, h) =>
      let s := s.setSlot n { h with state := 3 }
      let (s, rs) := State.restoreItems l.xctx (h.bases.zip (d.items.zip h.classes)) s
      (s.setSlot n { grantedSlot l d h.epoch h.bases with begun := h.begun, derated := h.derated, second := h.second },
        ⟨some n, rs, holdgrantOf d, pfstatOf h rs⟩)
    | none =>
      match s.freeSlot, freeRuns d.items s.usedUnits with
      | some (n, ep), some bases => (s.setSlot n (grantedSlot l d ep bases), ⟨some n, [], holdgrantOf d, 0⟩)
      | _, _ => (s, ⟨none, [], 0, 0⟩)

/-- The grant of a launch released: its slot is free (R396). -/
def State.releaseGrant (s : State) (l : Launch) : State :=
  match l.slot with
  | some n =>
    match assocGet s.holdup.slots n with
    | some h => s.setSlot n { h with state := 0 }
    | none => s
  | none => s

/-! ### Placement -/

/-- A hart as it is placed (R30, R115, R195, R303, R327 to R330, R363, R369, R377, R383, R388, R397, R407); CSPTR is the
runtime's (log entry 9). -/
def State.freshHart (s : State) (l : Launch) (g : BitVec 32 × Word) (n : Fin 8) (st : StageRec) (index : Nat)
    (id : HartId) : Hart :=
  let h := Hart.idle id
  let x := ((h.scalar.x.set 1 l.record.argptr).set 2 (BitVec.ofNat 64 n.val)).set 3 (BitVec.ofNat 64 index)
  { h with
    ident := ⟨id, l.seq, n, index, s.tick⟩
    scalar := { h.scalar with x := x, pc := st.entry, csptr := mkCsptr (Config.spillArea s.tick).toNat 0 }
    xctx := l.xctx
    trap := { h.trap with tvec := s.fdie.rtvec }
    ctl := { h.ctl with
      vlgcapEn := true, rchkmode := l.record.rchk, pdeadline := l.record.pdeadl, pdeadlinePlaced := l.record.pdeadl
      prio := l.record.prio, lprio := l.record.prio, usemask := st.usemask, holdgrant := g.1, pfstat := g.2 }
    v := { h.v with share := st.share }
    marks := { h.marks with halted := false } }

/-- A hart placed: its first access follows an acquire of scope .s (R312). -/
def State.placeHart (s : State) (l : Launch) (g : BitVec 32 × Word) (n : Fin 8) (st : StageRec) (index : Nat)
    (id : HartId) : State :=
  ((s.addHart (s.freshHart l g n st index id)).dropOrdered (id.val / 4) .s).fresh

/-- The harts of one stage placed with rising indices. -/
def State.placeIds (l : Launch) (g : BitVec 32 × Word) (n : Fin 8) (st : StageRec) : List HartId → Nat → State → State
  | [], _, s => s
  | id :: rest, k, s => State.placeIds l g n st rest (k + 1) (s.placeHart l g n st k id)

/-- The harts of every stage placed. -/
def State.placeAll (l : Launch) (g : BitVec 32 × Word) : List (StageRec × List HartId) → Nat → State → State
  | [], _, s => s
  | (st, ids) :: rest, n, s => State.placeAll l g rest (n + 1) (State.placeIds l g (Fin.ofNat 8 n) st ids 0 s)

/-- Whether the queue numbers of a launch are free on every core (R313). -/
def State.queuesFree (s : State) (l : Launch) : Bool :=
  (outqs l.record.stages).all fun q => !(s.sched.launches.any fun k => k.binds q.val)

/-- The places of a waiting launch's harts when those of `gone` are away (R29, R396). -/
def State.fitQueued (s : State) (gone : Hart → Bool) (l : Launch) : Option (List (List HartId)) :=
  if s.queuesFree l && s.holdFits l then placeStages l.record.stages (s.rooms gone) else none

/-- The places of a saved launch's harts when those of `gone` are away (R337). -/
def State.fitSaved (s : State) (gone : Hart → Bool) (l : Launch) : Option (List (Hart × HartId)) :=
  s.placeSaved (s.rolesFirst l.savedHarts) (s.rooms gone)

/-- Whether some saved hart of a running launch has a place when those of `gone` are away (R211). -/
def State.fitMigrant (s : State) (gone : Hart → Bool) (l : Launch) : Bool :=
  l.savedHarts.any fun h => (s.placeOf (s.rooms gone) h).isSome

/-- Whether a waiting launch could be placed or restored when the harts of `gone` are away. -/
def State.fits' (s : State) (gone : Hart → Bool) (l : Launch) : Bool :=
  match l.phase with
  | .queued => (s.fitQueued gone l).isSome
  | .running => s.fitMigrant gone l
  | _ => (s.fitSaved gone l).isSome

/-- A launch placed whole (R29, R313). -/
def State.placeLaunch (s : State) (l : Launch) (ids : List (List HartId)) : State :=
  let (s, g) := s.grant l
  let s := s.updateLaunch l.seq fun k => { k with
    phase := .running, slot := g.slot, restored := g.restored, holdgrant := g.holdgrant, pfstat := g.pfstat }
  State.placeAll l (g.holdgrant, g.pfstat) (l.record.stages.zip ids) 0 s

/-- Whether placements may be made: not in an endgame (R401). -/
def State.placing (s : State) : Bool := s.coresOn && !s.power.endgame

/-- The head of the queue placed, when it is a launch never placed and it fits. -/
def State.placeHead (s : State) : Option State :=
  match s.headLaunch with
  | some l =>
    if l.phase = .queued && s.placing then (s.fitQueued (fun _ => false) l).map fun ids => s.placeLaunch l ids else none
  | none => none

/-- LAUNCH_PLACEMENT (R29, R313). -/
def execLaunchPlacement (s : State) : Answered := .next (s.placeHead.getD s)

/-! ### Growth -/

/-- Whether a launch may grow now: running, no REQ set, and either nothing waits, or the head of the queue cannot be placed and the
launch's effective priority is at least its own (R425). -/
def State.mayGrow (s : State) (l : Launch) : Bool :=
  s.placing && l.phase == .running && l.removal.isNone && !((s.hartsOf l.seq).any fun h => h.ctl.preqReq) &&
    match s.headLaunch with
    | some k => decide (k.record.prio.val ≤ s.effPrio l) && !s.fits' (fun _ => false) k
    | none => true

/-- The lowest index that no hart of a stage holds (R314). -/
def freeIndex (hs : List Hart) : Nat :=
  ((List.range (hs.length + 1)).find? fun i => !(hs.any fun h => h.ident.index == i)).getD hs.length

/-- One more hart of a stage, on a core that `p` allows (R314). -/
def State.growStage (s : State) (l : Launch) (n : Nat) (st : StageRec) (pick : List CoreRoom → Option CoreRoom) :
    Option State :=
  let hs := s.stageHarts l n
  if st.hmax ≤ hs.length then none
  else
    (pick ((s.rooms fun _ => false).filter fun r => r.takes st.usemask (shareWords st.share))).map fun r =>
      s.placeHart l (l.holdgrant, l.pfstat) (Fin.ofNat 8 n) st (freeIndex hs) r.next

/-- The core of R314 among eligible ones. -/
def pickAny (es : List CoreRoom) : Option CoreRoom := es.find? fun r => r.core / 64 == bestDie es

/-- Launches in the order in which they grow: by effective priority, then by acceptance (R425). -/
def State.growthOrder (s : State) (ls : List Launch) : List Launch :=
  (List.range 8).reverse.flatMap fun p => ls.filter fun l => s.effPrio l == p

/-- Launches that could grow a stage-0 hart, in the order of R425. -/
def State.growers (s : State) : List Launch :=
  s.growthOrder (s.sched.launches.filter fun l => s.mayGrow l && !l.stage0Halted)

/-- One further stage-0 hart placed in a free slot (R313, R425). -/
def State.growStage0 (s : State) : Option State :=
  s.growers.findSome? fun l => (l.stage 0).bind fun st => s.growStage l 0 st pickAny

/-- The eligible core of a die whose queue holds the most entries, the lower number on a tie (R317). -/
def State.pickQueue (s : State) (die : Nat) (q : Nat) (es : List CoreRoom) : Option CoreRoom :=
  (es.filter fun r => r.core / 64 == die).foldl
    (fun best r =>
      match best with
      | some b => if (s.queue b.core q).entries.length < (s.queue r.core q).entries.length then some r else best
      | none => some r) none

/-- A hart moved: saved at its wait, once the chunks that were read are written (R270), and restored at another place (R318). -/
def State.moveHart (s : State) (h : HartId) (id : HartId) : State :=
  let s := s.onHart h State.landAll
  match s.findHart h with
  | none => s
  | some k =>
    ((s.unplace h).addHart
      ((k.savedForm (s.lanesOf k.core) s.cycle).restoredForm id (s.lanesOf (id.val / 4)) s.cycle)).dropRemote (id.val / 4)

/-- The hart of a stage that may move to a die: blocked in QPOP on a die whose queues are empty, without a role (R318). Of several,
the first in the list of harts is taken (the model's choice, log entry 85). -/
def State.movable (s : State) (l : Launch) (n q : Nat) : Option Hart :=
  (s.hartsOf l.seq).find? fun h =>
    h.ident.stage.val == n && (match h.marks.wait with
      | .qpop _ _ _ => true
      | _ => false) && s.queueDie h.die q == 0 && !s.holdsRole h && !h.marks.saving

/-- The move of R318 to a die. -/
def State.moveTo (s : State) (die : Nat) (l : Launch) (n q : Nat) : State :=
  match s.movable l n q with
  | none => s
  | some h =>
    let es := (s.rooms fun _ => false).filter fun r =>
      r.core / 64 == die && r.takes h.ctl.usemask (shareWords h.v.share) && h.fitsLanes (s.lanesOf r.core)
    match es.head? with
    | some r => s.moveHart h.ident.id r.next
    | none => s

/-- The QPOP that R319 ends with SURPLUS on a die: the highest index among those that waited 65,536 cycles. The scheduler ends one
at every evaluation where it may (the model's choice, log entry 85). -/
def State.shrink (s : State) (die : Nat) (l : Launch) (n : Nat) (st : StageRec) : State :=
  if (s.stageHarts l n).length ≤ st.hmin then s
  else
    let idle := (s.hartsOf l.seq).filter fun h =>
      h.ident.stage.val == n && h.die == die && (match h.marks.wait with
        | .qpop _ since false => decide (since + 65536 ≤ s.cycle)
        | _ => false)
    let top := idle.foldl (fun k h => max k h.ident.index) 0
    match idle.find? fun h => h.ident.index == top with
    | some h =>
      s.mapHarts fun k =>
        match k.marks.wait with
        | .qpop q since _ =>
          if k.ident.id = h.ident.id then { k with marks := { k.marks with wait := .qpop q since true } } else k
        | _ => k
    | none => s

/-- The evaluation of stage `n` ≥ 1 of a launch on a die (R317 to R319). -/
def State.evalStage (s : State) (die : Nat) (l : Launch) (n : Nat) (st : StageRec) : State :=
  match l.outq (n - 1) with
  | none => s
  | some q =>
    let e := s.queueDie die q.val
    let here := ((s.hartsOf l.seq).filter fun h => h.ident.stage.val == n && h.die == die).length
    let s :=
      if e = 0 ∨ s.stageEnded l n then s
      else if (s.stageHarts l n).length < st.hmax then
        (if (here = 0 ∨ 16 * here ≤ e) ∧ s.mayGrow l then (s.growStage l n st (s.pickQueue die q.val)).getD s else s)
      else if here = 0 then s.moveTo die l n q.val
      else s
    s.shrink die l n st

/-- The stages of a launch evaluated on a die. -/
def State.evalStages (die : Nat) (l : Launch) : List StageRec → Nat → State → State
  | [], _, s => s
  | st :: rest, n, s => State.evalStages die l rest (n + 1) (if n = 0 then s else s.evalStage die l n st)

/-- STAGE_SCHEDULER_EVALUATION (R317 to R319), in the order of R425. -/
def execStageSchedulerEvaluation (die : Fin 4) (s : State) : Answered :=
  .next ((s.growthOrder (s.sched.launches.filter fun l => l.phase == .running && l.removal.isNone)).foldl
    (fun t l => if t.placing then State.evalStages die.val l l.record.stages 0 t else t) s)

/-! ### Pre-emption -/

/-- REQ set on a hart (R327, R328). -/
def Hart.request (h : Hart) (now : Nat) : Hart :=
  { h with ctl := { h.ctl with preqReq := true, preqLeft := h.ctl.pdeadline, preqSince := now } }

/-- The launches that a head may displace (R331): running ones of lower priority than its own. -/
def State.victims (s : State) (head : Launch) : List Launch :=
  s.sched.launches.filter fun l =>
    l.phase == .running && l.removal.isNone && l.seq != head.seq && !s.requested l &&
      decide (s.effPrio l < head.record.prio.val)

/-- The victim of lowest effective priority, the one accepted last among equals (R331). -/
def State.lowest (s : State) (ls : List Launch) : Option Launch :=
  ls.foldl
    (fun best l =>
      match best with
      | some b =>
        if s.effPrio l < s.effPrio b ∨ (s.effPrio l = s.effPrio b ∧ b.seq < l.seq) then some l else best
      | none => some l) none

/-- Victims chosen until the head would fit (R331). -/
def State.choose (s : State) (head : Launch) : Nat → List Launch → List Nat → List Nat
  | 0, _, acc => acc
  | n + 1, ls, acc =>
    if s.fits' (fun h => acc.contains h.ident.seq) head then acc
    else
      match s.lowest ls with
      | none => acc
      | some v => State.choose s head n (ls.filter fun l => l.seq ≠ v.seq) (v.seq :: acc)

/-- The launches whose harts receive REQ now, for the head of the queue (R331). -/
def State.chosen (s : State) : List Nat :=
  match s.headLaunch with
  | none => []
  | some l =>
    let going := (s.sched.launches.filter fun k => s.requested k).map fun k => k.seq
    let vs := s.victims l
    if !s.placing || s.fits' (fun h => going.contains h.ident.seq) l then []
    else if s.fits' (fun h => going.contains h.ident.seq || vs.any fun v => v.seq == h.ident.seq) l then
      (s.choose l vs.length vs going).filter fun q => !going.contains q
    else []

/-- REQ set on every placed hart of the launches chosen; those that wait are saved at once (R331, R333). -/
def State.preempt (s : State) : State :=
  let seqs := s.chosen
  let ids := (s.placed.filter fun h => seqs.contains h.ident.seq).map fun h => h.ident.id
  let s := s.mapHarts fun h => if seqs.contains h.ident.seq && !h.marks.halted then h.request s.cycle else h
  ids.foldl (fun t id => t.onHart id State.saveIfWaiting) s

/-- PREEMPT_REQUEST (R331). -/
def execPreemptRequest (s : State) : Answered := .next s.preempt

/-! ### Restores -/

/-- Saved harts restored at their places. -/
def State.restoreAll : List (Hart × HartId) → State → State
  | [], s => s
  | (h, id) :: rest, s => State.restoreAll rest (s.restoreHart h id)

/-- The first saved hart of a running launch that a core takes, restored (R210, R211, R214). -/
def State.restoreMigrant (s : State) (l : Launch) : Option State :=
  l.savedHarts.findSome? fun h =>
    (s.placeOf (s.rooms fun _ => false) h).map fun id =>
      (s.updateLaunch l.seq fun k => { k with savedHarts := k.savedHarts.filter fun j => j.ident.key ≠ h.ident.key }).restoreHart
        h id

/-- The saved launch at the head of the queue restored whole (R337), or a saved hart of a running one (R211); roles whose slot
is lost are aborted first (R304). -/
def State.nextRestore (s : State) : Option State :=
  match s.headLaunch with
  | some l =>
    if !s.placing then none
    else
      let t := s.abortLost l.savedHarts
      let l := (t.launch l.seq).getD l
      match l.phase with
      | .saved =>
        (t.fitSaved (fun _ => false) l).map fun ps =>
          State.restoreAll ps (t.updateLaunch l.seq fun k => { k with phase := .running, savedHarts := [] })
      | .running => t.restoreMigrant l
      | _ => none
  | none => none

/-- LAUNCH_RESTORE (R211, R214, R337). -/
def execLaunchRestore (s : State) : Answered := .next (s.nextRestore.getD s)

/-! ### The end of a launch -/

/-- Entries left in the queues that a launch binds (R31). -/
def State.leftEntries (s : State) (l : Launch) : Nat := ((outqs l.record.stages).map fun q => s.queueTotal q.val).sum

/-- Whether a place of a core is a queue of a launch or a gate that it bound. -/
def Core.belongs (c : Core) (l : Launch) : ErrorPlace → Bool
  | .queue _ q => (outqs l.record.stages).contains q
  | .gate _ n => ((assocGet c.gates n.val).bind fun g => g.binder) == some l.seq
  | _ => false

/-- The queues of a launch freed, the gates it bound unbound (R272, R313), with what was wrong with them. -/
def Core.freed (c : Core) (l : Launch) : Core :=
  { c with
    bad := c.bad.filter fun p => !c.belongs l p
    queues := c.queues.filter fun p => !((outqs l.record.stages).any fun q => q.val == p.1)
    gates := c.gates.map fun p => if p.2.binder = some l.seq then (p.1, { p.2 with owner := none, binder := none }) else p }

/-- What a launch held released: its queues, gates and grant, and its record with the scheduler. -/
def State.endLaunch (s : State) (l : Launch) : State :=
  let s := s.releaseGrant l
  { s with
    cores := s.cores.map fun p => (p.1, p.2.freed l)
    sched := { s.sched with launches := s.sched.launches.filter fun k => k.seq ≠ l.seq } }

/-- The words written to DONEPTR and DONEPTR + 8 (R31, R390), translated at U (the model's choice, log entry 80): neither is written
when either fails, and the failure is recorded in the event ring; a page walk that meets an error or has no path is recorded as
cause 0x08, which no rule states (the model's choice, log entry 75). -/
def State.writeDone (s : State) (l : Launch) (w : Word) : State :=
  let va := l.record.doneptr
  if va = 0 then s
  else
    let fail := fun (t : State) (c : Nat) => t.appendEvent c l.ctxid 0x7FFFFFF va
    match s.translate (s.unit l.ctxid) l.xctx .u .store va.toNat with
    | (s, .error (.fault c _ _)) => fail s c
    | (s, .error _) => fail s 8
    | (s, .ok (pa, _)) =>
      match s.physCheck (s.unit l.ctxid) .store pa with
      | (s, .bytes _ _) =>
        s.physWrite (s.unit l.ctxid) pa (natBytes 8 l.record.doneval.toNat ++ natBytes 8 w.toNat)
      | (s, _) => fail s 8

/-- Whether every stage of a launch has ended (R320). -/
def State.allEnded (s : State) (l : Launch) : Bool :=
  l.phase == .running && l.removal.isNone && s.stageEnded l (l.record.stages.length - 1)

/-- A launch completes (R31). -/
def State.complete (s : State) (l : Launch) : State :=
  (s.writeDone l (BitVec.ofNat 64 (s.leftEntries l))).endLaunch l

/-- LAUNCH_COMPLETION (R31, R320). -/
def execLaunchCompletion (seq : Nat) (s : State) : Answered :=
  .next (match s.launch seq with
    | some l => if s.allEnded l then s.complete l else s
    | none => s)

/-! ### The end of a removal -/

/-- REMOVAL_HART_TIMEOUT (R389): a hart of a removed launch that has not halted is stopped, its uncommitted stores
discarded. -/
def execRemovalHartTimeout (h : HartId) (s : State) : Answered :=
  .next (s.onHart h fun s =>
    if s.hart.marks.removed && !s.power.endgame then
      (s.withHart fun h =>
        { h.discardStores with viq := [], hist := [], marks := { h.marks with stopped := true, wait := .none } }).settleStores
    else s)

/-- Whether a removal may end (R389, R390, R401): every hart of the launch has halted or stopped, its chunks are written,
and no endgame holds it. -/
def State.removalReady (s : State) (l : Launch) : Bool :=
  l.phase == .removing && !s.power.endgame && (s.hartsOf l.seq).all fun h =>
    h.marks.stopped && h.copies.all fun c => c.copy.inFlight.isEmpty

/-- The removal record (R390). -/
def removalWord (cause : BitVec 8) (n : Nat) : Word := BitVec.ofNat 64 (2 ^ 63 + cause.toNat * 2 ^ 48 + n)

/-- The hart number of a removal's originator (R390). -/
def State.removerNumber (s : State) (h : Option HartId) : Nat :=
  match h with
  | some id => s.pkg.toNat * 1024 + id.val
  | none => 0x7FFFFFF

/-- The mailbox command that awaited a removal is done (R422). -/
def State.removalServed (s : State) (seq : Nat) : State :=
  if s.mgmt.removing = some seq then
    { s with mgmt := { s.mgmt with removing := none, busy := false, done := true, result := 0, respLen := 0 } }
  else s

/-- A removal ends (R389, R390): the launch's stopped harts leave, what it held is released, the removal record and the
event record are written. -/
def State.endRemoval (s : State) (l : Launch) : State :=
  let cause := (l.removal.map fun r => r.1).getD 0x1B
  let n := s.removerNumber (l.removal.bind fun r => r.2)
  let s := (s.hartsOf l.seq).foldl (fun t h => t.unplace h.ident.id) s
  let s := (s.writeDone l (removalWord cause n)).appendEvent 0x1B l.ctxid n (cause.setWidth 64)
  (s.endLaunch l).removalServed l.seq

/-- REMOVAL_COMPLETE (R390). -/
def execRemovalComplete (seq : Nat) (s : State) : Answered :=
  .next (match s.launch seq with
    | some l => if s.removalReady l then s.endRemoval l else s
    | none => s)

end Sys2Proof.Machine
end

