-- ==== Sys2Proof/Machine/Recheck.lean ====
section
/-! DEFINITION. Rechecks: their runs, lane groups and resolution, verdicts, fences, retirement and in-field tests (R196, R197,
R199 to R215). -/

namespace Sys2Proof.Machine

/-! ### Fences, offline cores and retirement -/

/-- The window in which verdicts count, in cycles (R208). -/
def verdictWindow : Nat := 2 ^ 31

/-- The working lane groups of a core in the order in which its lanes are numbered (R16). -/
def Core.groups (c : Core) : List (Fin 8) := (List.finRange 8).filter fun i => c.lanemap.getLsbD i.val

/-- A class fenced on a core; the fence persists across resets (R208, R209). -/
def Core.fence (c : Core) (cls : Nat) : Core :=
  let m : BitVec 23 := BitVec.ofNat 23 (2 ^ cls)
  { c with cap := c.cap &&& ~~~m, fenced := c.fenced ||| m, verdicts := c.verdicts.filter fun v => v.1.val ≠ cls }

/-- The current hart's save as a retirement, a migration or an offline core begins it (R210, R211, R214); a removed or
stopped hart is left alone. -/
def State.evict (cls : Option Nat) (s : State) : State :=
  if s.hart.marks.saving || s.hart.marks.removed || s.hart.marks.stopped then s
  else s.beginForced.withHart fun h => { h with marks := { h.marks with migrating := cls } }

/-- Every hart of a core saved (R210, R214). -/
def State.evictCore (s : State) (core : Nat) (cls : Option Nat) : State :=
  ((s.placed.filter fun h => h.core == core).map fun h => h.ident.id).foldl (fun t id => t.onHart id (State.evict cls)) s

/-- The in-field test of a core is over: its kernel's hart, placed or saved, is gone (R215). -/
def State.endTest (s : State) (core : Nat) : State :=
  let mine := fun (h : Hart) => h.marks.test.isSome && h.core == core
  let s := (s.placed.filter mine).foldl (fun t h => t.unplace h.ident.id) s
  { s.setCore core { s.core core with testPending := false, testKernel := none } with
    savedTests := s.savedTests.filter fun h => !mine h }

/-- A core made offline (R197, R214): its CAP clears and its harts are saved and migrate, with the class of the verdict; where no
verdict against a class made it so, the class that R390 names for class scalar (log entry 72). -/
def State.offline (s : State) (core : Nat) (cls : Option Nat) : State :=
  let s := s.endTest core
  (s.setCore core { s.core core with cap := 0, fenced := BitVec.allOnes 23, verdicts := [] }).evictCore core (some (cls.getD 0))

/-- A class fenced on a core, or the core made offline for class scalar (R197, R209). -/
def State.fenceClass (s : State) (core cls : Nat) : State :=
  if cls = 0 then s.offline core (some cls) else s.setCore core ((s.core core).fence cls)

/-- The lane groups marked on a core leave its LANEMAP once it holds no hart (R18, R210). -/
def State.finishRetirement (s : State) (core : Nat) : State :=
  let c := s.core core
  if c.marked = 0 || s.placed.any fun h => h.core == core then s
  else s.setCore core { c with lanemap := c.lanemap &&& ~~~c.marked, marked := 0 }

/-- A lane group marked for retirement (R210): every hart of the core is saved, then the group leaves LANEMAP. -/
def State.retireGroup (s : State) (core : Nat) (g : Fin 8) : State :=
  let c := s.core core
  if !c.lanemap.getLsbD g.val then s
  else
    let s := s.setCore core
      { c with
        marked := c.marked ||| BitVec.ofNat 8 (2 ^ g.val)
        verdicts := c.verdicts.filter fun v => v.2.1 ≠ some g }
    (s.evictCore core none).finishRetirement core

/-- The retirement of a group, for a verdict against a class if there is one, or the core offline when fewer than 3 groups
would be left (R197). -/
def State.retireFor (s : State) (core : Nat) (g : Fin 8) (cls : Option Nat) : State :=
  let c := s.core core
  let left := c.lanemap &&& ~~~c.marked &&& ~~~(BitVec.ofNat 8 (2 ^ g.val))
  if countOnes 8 left.toNat < 3 then s.offline core cls else s.retireGroup core g

/-- LANE_GROUP_RETIREMENT (R197, R210). -/
def execLaneGroupRetirement (core : CoreId) (group : Fin 8) (s : State) : Answered :=
  .next (if (s.core core.val).lanemap.getLsbD group.val then s.retireFor core.val group none else s)

/-! ### Verdicts -/

/-- The verdicts of a core inside the window (R208). -/
def State.recent (s : State) (c : Core) : List (Fin 23 × Option (Fin 8) × Nat) :=
  c.verdicts.filter fun v => decide (s.cycle - verdictWindow ≤ v.2.2)

/-- A verdict recorded, and the first threshold it reaches acted on (R208). The spec does not say which of two thresholds that
one verdict reaches comes first: the model takes them in the order of the table, so that it retires the group and does not
then fence the class (the model's choice, log entry 41). -/
def State.verdict (s : State) (core : Nat) (cls : Fin 23) (g : Option (Fin 8)) : State :=
  let c := s.core core
  let s := s.setCore core { c with verdicts := (cls, g, s.cycle) :: c.verdicts }
  let vs := s.recent (s.core core)
  match g with
  | some k =>
    if 3 ≤ (vs.filter fun v => v.2.1 == some k).length then s.retireFor core k (some cls.val)
    else if (vs.filter fun v => v.1 == cls).any fun v => v.2.1.isSome && v.2.1 != some k then s.fenceClass core cls.val
    else s
  | none => if 2 ≤ (vs.filter fun v => v.1 == cls && v.2.1.isNone).length then s.fenceClass core cls.val else s

/-! ### Lane groups of the elements -/

/-- The place, among `n` working groups, of the group that processes element `e` of a row in run `k` (R202); for a matrix
instruction, of the PE column group of column `e` (R207). -/
def runGroupOf (lw k e : Nat) : Nat := (e % lw / 8 + k) % (lw / 8)

/-- The lane group that processed a tile position in run `k` (R202, R207). -/
def State.laneGroup (s : State) (e : VEntry) (k pos : Nat) : Fin 8 :=
  ((s.core s.hart.core).groups[runGroupOf s.lw k (pos % max 1 e.rowLength)]?).getD 0

/-- The group to which a difference is attributed that lies in no element: in flags, a count or a scalar result alone (log
entry 38). -/
def State.someGroup (s : State) : Fin 8 :=
  let gs := (s.core s.hart.core).groups
  (gs[Config.verdictGroup s.tick % max 1 gs.length]?).getD 0

/-! ### The runs of a matrix instruction -/

/-- The dataflow of run `k` of a matrix instruction (R207). -/
def runDataflow (df : Dataflow) (k : Nat) : Dataflow :=
  match df, k with
  | .ip, 1 => .op
  | .op, 1 => .ip
  | .rw, 1 => .op
  | .rw, 2 => .ip
  | _, _ => df

/-- The passes of a run over the rows of C: at most 64 rows each where a recheck or reroll runs .ip for another dataflow
(R207). -/
def runPasses (df : Dataflow) (k m : Nat) : List (List Nat) :=
  if k ≠ 0 ∧ runDataflow df k = .ip ∧ df ≠ .ip then
    (List.range (ceilDiv m 64)).map fun p => (List.range (min 64 (m - 64 * p))).map fun i => 64 * p + i
  else [List.range m]

/-- Run `k` of a matrix instruction on the working entry (R174, R175, R207): presence is taken from the lists where the primary
takes it from them. -/
def State.runMatrix (s : State) (e : VEntry) (df : Dataflow) (o : MmaOps) (k : Nat) : VRun :=
  match MmaOps.kind o with
  | none => ran s
  | some kd =>
    let (vrf, masks) := s.sources
    let q := s.weightSlot o.wslot
    let rows := (runPasses df k e.mshape.m).flatten
    if df = .rw then
      let ((out, fl), bad) := rwRows vrf masks q o e.mshape kd e.vl rows (s.hart.vrf, 0)
      ran (((s.setVrf out).gather fl).withResult fun r => { r with order := bad.map fun p => (false, p) })
    else
      let (out, fl) := rows.foldl
        (fun acc i => mmaRow vrf masks q o o.cmask e.mshape kd i (fun k => some (mmaA vrf o i k)) acc) (s.hart.vrf, 0)
      ran ((s.setVrf out).gather fl)

/-! ### Runs -/

/-- What a run of an instruction delivered: the registers with its destination, and what equal() compares beside them (R203). -/
structure RunView where
  vrf : Mem
  masks : Mem
  fflags : BitVec 5
  scalar : Option (XReg × Word)
  count : Option Nat
  order : Option (Bool × Nat)
deriving DecidableEq

/-- The current hart with only the oldest entry's work and what came before it; a stream register holds the tile that the oldest
entry popped, or found there (R201). -/
def Hart.asHead (h : Hart) (q : VSlot) : Hart :=
  let younger := h.viq.filter fun k => decide (q.e.seq < k.e.seq)
  let k := h.takeBackAll younger
  { k with viq := [q], vrf := younger.foldr (fun p m => p.r.tiles.foldr (fun t m => restoreShadow m t) m) k.vrf }

/-- The oldest entry as it was when its primary run began. -/
def VSlot.restarted (q : VSlot) (lw : Nat) : VSlot :=
  { e := { q.e with complete := false, skip := q.e.start, done := elemsToGroups lw q.e.vl q.e.start }
    r := { q.r with fflags := 0, scalar := none, count := none, order := none } }

/-- The oldest entry run again, as run `k` (R202, R203): on its operands and the prior contents of its destination. -/
def State.rerun (s : State) (q : VSlot) (k : Nat) : State :=
  let p := q.restarted s.lw
  let s := s.withHart fun h => { (h.asHead q).takeBack q with viq := [p] }
  match p.e.instr with
  | .mma df o => (s.runMatrix p.e df o k).1
  | i =>
    if s.groupwise i then (State.runGroups p.e (s.entryGroups p.e) (s.entryGroups p.e - p.e.done) p.e.done s).1
    else (s.runWhole p.e).1

/-- What a state with one VIQ entry shows of the entry's run. -/
def State.view (s : State) : RunView :=
  let r := (s.hart.viq.head?.map fun q => q.r).getD VResult.empty
  ⟨s.hart.vrf, s.hart.masks, r.fflags, r.scalar, r.count, r.order⟩

/-- The destination registers of an instruction with the width of their elements; an accumulator group is named by its base. -/
def destTiles : VInstr → List (VReg × Nat)
  | .mma _ o => [(o.d, accBits o.accf.val)]
  | .mdrain _ o => [(o.d, codeBits o.ofmt.val)]
  | .vcvt o => [(o.d, codeBits o.dst.val)]
  | i => (vwrites i).zip (vtiles i)

/-- An element of a destination. -/
def VEntry.element (e : VEntry) (vrf : Mem) (t : VReg × Nat) (pos : Nat) : Nat :=
  let n := max 1 e.rowLength
  match e.instr with
  | .mma _ o => accGet vrf t.1.val (mmaGroup o) t.2 (pos / n) (pos % n)
  | _ => vget vrf t.1.val t.2 (pos / n) (pos % n)

/-- An element of a destination set. -/
def VEntry.setElement (e : VEntry) (vrf : Mem) (t : VReg × Nat) (pos v : Nat) : Mem :=
  let n := max 1 e.rowLength
  match e.instr with
  | .mma _ o => accSet vrf t.1.val (mmaGroup o) t.2 (pos / n) (pos % n) v
  | _ => vset vrf t.1.val t.2 (pos / n) (pos % n) v

/-- The mask without whose bit an instruction writes nothing at a position (R91); reductions and permutations have none. -/
def governing (h : Hart) (i : VInstr) : Option MReg :=
  match i with
  | .vsel _ => none
  | .mma _ o => some o.cmask
  | .mdrain _ o => some o.m
  | .mop _ o => some o.m
  | .mnot o => some o.m
  | .mset o => some o.m
  | i => if h.groupwise i then (vmaskReads i).getLast? else none

/-- Whether an entry writes at a tile position (R91). -/
def Hart.writesAt (h : Hart) (q : VSlot) (pos : Nat) : Bool :=
  decide (pos < q.e.rowCount * q.e.rowLength) &&
    match governing h q.e.instr with
    | some m => mget (sourceMasks h.masks q.r) m pos
    | none => true

/-- What a run delivered where its hardware differed from the primary's: `d` names the elements, mask bits and results that
came out otherwise (R202, R203). -/
def Hart.delivered (h : Hart) (q : VSlot) (d : RunDiff) (v : RunView) : RunView where
  vrf := (d.elems.filter fun x => h.writesAt q x.2.1).foldl
    (fun m x =>
      match (destTiles q.e.instr).find? fun t => t.1 == x.1 with
      | some t => q.e.setElement m t x.2.1 (x.2.2 % 2 ^ t.2)
      | none => m) v.vrf
  masks := match vmaskWrite q.e.instr with
    | some m => (d.mask.filter fun x => h.writesAt q x.1).foldl (fun k x => mset k m x.1 x.2) v.masks
    | none => v.masks
  fflags := d.fflags.getD v.fflags
  scalar := v.scalar.map fun p => (p.1, d.scalar.getD p.2)
  count := v.count.map fun n => d.count.getD n
  order := if usesMerge q.e.instr then d.order.getD v.order else v.order

/-- What run 0 of the oldest entry delivered, or run `k` on hardware that delivers `d` otherwise (R203). -/
def State.runView (s : State) (q : VSlot) (k : Nat) (d : RunDiff) : RunView :=
  let h := s.hart.asHead q
  h.delivered q d (if k = 0 then (s.withHart fun _ => h).view else (s.rerun q k).view)

/-- The lowest tile position at which two runs differ (R203). -/
def firstDifference (q : VSlot) (a b : RunView) : Option Nat :=
  (List.range (q.e.rowCount * q.e.rowLength)).find? fun pos =>
    ((destTiles q.e.instr).any fun t => q.e.element a.vrf t pos != q.e.element b.vrf t pos) ||
      match vmaskWrite q.e.instr with
      | some m => mget a.masks m pos != mget b.masks m pos
      | none => false

/-- The lane group that a verdict names: the one that processed, in run `k`, the lowest-positioned element that differs
(R203, R207). -/
def State.verdictGroup (s : State) (q : VSlot) (k : Nat) (a b : RunView) : Fin 8 :=
  match firstDifference q a b with
  | some pos => s.laneGroup q.e k pos
  | none => s.someGroup

/-! ### Resolution -/

/-- The class of a posted instruction (R193). -/
def classOf (e : VEntry) : Fin 23 := Fin.ofNat 23 (vclass e.instr)

/-- The oldest entry confirmed: it may retire, and with it the complete entries behind it (R203). -/
def State.confirm (s : State) : State :=
  State.retireReady s.hart.viq.length
    (s.withHart fun h => h.mapHead fun q => { q with r := { q.r with phase := .confirmed } })

/-- The hart goes on at the instruction that follows an overturned one (R204). One that was posted before an asynchronous trap
starts the handler again, with the trap's TPC at that instruction (log entry 42). -/
def Hart.continueAfter (h : Hart) (e : VEntry) : Hart :=
  if h.trap.inTrap ∧ e.seq ≤ h.marks.asyncAt then
    let h := (h.closeStrip true).sealStrips
    { h.goto h.trap.tvec with scalar := { (h.goto h.trap.tvec).scalar with level := .s }, trap := { h.trap with tpc := e.next } }
  else h.goto e.next

/-- The primary result overturned (R204): the destination receives what run 1 delivered, younger work is discarded, and the
hart goes on behind the entry, which is confirmed. -/
def State.replaceHead (s : State) (q : VSlot) (c : RunView) : State :=
  (s.withHart fun h =>
    let h := (h.rollback q.e).continueAfter q.e
    { h with vrf := c.vrf, masks := c.masks }.mapHead fun q =>
      { q with r := { q.r with fflags := c.fflags, scalar := c.scalar, count := c.count, order := c.order } }).confirm

/-- TVAL of cause 0x19 (R205). -/
def recheckTval (cls : Fin 23) (g : Fin 8) : Word := BitVec.ofNat 64 (g.val * 256 + cls.val)

/-- A trap at the oldest entry, whose destination holds its prior contents again (R205). -/
def State.trapHead (s : State) (q : VSlot) (cause : Nat) (tval : Word) : State :=
  let e := { q.e with complete := false, begun := false, skip := q.e.start, done := elemsToGroups s.lw q.e.vl q.e.start }
  let s := s.withHart fun h => ((h.rollback q.e).takeBack q).mapHead fun _ => ⟨e, VResult.empty⟩
  s.trapEntry e ⟨cause, tval, 0, e.pc, none, some e.done⟩

/-- No majority (R205, R386): the first time in an unsealed strip the strip is rewound, unless it has been rewound 4 times;
otherwise cause 0x19. The escalation reports SRC 6 (log entry 43). The rewind discards the entry that met none: what meets none
again is known by its program counter, so a later pass of a loop over it in the same strip counts as it (the model's choice, log
entry 71). -/
def State.noMajority (s : State) (q : VSlot) (g : Fin 8) : State :=
  match (s.hart.stripOf q.e.strip).filter fun t => !t.sealed && !t.noMajority.contains q.e.pc with
  | some t =>
    if t.escalates none then s.trapHead q 0x18 (checkTval 6 false true 0)
    else s.rewindTo t none (some q.e.pc)
  | none => s.trapHead q 0x19 (recheckTval (classOf q.e) g)

/-- The oldest entry when it waits for its recheck; an entry of a removed hart has none (R206). -/
def State.openHead (s : State) : Option VSlot :=
  (s.hart.viq.head?).filter fun q => q.e.complete && q.r.phase == .held && !s.hart.marks.removed

/-- The resolution of the oldest entry of the current hart (R203 to R205, R207, R208): `c` and `t` are what the hardware of the
recheck and the reroll delivered otherwise than the primary's. -/
def State.resolve (s : State) (c t : RunDiff) : State :=
  match s.openHead with
  | none => s
  | some q =>
    let core := s.hart.core
    let cls := classOf q.e
    let v0 := s.runView q 0 ⟨[], [], none, none, none, none⟩
    let v1 := s.runView q 1 c
    if v1 = v0 then s.confirm
    else
      let v2 := s.runView q 2 t
      if v2 = v0 then s.confirm.verdict core cls (some (s.verdictGroup q 1 v1 v0))
      else if v2 = v1 then (s.replaceHead q v1).verdict core cls (some (s.verdictGroup q 0 v0 v1))
      else
        let g := match firstDifference q v0 v1, firstDifference q v0 v2 with
          | some a, some b => s.laneGroup q.e 0 (min a b)
          | some a, none => s.laneGroup q.e 0 a
          | none, some b => s.laneGroup q.e 0 b
          | none, none => s.someGroup
        (s.noMajority q g).verdict core cls none

/-- RECHECK_RESOLUTION (R203). -/
def execRecheckResolution (h : HartId) (runs : Reruns) (s : State) : Answered :=
  .next (s.onHart h fun s => s.resolve runs.recheck runs.reroll)

/-- RECHECK_PRIORITY_TIMEOUT (R206): the pending runs of the oldest entry go ahead of new primary work. -/
def execRecheckPriorityTimeout (h : HartId) (s : State) : Answered :=
  .next (s.onHart h fun s =>
    match s.openHead with
    | some _ => s.withHart fun h => h.mapHead fun q => { q with r := { q.r with waited := true } }
    | none => s)

/-- Whether the working entry of the current hart can move now: it begins or goes on, and does not wait. -/
def State.canWork (s : State) : Bool :=
  match s.hart.working with
  | none => false
  | some q =>
    s.canBegin q && (rechecked q.e.instr || match s.attempt q true with
      | (_, some .wait) => false
      | _ => true)

/-- Whether the resolution of a hart's oldest entry is told by an input to come. -/
def State.told (s : State) (h : HartId) : Bool :=
  s.agenda.any fun p =>
    match p.2 with
    | .event (.recheckResolution k _) => k == h
    | _ => false

/-- The oldest entry of a hart resolved by runs on sound hardware, which agree: once no primary run of the core can use the
slots that they need, or the entry has waited for 4,096 cycles (R206, log entry 27). -/
def State.nextResolution (s : State) : Option State :=
  (s.placed.find? fun h =>
    let t := s.focus h.ident.id
    t.openHead.isSome && !s.told h.ident.id &&
      (t.overdue || !(s.placed.any fun k => k.core == h.core && (s.focus k.ident.id).canWork))).map fun h =>
    s.onHart h.ident.id fun s => s.resolve ⟨[], [], none, none, none, none⟩ ⟨[], [], none, none, none, none⟩

/-! ### In-field test -/

/-- The launch number that a core's test kernel runs under: none that the scheduler gives. -/
def testSeq (core : Nat) : Nat := 2 ^ 64 + core

/-- A test kernel's hart as firmware prepares it (R215, log entry 40): at U in context 0xFFFF, on one lane group, below every
launch. -/
def State.testHart (s : State) (core : Nat) (cls : Fin 23) (group : Fin 8) (entry : Word) : Hart :=
  let h := Hart.idle (Fin.ofNat 1024 (4 * core))
  { h with
    ident := { h.ident with seq := testSeq core, serial := s.tick }
    scalar := { h.scalar with pc := entry, csptr := mkCsptr (Config.spillArea s.tick).toNat 0 }
    xctx := ((s.descriptor 0xFFFF).2).getD ⟨0xFFFF, 0, 0⟩
    trap := { h.trap with tvec := s.fdie.rtvec }
    ctl := { h.ctl with vlgcapEn := true, usemask := 0x7FFFFF }
    marks := { h.marks with halted := false, test := some (cls, group) } }

/-- A slot of a core that no hart holds, with room for one more hart of the least share (R12, R215). -/
def State.testSlot (s : State) (core : Nat) : Option HartId :=
  let hs := s.placed.filter fun h => h.core == core
  if (hs.map fun h => shareWords h.v.share).sum + shareWords 0 ≤ 8192 then
    ((List.range 4).find? fun i => !(hs.any fun h => h.slot == i)).map fun i => Fin.ofNat 1024 (4 * core + i)
  else none

/-- A test kernel's hart put into a slot that no launch can use now (R215). -/
def State.placeTest (s : State) (h : Hart) : Option State :=
  if s.placing && s.coreTakes h.core && s.headLaunch.isNone then
    (s.testSlot h.core).map fun id =>
      (({ s with savedTests := s.savedTests.filter fun k => k.ident.seq ≠ h.ident.seq }).addHart
        (h.restoredForm id 8 s.cycle)).dropRemote h.core
  else none

/-- A test kernel that waits for a slot gets one (R215), not in an endgame (R401). -/
def State.nextTest (s : State) : Option State := s.savedTests.findSome? s.placeTest

/-- TEST_KERNEL_PLACEMENT (R213, R215): firmware verifies the kernel's signature; the test is pending for the core, and the
kernel takes a slot as soon as no launch can use it. -/
def execTestKernelPlacement (core : CoreId) (cls : Fin 23) (group : Fin 8) (image : TestImage) (signature : List Byte)
    (s : State) : Answered :=
  let c := s.core core.val
  .next (
    if rsaVerify 0 (sha256 image.bytes) signature && s.placing && s.coreOnline core.val && c.lanemap.getLsbD group.val &&
        c.testKernel.isNone then
      let s := s.setCore core.val { c with testPending := true, testKernel := some (cls, group) }
      let s := { s with savedTests := s.savedTests ++ [s.testHart core.val cls group image.entry] }
      (s.nextTest.getD s).fresh
    else s)

/-- A mismatch of a test kernel (R197, R215): for class scalar the core goes offline; else the group is retired, and mismatches
on two groups within one window fence the class. -/
def State.testFailed (s : State) (core : Nat) (cls : Fin 23) (g : Fin 8) : State :=
  let c := s.core core
  let ms := (cls, g, s.cycle) :: c.mismatches.filter fun m => decide (s.cycle - verdictWindow ≤ m.2.2)
  let s := s.setCore core { c with mismatches := ms }
  if cls = 0 then s.offline core (some 0)
  else
    let s := s.retireFor core g (some cls.val)
    if ms.any fun m => m.1 == cls && m.2.1 != g then s.fenceClass core cls.val else s

/-- What passing a test gives (R212): class mxf64 is no longer fenced, unless it is fenced for good. One test passed on any lane
group of the core is its test (the model's choice, log entry 81). -/
def Core.passed (c : Core) (cls : Fin 23) : Core :=
  if cls = 13 then { c with testPassed := true, cap := c.cap ||| (BitVec.ofNat 23 (2 ^ 13) &&& ~~~c.fenced) } else c

/-- TEST_KERNEL_VERDICT (R212, R215): the output's digest is compared with the signed one; the test is over. -/
def execTestKernelVerdict (core : CoreId) (cls : Fin 23) (group : Fin 8) (output expected : List Byte) (s : State) :
    Answered :=
  .next (
    if s.coresOn && (s.core core.val).testKernel = some (cls, group) then
      let s := s.endTest core.val
      if sha256 output = expected then s.setCore core.val ((s.core core.val).passed cls)
      else s.testFailed core.val cls group
    else s)

end Sys2Proof.Machine
end

