-- ==== Sys2Proof/Machine/Outside.lean ====
section
/-! DEFINITION. The outside of the package: host registers and memory (R32 to R36, R412 to R415), remote accesses (R356 to
R360), links (R306, R391), TLB invalidations by register (R353), and errors that arise in storage (R378, R379). -/

namespace Sys2Proof.Machine

/-! ### Host registers -/

/-- The host as a party (R356). -/
def State.hostParty (s : State) : Requester := ⟨3, 0, s.pkg, 0⟩

/-- What the outside received. -/
def State.say (s : State) (a : Answer) : State := { s with lastAnswer := some a }

/-- Whether the package serves accesses from outside: it has power, and its cores have not stopped for an endgame, whose items
are saved as memory stands at the stop (R399, R402, log entry 44). -/
def State.serving (s : State) : Bool := !s.power.poweredOff && !(s.power.endgame && !s.power.window)

/-- Whether the host reaches the package. -/
def State.attached (s : State) : Bool := s.power.cxlUp && s.serving

/-- A host write of an 8-byte register: it passes the MGMT table; a refused one completes with completer abort (R412,
R413). -/
def State.hostRegister (s : State) (la : Nat) (v : Word) : State :=
  if !s.attached then s.say .error
  else
    match s.checkLocal s.hostParty .store (s.pkg.toNat * 2 ^ 40 + la) with
    | (s, true) => (s.deviceWrite 3 la (natBytes 8 v.toNat)).say .ok
    | (s, false) => s.say .completerAbort

/-- LAUNCHPORT_WRITE (R33). -/
def execLaunchportWrite (p : Fin 8) (v : BitVec 64) (s : State) : Answered :=
  .next (s.hostRegister (0xF000000000 + 8 * p.val) v)

/-- LPSTAT_ERR_CLEAR (R34). -/
def execLpstatErrClear (mask : BitVec 8) (s : State) : Answered :=
  .next (s.hostRegister 0xF000000040 (mask.setWidth 64))

/-- REGISTER_WRITE (R415). -/
def execRegisterWrite (off : Nat) (v : BitVec 64) (s : State) : Answered :=
  .next (if off < 0x1000 then s.hostRegister (0xF000001000 + off) v else s.say .error)

/-- PWRCTL_P0 (R419). -/
def execPwrctlP0 (s : State) : Answered := .next (s.hostRegister 0xF000001038 0)
/-- PWRCTL_P1 (R419). -/
def execPwrctlP1 (s : State) : Answered := .next (s.hostRegister 0xF000001038 1)
/-- PWRCTL_RET (R419). -/
def execPwrctlRet (s : State) : Answered := .next (s.hostRegister 0xF000001038 2)
/-- PWRCTL_OFF (R419). -/
def execPwrctlOff (s : State) : Answered := .next (s.hostRegister 0xF000001038 3)

/-- PWRSTAT_ERR_CLEAR (R415). -/
def execPwrstatErrClear (s : State) : Answered := .next (s.hostRegister 0xF000001040 512)

/-- MBSTAT_CLEAR (R422). -/
def execMbstatClear (mask : BitVec 2) (s : State) : Answered :=
  .next (s.hostRegister 0xF000010008 (BitVec.ofNat 64 (2 * mask.toNat)))

/-- The word of a TLBINVR write (R353). -/
def tlbinvWord (kind : Nat) (ctx : BitVec 16) (vpn : BitVec 41) : Word :=
  BitVec.ofNat 64 (vpn.toNat * 2 ^ 23 + ctx.toNat * 128 + kind)

/-- TLBINVR_ALL (R353). -/
def execTlbinvrAll (s : State) : Answered := .next (s.hostRegister 0xF000001010 (tlbinvWord 0 0 0))
/-- TLBINVR_CONTEXT (R353). -/
def execTlbinvrContext (ctx : BitVec 16) (s : State) : Answered :=
  .next (s.hostRegister 0xF000001010 (tlbinvWord 1 ctx 0))
/-- TLBINVR_PAGE (R353). -/
def execTlbinvrPage (ctx : BitVec 16) (vpn : BitVec 41) (s : State) : Answered :=
  .next (s.hostRegister 0xF000001010 (tlbinvWord 2 ctx vpn))

/-- The invalidations by register that are over: every access translated with an entry that one drops has been performed, chunks
included (R353, log entry 39). -/
def State.endInvalidation (s : State) : Option State :=
  let left := s.fdie.tlbInv.filter fun i => s.tlbHeld none i.1 i.2.1 i.2.2
  if left.length < s.fdie.tlbInv.length then some { s with fdie := { s.fdie with tlbInv := left } } else none

/-- TLB_INVALIDATION_COMPLETE (R353). -/
def execTlbInvalidationComplete (s : State) : Answered := .next (s.endInvalidation.getD s)

/-! ### Host memory accesses -/

/-- Bytes inside one 64-byte line. -/
def inLine (addr n : Nat) : Bool := decide (addr % 64 + n ≤ 64)

/-- The transient errors of a range dropped: the data is fetched again (R379). -/
def State.refetch (s : State) (pa n : Nat) : State := (granules pa n).foldl State.dropTransient s

/-- A host read of device memory or of BAR0 (R379, R412, R413). -/
def State.hostRead (s : State) (addr n : Nat) : State :=
  let pa := s.pkg.toNat * 2 ^ 40 + addr
  if !s.attached || !inLine addr n then s.say .error
  else if addr < 0x9000000000 then
    match s.checkLocal s.hostParty .load pa with
    | (s, true) => (s.refetch pa n).say (.data (s.localBytes addr n) (s.poisoned pa n))
    | (s, false) => s.say (.data [] true)
  else if 0xF000000000 ≤ addr ∧ addr < 0xF000200000 then
    match s.checkLocal s.hostParty .load pa with
    | (s, true) => s.say (.data (s.localBytes addr n) false)
    | (s, false) => s.say .completerAbort
  else s.say .error

/-- HOST_MEM_READ (R413). -/
def execHostMemRead (addr : Nat) (size : Fin 65) (s : State) : Answered := .next (s.hostRead addr size.val)

/-- A host write of device memory or of BAR0 (R412, R413). -/
def State.hostWrite (s : State) (addr : Nat) (bytes : List Byte) : State :=
  let pa := s.pkg.toNat * 2 ^ 40 + addr
  if !s.attached || !inLine addr bytes.length then s.say .error
  else if addr < 0x9000000000 then
    match s.checkLocal s.hostParty .store pa with
    | (s, true) => (s.physWrite s.hostParty pa bytes).say .ok
    | (s, false) => s.say .dropped
  else if 0xF000000000 ≤ addr ∧ addr < 0xF000200000 then
    match s.checkLocal s.hostParty .store pa with
    | (s, true) => (s.physWrite s.hostParty pa bytes).say .ok
    | (s, false) => s.say .completerAbort
  else s.say .error

/-- HOST_MEM_WRITE (R413). -/
def execHostMemWrite (addr : Nat) (bytes : List Byte) (s : State) : Answered := .next (s.hostWrite addr bytes)

/-! ### Remote accesses -/

/-- The requester of a remote access (R356, R360). -/
def RemoteReq.party (r : RemoteReq) : Requester := ⟨2, r.ctx, r.pkg, r.core.toNat⟩

/-- What a remote access needs (R357). -/
def remoteKind : RemoteOp → AccessKind
  | .load _ => .load
  | .store _ => .store
  | .atomic _ _ _ => .atomic

/-- The atomic operation of a number, in the order of R250. -/
def amoOfNum (n : Fin 9) : AmoOp :=
  match n.val with
  | 0 => .add
  | 1 => .min
  | 2 => .max
  | 3 => .minu
  | 4 => .maxu
  | 5 => .and
  | 6 => .or
  | 7 => .xor
  | _ => .swp

/-- The effect of a permitted remote access (R221). -/
def State.remoteDone (s : State) (r : RemoteReq) : State :=
  let pa := s.pkg.toNat * 2 ^ 40 + r.addr
  let p := RemoteReq.party r
  match r.op with
  | .load sz => (s.refetch pa sz.bytes).say (.data (s.localBytes r.addr sz.bytes) (s.poisoned pa sz.bytes))
  | .store bs => (s.physWrite p pa bs).say .ok
  | .atomic op dbl b =>
    let n := amoBytes dbl
    let old := s.localBytes r.addr n
    let v := amoValue (amoOfNum op) (8 * n) (leNat old) (b.toNat % 2 ^ (8 * n))
    ((s.refetch pa n).physWrite p pa (natBytes n v)).say (.data old (s.poisoned pa n))

/-- A remote access entering the package (R356, R359, R360): FIN's table first, then the home's. -/
def State.remoteAccess (s : State) (r : RemoteReq) : State :=
  let pa := s.pkg.toNat * 2 ^ 40 + r.addr
  let p := RemoteReq.party r
  let k := remoteKind r.op
  if 2 ^ 40 ≤ r.addr || !s.serving then s.say .error
  else if !s.permits 9 p.cls k r.addr then (s.logViolation 9 p k pa).say .error
  else
    match s.checkLocal p k pa with
    | (s, true) => s.remoteDone r
    | (s, false) => s.say .error

/-- REMOTE_ACCESS_INGRESS (R356). -/
def execRemoteAccessIngress (r : RemoteReq) (s : State) : Answered := .next (s.remoteAccess r)

/-- VIOLATION_LOG_CLEAR (R360): the management controller writes 1 to bit [4] of a log control word. -/
def execViolationLogClear (t : Fin 11) (s : State) : Answered := .next (s.clearVlog t)

/-- REMOTE_ACCESS_TIMEOUT (R391): 2^20 cycles after a remote access without a path, the access and the copies of the hart
receive their error responses. -/
def execRemoteAccessTimeout (h : HartId) (s : State) : Answered :=
  .next (s.onHart h fun s =>
    let s := match s.hart.marks.wait with
      | .remote _ => s.block (.remote true)
      | _ => s
    s.failPathless)

/-! ### Links -/

/-- The lanes of a port set. -/
def State.setLanes (s : State) (port : Fin 32) (n : Nat) : State :=
  { s with power := { s.power with lanes := listSet s.power.lanes port.val n } }

/-- LINK_LANE_LOSS (R306, R391): the link falls to 2 lanes; a link that loses every lane aborts the rounds whose traffic it
carries. -/
def execLinkLaneLoss (port : Fin 32) (all : Bool) (s : State) : Answered :=
  .next (
    if all then
      let s := s.setLanes port 0
      (s.rounds.filter fun r => r.links.contains port.val).foldl State.abortRound s
    else s.setLanes port (min 2 (s.power.lanes.getD port.val 0)))

/-- A port retrained to a number of lanes, with the retrain counted (R391, R421). -/
def State.retrain (s : State) (port : Fin 32) (n : Nat) : State :=
  let s := s.setLanes port n
  { s with power := { s.power with retrains := listSet s.power.retrains port.val (s.power.retrains.getD port.val 0 + 1) } }

/-- A link reset, at which firmware retrains the port to its 4 lanes (R391). -/
def State.linkReset (s : State) (port : Fin 32) : State := s.retrain port 4

/-- LINK_RETRAIN_COMPLETE (R391): a link with working lanes has retrained to 2. -/
def execLinkRetrainComplete (port : Fin 32) (s : State) : Answered :=
  .next (if s.power.lanes.getD port.val 0 = 0 then s else s.retrain port 2)

/-! ### Errors in storage -/

/-- A place of a hart that cannot be corrected. -/
def State.markHart (s : State) (h : HartId) (p : ErrorPlace) : State :=
  s.mapHarts fun k =>
    if k.ident.id = h && !k.marks.badRegs.contains p then { k with marks := { k.marks with badRegs := p :: k.marks.badRegs } }
    else k

/-- A place of a core that cannot be corrected. -/
def State.markCore (s : State) (c : Nat) (p : ErrorPlace) : State :=
  let k := s.core c
  if k.bad.contains p then s else s.setCore c { k with bad := p :: k.bad }

/-- A corrected error of a kind counted at its die, up to the largest count (R378, R421). -/
def State.countCorrected (s : State) (die : Fin 4) (kind : Fin 6) : State :=
  let i := 6 * die.val + kind.val
  let n := (assocGet s.mgmt.corrected i).getD 0
  { s with mgmt := { s.mgmt with corrected := assocSet s.mgmt.corrected i (min (n + 1) (2 ^ 64 - 1)) } }

/-- UNCORRECTABLE_ERROR (R379, R380): at its home the granule is poisoned, in a clean cached copy the error is transient,
elsewhere the place cannot be corrected until it is written. -/
def execUncorrectableError (place : ErrorPlace) (s : State) : Answered :=
  .next (match place with
    | .home g => s.poisonRange (32 * g) 32
    | .cached g =>
      if s.store.transient.contains g then s
      else { s with store := { s.store with transient := g :: s.store.transient } }
    | .vectorRegister h _ => s.markHart h place
    | .weightSlot h _ => s.markHart h place
    | .scalarRegister h _ => s.markHart h place
    | .maskRegister h _ => s.markHart h place
    | .callStack h => s.markHart h place
    | .storeBuffer h => s.markHart h place
    | .queue c _ => s.markCore c.val place
    | .gate c _ => s.markCore c.val place)

/-! ### The runtime and other packages -/

/-- L in bytes (R218). -/
def l1Sizes (i : Fin 4) : Nat := if i = 0 then 0 else 2 ^ (17 + i.val)

/-- The runtime sets L of a core, which holds no hart then (R220); the new L1 is empty. -/
def State.setL1 (s : State) (core : Fin 256) (i : Fin 4) : State :=
  if s.placed.any fun h => h.core == core.val then s
  else
    { s.setCore core.val { s.core core.val with l1Bytes := l1Sizes i } with
      store := { s.store with far := { s.store.far with l1 := s.store.far.l1.filter fun c => c.unit != core.val } } }

/-- Another package as it now is, or gone (R220, R221, R295, log entry 16). -/
def State.setPeer (s : State) (pkg : BitVec 17) (p : Option Peer) : State :=
  { s with store := { s.store with
      peers := match p with
        | some q => assocSet s.store.peers pkg.toNat q
        | none => s.store.peers.filter fun k => k.1 ≠ pkg.toNat } }

end Sys2Proof.Machine
end

