-- ==== Sys2Proof/Machine/Holdup.lean ====
section
/-! DEFINITION. Power failure and the endgame (R401 to R405), and the classification at a restart (R393, R406, R408). -/

namespace Sys2Proof.Machine

/-! ### The detector -/

/-- Debug halts released (R365). -/
def State.releaseHalts (s : State) : State :=
  s.mapHarts fun h => { h with marks := { h.marks with debugHalted := false, debugStep := false } }

/-- A hart when the detector fires (R401): a save in progress is abandoned, no yield is asked of it any more, it has
sealed nothing in this window, and it receives cause 0x1A. -/
def Hart.powerFailMark (h : Hart) : Hart :=
  { h with
    ctl := { h.ctl with preqReq := false, preqLeft := 0 }
    marks := { h.marks with powerFail := true, sealed := false, saving := false, savedLive := none, forced := false } }

/-- Launches whose harts stop when the detector fires: those that run without a grant (R401). -/
def State.lostLaunches (s : State) : List Nat :=
  (s.placed.filter fun h => !h.granted).map fun h => h.ident.seq

/-- What a stopping core completes for the current hart (R401, R402): uncommitted stores are discarded, stores of committed
strips and chunks already writing are performed. -/
def State.drainHart (s : State) : State :=
  let t := ((s.withHart Hart.discardStores).settleStores).drainCopies
  t.sendUnordered t.hart

/-- A hart stops with nothing of its committed work left behind, and leaves (R401). -/
def State.stopHart (s : State) (h : HartId) : State := (s.onHart h State.drainHart).unplace h

/-- The detector fires (R401): granted harts receive cause 0x1A, every other hart stops and its launch is lost; a test kernel
is over. -/
def State.powerFail (s : State) : State :=
  if s.power.endgame || s.power.poweredOff || s.power.state == .off then s
  else
    let lost := s.lostLaunches
    let second := s.holdup.charging
    let derated := decide (s.holdup.capunits < s.granted)
    let s := lost.foldl (fun t q => t.abortLaunchRounds q) s
    let s := ((s.placed.filter fun h => !h.granted).map fun h => h.ident.id).foldl State.stopHart s
    let s := (s.mapHarts fun h => if h.marks.halted then h else h.powerFailMark).releaseHalts
    { s with
      power := { s.power with endgame := true, window := true, unsealed := false }
      holdup := { s.holdup with second := second, derated := derated }
      sched := { s.sched with launches := s.sched.launches.filter fun l => !lost.contains l.seq }
      savedTests := []
      cores := s.cores.map fun p => (p.1, { p.2 with testPending := false, testKernel := none }) }

/-- UNDERVOLTAGE_DETECT (R401). -/
def execUndervoltageDetect (s : State) : Answered := .next s.powerFail

/-- THERMAL_TRIP (R420): as a power failure. -/
def execThermalTrip (s : State) : Answered := .next s.powerFail

/-! ### The end of the window -/

/-- Every store to an unordered page that its hart has left pending, sent home (R237, R402). -/
def State.sendAll (s : State) : State :=
  ((s.store.far.pendingUn.map fun p => p.1).dedup).foldl
    (fun t key => State.sendPending key ⟨0, 0, t.pkg, 0⟩ t.store.far.pendingUn [] t) s

/-- A granted slot with the lengths that SEAL recorded in its launch (R399, R403). -/
def State.slotLengths (s : State) (p : Fin 64 × HoldSlot) : Fin 64 × HoldSlot :=
  match s.sched.launches.find? fun l => l.slot == some p.1 with
  | some l => if p.2.state = 1 then (p.1, { p.2 with items := (l.hold.map fun d => d.items).getD p.2.items }) else p
  | none => p

/-- Whether slot `a` is saved before slot `b`: by priority, then by acceptance (R403). -/
def slotBefore (a b : Fin 64 × HoldSlot) : Bool :=
  decide (b.2.prio < a.2.prio) || (a.2.prio == b.2.prio && decide (a.2.accepted < b.2.accepted))

/-- A slot inserted in the order of R403. -/
def insertSlot (p : Fin 64 × HoldSlot) : List (Fin 64 × HoldSlot) → List (Fin 64 × HoldSlot)
  | [] => [p]
  | q :: rest => if slotBefore p q then p :: q :: rest else q :: insertSlot p rest

/-- The writes of one item of a slot (R403). -/
def itemPlan (n : Fin 64) (i : Nat) (it : HoldItem) : List HoldWrite :=
  .item n i :: ((List.range (ceilDiv it.len 64)).map fun j => .block n i (64 * j)) ++ [.sealRecord n i]

/-- The writes of one slot (R403). -/
def slotPlan (p : Fin 64 × HoldSlot) : List HoldWrite :=
  .slot p.1 :: (p.2.items.zipIdx.flatMap fun q => itemPlan p.1 q.2 q.1)

/-- The writes of the endgame: the granted slots in the order of R403. -/
def State.endgamePlan (s : State) : List HoldWrite :=
  ((s.holdup.slots.filter fun p => p.2.state == 1).foldl (fun l p => insertSlot p l) []).flatMap slotPlan

/-- 1/1024 of a microjoule in a millijoule. -/
def unitsPerMj : Nat := 1024000

/-- The allowance of R393: 0.44 J of a reserve, or all of a smaller one. -/
def allowanceOf (reserve : Nat) : Nat := min reserve (440 * unitsPerMj)

/-- The reserve at the start of the endgame: E, or less than E while the capacitors recharge (R394, log entry 20). -/
def State.startReserve (s : State) : Nat :=
  let e := s.holdup.emj * unitsPerMj
  if s.holdup.charging then Config.partialReserve s.tick % max 1 e else e

/-- The cores stop (R402): committed stores and chunks already writing complete, everything uncommitted is discarded,
and the hold-up engine starts. -/
def State.stopCores (s : State) : State :=
  if !s.power.window then s
  else
    let s := ((s.placed.map fun h => h.ident.id).foldl (fun t id => t.onHart id State.drainHart) s).sendAll
    let s := { s with holdup := { s.holdup with slots := s.holdup.slots.map s.slotLengths } }
    { s with
      hart := { s.hart with marks := { s.hart.marks with halted := true } }
      others := []
      power := { s.power with window := false }
      sched := { s.sched with launches := [] }
      rounds := []
      holdup := { s.holdup with
        plan := s.endgamePlan
        reserve := s.startReserve - allowanceOf s.startReserve
        allowance := allowanceOf s.startReserve } }

/-- POWER_FAIL_WINDOW_END (R402). -/
def execPowerFailWindowEnd (s : State) : Answered := .next s.stopCores

/-- SUPPLY_OUT_OF_SPEC (R401): the cores stop at that moment. -/
def execSupplyOutOfSpec (s : State) : Answered := .next s.stopCores

/-- Whether every hart that received cause 0x1A has sealed inside the window, those that have ended included (R402). -/
def State.allSealed (s : State) : Bool :=
  s.power.window && !s.power.unsealed && s.placed.all fun h => h.marks.sealed

/-! ### The hold-up engine -/

/-- Energy of a directory or seal write with its page walks: within the allowance of R393 (log entry 20). -/
def sideUnits : Nat := Config.sideCost % 27286

/-- Energy of the shut-down: within the allowance of R393 (log entry 20). -/
def shutdownUnits : Nat := Config.shutdownCost % 225280000

/-- The hold-up unit after one write of the engine is paid for, when the reserve covers it and shut-down (R393, R403):
273 microjoules for the 1,024 data writes of a unit; directory and seal writes and shut-down come from the allowance. -/
def Holdup.pay (u : Holdup) : HoldWrite → Option Holdup
  | .block _ _ _ => if 273 ≤ u.reserve then some { u with reserve := u.reserve - 273 } else none
  | _ => if sideUnits + shutdownUnits ≤ u.allowance then some { u with allowance := u.allowance - sideUnits } else none

/-- The slot of a number. -/
def State.slot (s : State) (n : Fin 64) : Option HoldSlot := assocGet s.holdup.slots n

/-- 64 bytes of an item read through its context's tables (R403), with the FAULT and POISON they raise. -/
def State.readItem (s : State) (xc : XlateCtx) (va : Nat) : State × List Byte × Bool × Bool :=
  let zeros := List.replicate 64 (0 : Byte)
  match s.translate (s.unit xc.ctxid) xc .s .load va with
  | (s, .error _) => (s, zeros, true, false)
  | (s, .ok (pa, _)) =>
    match s.physRead (s.unit xc.ctxid) .load pa 64 none with
    | (s, .bytes bs none) => (s, bs, false, false)
    | (s, .bytes bs (some _)) => if s.poisoned pa 64 then (s, zeros, false, true) else (s, bs, false, false)
    | (s, _) => (s, zeros, true, false)

/-- Bytes of the data region written. -/
def State.writeMdie (s : State) (a : Nat) (bs : List Byte) : State :=
  { s with holdup := { s.holdup with mdie := writeBytes s.holdup.mdie a bs } }

/-- The seal record of an item (R405). -/
def sealBytes (h : HoldSlot) (i : Nat) (it : HoldItem) (fault poison : Bool) (data : List Byte) : List Byte :=
  natBytes 4 0x5EA1C0DE ++ natBytes 2 i ++ natBytes 2 (bit01 poison * 2 + bit01 fault) ++ natBytes 4 h.epoch.toNat ++
    natBytes 4 it.id.toNat ++ natBytes 8 it.len ++ natBytes 8 it.vaddr.toNat ++ sha256 data

/-- The first directory write of a slot (R403, R408). -/
def HoldSlot.opened (h : HoldSlot) (second derated : Bool) : HoldSlot :=
  { h with epoch := h.epoch + 1, begun := 0, state := 2, second := second, derated := derated }

/-- One write of the engine carried out (R403). -/
def State.holdWrite (s : State) (w : HoldWrite) : State :=
  match w with
  | .slot n =>
    match s.slot n with
    | some h => s.setSlot n (h.opened s.holdup.second s.holdup.derated)
    | none => s
  | .item n i =>
    match s.slot n with
    | some h =>
      let s := s.setSlot n { h with begun := h.begun ||| BitVec.ofNat 64 (2 ^ i) }
      { s with holdup := { s.holdup with fault := false, poison := false } }
    | none => s
  | .block n i off =>
    match s.slot n with
    | some h =>
      let it := h.items.getD i ⟨0, 0, 0, 0⟩
      let (s, bs, f, p) := s.readItem ⟨h.ctxid, h.ptroot, h.strbase⟩ (it.vaddr.toNat + off)
      let s := s.writeMdie (h.bases.getD i 0 + off) bs
      { s with holdup := { s.holdup with fault := s.holdup.fault || f, poison := s.holdup.poison || p } }
    | none => s
  | .sealRecord n i =>
    match s.slot n with
    | some h =>
      let it := h.items.getD i ⟨0, 0, 0, 0⟩
      let base := h.bases.getD i 0
      let data := readBytes s.holdup.mdie base it.len
      s.writeMdie (base + it.maxlen) (sealBytes h i it s.holdup.fault s.holdup.poison data)
    | none => s

/-- The package powers off (R403, R404). -/
def State.powerOff (s : State) : State :=
  { s with power := { s.power with poweredOff := true, endgame := false }, holdup := { s.holdup with plan := [] } }

/-- The next write of the engine: made when the reserve covers it and shut-down; otherwise, and after the last one, the
package powers off (R403). -/
def State.engineStep (s : State) : State :=
  if !s.power.endgame || s.power.window then s
  else
    match s.holdup.plan with
    | [] => s.powerOff
    | w :: rest =>
      match s.holdup.pay w with
      | some u => ({ s with holdup := { u with plan := rest } }).holdWrite w
      | none => s.powerOff

/-- HOLDUP_ENGINE_WRITE (R403). -/
def execHoldupEngineWrite (s : State) : Answered := .next s.engineStep

/-- RECHARGE_COMPLETE (R394): CHARGING clears, unless power is failing. -/
def execRechargeComplete (s : State) : Answered :=
  .next (if s.power.endgame || s.power.poweredOff then s
    else { s with holdup := { s.holdup with charging := false } })

/-! ### Restart -/

/-- CAPUNITS of a measured reserve in mJ (R393). -/
def capunitsOf (emj : Nat) : Nat := min 7168 ((emj - 440) * 1000 / 273)

/-- The class of one item of a saved slot (R406). -/
def classifyItem (mdie : Mem) (h : HoldSlot) (i base : Nat) (it : HoldItem) : RestoredItem :=
  let sl := readBytes mdie (base + it.maxlen) 64
  let len := leField sl 0x10 8
  let flags := leField sl 6 2
  if !h.begun.getLsbD i then ⟨3, false, false, false, 0⟩
  else if leField sl 0 4 = 0x5EA1C0DE ∧ leField sl 8 4 = h.epoch.toNat ∧ leField sl 4 2 = i ∧ len ≤ it.maxlen ∧
      (sl.drop 0x20).take 32 = sha256 (readBytes mdie base len) then
    ⟨1, flags % 2 == 1, flags / 2 % 2 == 1, false, len⟩
  else ⟨2, false, false, false, 0⟩

/-- A slot as firmware finds it at boot: a slot still GRANTED becomes SAVED with nothing begun (R408), and the items of
a SAVED or RESTORING slot are classified (R406). -/
def bootSlot (mdie : Mem) (h : HoldSlot) : HoldSlot :=
  let h := if h.state = 1 then { h with state := 2, begun := 0 } else h
  if h.state = 0 then h
  else { h with classes := ((h.bases.zip h.items).zipIdx).map fun p => classifyItem mdie h p.2 p.1.1 p.1.2 }

/-- The hold-up unit at a boot (R393, R394, R406, R408); E is measured at a cold boot only. -/
def Holdup.boot (u : Holdup) (cold : Bool) (emj : Nat) : Holdup :=
  let slots := u.slots.map fun p => (p.1, bootSlot u.mdie p.2)
  { u with
    emj := if cold then emj else u.emj
    capunits := if cold then capunitsOf emj else u.capunits
    charging := cold || u.charging
    slots := slots
    mdie := slots.foldl (fun m p => writeDirectory m p.1 p.2) u.mdie
    plan := []
    reserve := 0
    allowance := 0 }

end Sys2Proof.Machine
end

