-- ==== Sys2Proof/Machine/Power.lean ====
section
/-! DEFINITION. Reset and bring-up (R357, R358, R367, R416, R417), power states (R419) and throttling (R420). -/

namespace Sys2Proof.Machine

/-! ### Measured boot -/

/-- A measurement register extended with a digest (R367). -/
def extendMr (mrs : List (List Byte)) (i : Nat) (digest : List Byte) : List (List Byte) :=
  listSet mrs i (sha256 (mrs.getD i [] ++ digest))

/-- Whether a boot stage carries the signature of the firmware key over its digest (R367, log entry 18). -/
def stageSigned (b : BootStage) : Bool := rsaVerify 5 (sha256 b.image) b.signature

/-- The measured boot of stages `i` and up (R367); whether it completed. A stage whose signature fails stops boot in SECURE; in
the other states it runs, and its failure is measured. -/
def bootStages (lc : Lifecycle) : List BootStage → Nat → List (List Byte) → List (List Byte) × Bool
  | [], _, m => (m, true)
  | b :: rest, i, m =>
    if stageSigned b then bootStages lc rest (i + 1) (extendMr m i (sha256 b.image))
    else if lc = .secure then (m, false)
    else bootStages lc rest (i + 1) (extendMr (extendMr m i (sha256 b.image)) 4 (Config.bootFailure i))

/-- The five stages that the boot ROM loads; one that is not there is empty (R367). -/
def fiveStages (bs : List BootStage) : List BootStage := (List.range 5).map fun i => bs.getD i ⟨[], []⟩

/-- The MGMT tables as firmware leaves them at the end of boot (R358), beside the tables of reset (R357). -/
def bootAccess : List AccessEntry :=
  (List.finRange 11).map AccessEntry.everything ++
    [⟨10, 3, 0, 0xF000000007, 0xF0001F0000⟩, ⟨10, 0, 0, 0xF800000007, 0xFFFFFF0000⟩,
      ⟨10, 1, 0, 0xF800000007, 0xFFFFFF0000⟩]

/-! ### Reset -/

/-- A core at a reset: its fences and retirements stand (R208 to R210), class mxf64 waits for its test (R212). The counts of
verdicts and of test mismatches start again: the spec only says that fences and retirements persist, and that the counts do
not is the model's choice (R208, log entry 41). -/
def Core.restart (c : Core) : Core :=
  { Core.boot with
    lanemap := c.lanemap &&& ~~~c.marked, fenced := c.fenced, cap := Core.boot.cap &&& ~~~c.fenced }

/-- The package after a reset (R367, R393, R406, R416): everything at its reset value but what persists. A cold boot
measures the stages and the reserve, and finds memory as a first power-on does (log entry 3). -/
def State.packageReset (s : State) (cold : Bool) (emj : Nat) (stages : List BootStage) : State :=
  let (mrs, ok) :=
    if cold then bootStages s.mgmt.lifecycle (fiveStages stages) 0 State.reset.mgmt.mrs else (s.mgmt.mrs, s.power.bootOk)
  { State.reset with
    agenda := s.agenda
    turns := s.turns
    tick := s.tick
    pkg := s.pkg
    store := { State.reset.store with
      mem := if cold then [] else s.store.mem
      poison := if cold then [] else s.store.poison
      host := s.store.host
      peers := s.store.peers }
    access := if ok then bootAccess else State.reset.access
    cores := s.cores.map fun p => (p.1, p.2.restart)
    power := { State.reset.power with bootOk := ok }
    holdup := s.holdup.boot cold emj
    mgmt := { State.reset.mgmt with lifecycle := s.mgmt.lifecycle, mrs := mrs, nonces := s.mgmt.nonces } }

/-- PACKAGE_RESET (R367, R393, R406, R416). -/
def execPackageReset (cold : Bool) (boot : BootLoad) (s : State) : Answered :=
  .next (s.packageReset cold boot.energyMj boot.stages)

/-! ### Bring-up -/

/-- A change of bring-up or power, made while the package has power. -/
def State.whenPowered (s : State) (k : State → State) : State :=
  if s.power.endgame || s.power.poweredOff then s else k s

/-- Bit `d` of a 4-bit status. -/
def dieBit (d : Fin 4) : BitVec 4 := BitVec.ofNat 4 (2 ^ d.val)

/-- A step of the bring-up that follows measured boot: a boot that a signature failure has stopped goes no further (R367,
R416). -/
def State.whenBooted (s : State) (k : State → State) : State := s.whenPowered fun s => if s.power.bootOk then k s else s

/-- SDIE_SELF_TEST_PASS (R416): once the CXL link has trained; the die enters reduced service. -/
def execSdieSelfTestPass (die : Fin 4) (s : State) : Answered :=
  .next (s.whenBooted fun s =>
    if s.power.cxlUp then { s with power := { s.power with sdOk := s.power.sdOk ||| dieBit die } } else s)

/-- BULK_TRAINING_COMPLETE (R416): after the die's self-test. -/
def execBulkTrainingComplete (die : Fin 4) (s : State) : Answered :=
  .next (s.whenBooted fun s =>
    if s.power.sdOk.getLsbD die.val then { s with power := { s.power with bulkOk := s.power.bulkOk ||| dieBit die } } else s)

/-- PORT_TRAINED (R415, R416): after the self-test of a die (log entry 45). -/
def execPortTrained (port : Fin 32) (s : State) : Answered :=
  .next (s.whenBooted fun s =>
    if s.power.sdOk = 0 then s
    else { s with power := { s.power with portUp := s.power.portUp ||| BitVec.ofNat 32 (2 ^ port.val) } })

/-- CXL_LINK_UP (R415, R416). -/
def execCxlLinkUp (s : State) : Answered :=
  .next (s.whenPowered fun s => { s with power := { s.power with cxlUp := true } })

/-- Whether the mxf64 test has passed on every core of a die; an offline core runs no test (R212, R416). -/
def State.dieTested (s : State) (die : Nat) : Bool :=
  (List.range 64).all fun i => (s.core (64 * die + i)).testPassed || (s.core (64 * die + i)).cap == 0

/-- DIE_FULL_SERVICE (R416): BULKOK, the mxf64 tests and no throttle; otherwise nothing changes. -/
def execDieFullService (die : Fin 4) (s : State) : Answered :=
  .next (s.whenPowered fun s =>
    if s.power.sdOk.getLsbD die.val && s.power.bulkOk.getLsbD die.val && !s.power.throttled && s.dieTested die.val then
      { s with power := { s.power with full := s.power.full ||| dieBit die } }
    else s)

/-! ### Power states -/

/-- POWER_TRANSITION_COMPLETE (R419). -/
def execPowerTransitionComplete (s : State) : Answered := .next (s.whenPowered State.powerComplete)

/-- The package in P1 that is to be in P0 enters it, its condition holding (R419). -/
def State.enterP0 (s : State) : State :=
  if s.power.state = .p1 ∧ s.power.req = .p0 ∧ s.p0Ready then
    { s with power := { s.power with state := .p0, target := none } }
  else s

/-- AUTO_P0_ENTRY (R416, R419). -/
def execAutoP0Entry (s : State) : Answered := .next (s.whenPowered State.enterP0)

/-- THERMAL_THROTTLE (R420): the package runs in P1 with THROT set, whichever die it was. -/
def execThermalThrottle (_die : Fin 4) (s : State) : Answered :=
  .next (s.whenPowered fun s =>
    { s with power := { s.power with
        throttled := true, state := if s.power.state = .p0 then .p1 else s.power.state } })

/-- THROTTLE_RELEASE (R420): back to the state requested in PWRCTL. -/
def execThrottleRelease (s : State) : Answered :=
  .next (s.whenPowered fun s => ({ s with power := { s.power with throttled := false } }).enterP0)

end Sys2Proof.Machine
end

