-- ==== Sys2Proof/Machine/Debug.lean ====
section
/-! DEFINITION. What a debugger reads and writes of a hart and of its core (R365): the CSRs with their stored bits, and the
words that no CSR and no register number names (log entries 46 and 66). -/

namespace Sys2Proof.Machine

/-! ### CSRs -/

/-- The CSRs whose write by an instruction does other things than set their bits, or that none can write: their bits as a debugger
sets them; none for any other CSR. -/
def Hart.debugBits (h : Hart) (now n : Nat) (v : Word) : Option Hart :=
  let c := h.ctl
  let x := v.toNat
  match n with
  | 0x004 => some { h with v := { h.v with nvCode := Fin.ofNat 4 x, carried := vcfgList (v >>> 5) (min 4 (x / 4 % 8)) } }
  | 0x007 => some { h with v := { h.v with
      order := v.getLsbD 0, opos := x / 4096 % 2 ^ 19, osrc := v.getLsbD 31, cnt := x / 2 ^ 32 % 2 ^ 19 } }
  | 0x011 => some { h with scalar := { h.scalar with instret := v - h.scalar.vret } }
  | 0x105 => some { h with ctl := { c with vlgcapEn := v.getLsbD 0 } }
  | 0x200 => some { h with ctl := { c with preqReq := v.getLsbD 0, preqLeft := BitVec.ofNat 32 (x / 2), preqSince := now } }
  | 0x201 => some { h with ctl := { c with pdeadline := v.setWidth 32 } }
  | 0x202 => some { h with ctl := { c with prio := Fin.ofNat 8 x, lprio := Fin.ofNat 8 (x / 256) } }
  | 0x404 => some { h with trap := { h.trap with xlinfo := v.setWidth 12 } }
  | 0x501 => some { h with ctl := { c with usemask := v.setWidth 32 } }
  | 0x600 => some { h with ctl := { c with xstatus := v } }
  | 0x700 => some { h with ctl := { c with holdgrant := v.setWidth 32 } }
  | 0x701 => some { h with ctl := { c with pfstat := v } }
  | _ => none

/-- The read-only CSRs whose bits the core or the package holds, written for debug: LANEMAP, CYCLE and CORECAPS (R365); none for any
other. -/
def State.debugShared (s : State) (n : Nat) (v : Word) : Option State :=
  let core := s.core s.hart.core
  match n with
  | 0x005 => some (s.setCore s.hart.core { core with lanemap := v.setWidth 8 })
  | 0x010 => some { s with cycle := v.toNat }
  | 0x500 => some (s.setCore s.hart.core { core with cap := v.setWidth 23 })
  | _ => none

/-- A CSR of the current hart written for debug: its bits only, nothing that the write would bring about; reserved bits are not
stored (R4), and a reserved value or a tile that no instruction could set leaves the CSR as it is (R365, log entry 46). -/
def State.debugCsr (s : State) (n : Nat) (v : Word) : State :=
  let v := v &&& BitVec.ofNat 64 ((csrFields n).getD 0)
  if csrReserved n v || (s.csrShape n v).isSome then s
  else
    (s.debugShared n v).getD (s.withHart fun h =>
      match h.debugBits s.cycle n v with
      | some k => k
      | none =>
        if n < 0x100 then h.writeVector s.lw n v
        else if 0x300 ≤ n ∧ n < 0x500 then h.writeTrap n v
        else h.writeControl n v)

/-! ### Streams and weight slots -/

/-- Word `w` of a stream slot (log entry 66): what it is, or a word of its descriptor and its POS (R258, R259). -/
def streamWord (q : Option StreamSlot) (w : Fin 8) : Nat :=
  match q with
  | none => 0
  | some q =>
    match w.val with
    | 0 => 1 + bit01 q.indirect * 2 + q.width.code * 16 + q.reg.val * 256
    | 1 => q.base.toNat
    | 2 => q.estride.toNat
    | 3 => q.rlen
    | 4 => q.rpitch.toNat
    | 5 => q.idx.toNat
    | 6 => q.count
    | _ => q.pos

/-- A stream of the current hart that a debugger starts from nothing. -/
def Hart.newStream (h : Hart) : StreamSlot :=
  { reg := 0, width := .w8, indirect := false, base := 0, estride := 0, rlen := 1, rpitch := 0, idx := 0, count := 0, pos := 0
    xctx := h.xctx, level := h.scalar.level, fetched := [], again := true }

/-- A stream with word `w` set; its elements are fetched again. -/
def StreamSlot.withWord (q : StreamSlot) (w : Fin 8) (v : Word) : StreamSlot :=
  let q := { q with fetched := [], again := true }
  let x := v.toNat
  match w.val with
  | 0 => { q with indirect := v.getLsbD 1, width := Width.ofCode (x / 16 % 4), reg := Fin.ofNat 64 (x / 256) }
  | 1 => { q with base := v }
  | 2 => { q with estride := v }
  | 3 => { q with rlen := max 1 (x % 2 ^ 32) }
  | 4 => { q with rpitch := v }
  | 5 => { q with idx := v }
  | 6 => { q with count := x }
  | _ => { q with pos := min x q.count }

/-- A stream slot with word `w` set: word 0 starts or ends a stream. -/
def Hart.streamSet (h : Hart) (q : Option StreamSlot) (w : Fin 8) (v : Word) : Option StreamSlot :=
  if w = 0 then (if v.getLsbD 0 then some ((q.getD h.newStream).withWord w v) else none)
  else q.map fun q => q.withWord w v

/-- Word `w` of a weight slot (log entry 66): its descriptor and its bases (R166, R185). -/
def WeightSlot.word (q : WeightSlot) (w : Fin 3) : Nat :=
  match w.val with
  | 0 => bit01 q.valid + bit01 q.masked * 2 + q.fmt % 256 * 256 + q.k % 65536 * 65536 + q.n * 2 ^ 32
  | 1 => q.vbase.toNat
  | _ => q.sbase.toNat

/-- A weight slot with word `w` set. -/
def WeightSlot.withWord (q : WeightSlot) (w : Fin 3) (v : Word) : WeightSlot :=
  let x := v.toNat
  match w.val with
  | 0 => { q with
      valid := v.getLsbD 0, masked := v.getLsbD 1, fmt := x / 256 % 256, k := x / 65536 % 65536, n := x / 2 ^ 32 % 65536 }
  | 1 => { q with vbase := v }
  | _ => { q with sbase := v }

/-! ### Chunk maps, queues and gates -/

/-- A plane of a chunk map: RELEASED, LANDED, SH and BUSY (R265). -/
def ChunkMap.plane (m : ChunkMap) (p : Fin 4) : BitVec 64 :=
  match p.val with
  | 0 => m.released
  | 1 => m.landed
  | 2 => m.sh
  | _ => m.busy

/-- A chunk map with a plane set. -/
def ChunkMap.withPlane (m : ChunkMap) (p : Fin 4) (v : Word) : ChunkMap :=
  match p.val with
  | 0 => { m with released := v }
  | 1 => { m with landed := v }
  | 2 => { m with sh := v }
  | _ => { m with busy := v }

/-- A list cut or filled to `n` members. -/
def resize {α : Type} (l : List α) (n : Nat) (a : α) : List α := l.take n ++ List.replicate (n - l.length) a

/-- A gate as one word (log entry 66): ARR, EXP and PH as GQRY gives them, whether it is bound, and its context. -/
def Gate.word (g : Gate) : Nat :=
  g.arr.toNat + g.exp.toNat * 65536 + bit01 g.ph * 2 ^ 32 + bit01 g.owner.isSome * 2 ^ 33 + (g.owner.getD 0).toNat * 2 ^ 48

/-- A gate set from one word; the launch that bound it stays recorded while it is bound. -/
def Gate.ofWord (g : Gate) (v : Word) : Gate :=
  { g with
    arr := v.setWidth 16, exp := BitVec.ofNat 16 (v.toNat / 65536), ph := v.getLsbD 32
    owner := if v.getLsbD 33 then some (BitVec.ofNat 16 (v.toNat / 2 ^ 48)) else none
    binder := if v.getLsbD 33 then g.binder else none }

/-! ### Places -/

/-- The gate of a number on the current hart's core, as GateId (R273). -/
def State.ownGate (s : State) (g : Fin 2048) : Word := BitVec.ofNat 64 (s.hart.core * 2048 + g.val)

/-- What a debugger reads at a place (R365). -/
def State.debugWord (s : State) : DebugPlace → Nat
  | .callEntry i => (s.hart.scalar.calls.getD i.val 0).toNat
  | .callCount => s.hart.scalar.calls.length
  | .streamWord i w => streamWord s.hart.streams[i] w
  | .mapPlane m p => (s.hart.chunks[m].plane p).toNat
  | .weightWord i w => s.hart.weights[i].word w
  | .weightByte i scale n => ((if scale then s.hart.weights[i].scales else s.hart.weights[i].values).getD n 0).toNat
  | .weightMask i p => (memRead s.hart.weights[i].mask p).toNat
  | .queueCount q => (s.queue s.hart.core q.val).entries.length
  | .queueWord q n second =>
    let e := (s.queue s.hart.core q.val).entries.getD n (0, 0)
    (if second then e.2 else e.1).toNat
  | .gate g => (s.gateOf (s.ownGate g)).word

/-- A weight slot of the current hart changed for debug. -/
def State.debugWeight (s : State) (i : Fin 2) (f : WeightSlot → WeightSlot) : State :=
  s.withHart fun h => { h with weights := h.weights.set i (f h.weights[i]) }

/-- A debugger's write of a place (R365); an entry that does not exist is none. -/
def State.debugSet (s : State) (p : DebugPlace) (v : Word) : State :=
  match p with
  | .callEntry i => s.withHart fun h => { h with scalar := { h.scalar with
      calls := if i.val < h.scalar.calls.length then listSet h.scalar.calls i.val v else h.scalar.calls } }
  | .callCount => s.withHart fun h => { h with scalar := { h.scalar with calls := resize h.scalar.calls (min 32 v.toNat) 0 } }
  | .streamWord i w => s.withHart fun h => h.setStream i (h.streamSet h.streams[i] w v)
  | .mapPlane m p => s.withHart fun h => { h with chunks := h.chunks.set m (h.chunks[m].withPlane p v) }
  | .weightWord i w => s.debugWeight i fun q => q.withWord w v
  | .weightByte i scale n => s.debugWeight i fun q =>
      if 65536 ≤ n then q
      else if scale then { q with scales := payloadWrite q.scales n [v.setWidth 8] }
      else { q with values := payloadWrite q.values n [v.setWidth 8] }
  | .weightMask i p => s.debugWeight i fun q => { q with mask := memWrite q.mask p ((v.setWidth 1).setWidth 8) }
  | .queueCount q =>
    let k := s.queue s.hart.core q.val
    s.setQueue s.hart.core q.val { k with entries := resize k.entries (min k.depth v.toNat) (0, 0) }
  | .queueWord q n second =>
    let k := s.queue s.hart.core q.val
    if n < k.entries.length then
      let e := k.entries.getD n (0, 0)
      s.setQueue s.hart.core q.val { k with entries := listSet k.entries n (if second then (e.1, v) else (v, e.2)) }
    else s
  | .gate g => s.setGate (s.ownGate g) ((s.gateOf (s.ownGate g)).ofWord v)

end Sys2Proof.Machine
end

