-- ==== Sys2Proof/Machine/Mailbox.lean ====
section
/-! DEFINITION. The management mailbox and its services (R358, R364, R365, R367, R368, R389, R407, R422), lifecycle and
debug (R364, R365). -/

namespace Sys2Proof.Machine

/-! ### Commands -/

/-- A command of the mailbox: MBCMD is written by the host past the MGMT table; while BUSY the write is dropped and OVR
set (R358, R413, R422). -/
def State.mailbox (s : State) (k : State → State) : State :=
  if !s.attached then s.say .error
  else
    match s.checkLocal s.hostParty .store (s.pkg.toNat * 2 ^ 40 + 0xF000010000) with
    | (s, false) => s.say .completerAbort
    | (s, true) =>
      if s.mgmt.busy then ({ s with mgmt := { s.mgmt with ovr := true } }).say .ok else (k s).say .ok

/-- A command done with a result and a response (R422). -/
def State.replied (s : State) (result : BitVec 8) (resp : List Byte) : State :=
  { s with mgmt := { s.mgmt with
      done := true, result := result, respLen := resp.length
      payload := if resp.isEmpty then s.mgmt.payload else payloadWrite s.mgmt.payload 0 resp } }

/-! ### Attestation -/

/-- CORECAPS and LANEMAP of cores 0 to 255, 8 bytes each (R368). -/
def State.capBytes (s : State) : List Byte :=
  (List.range 256).flatMap fun c => natBytes 8 (s.core c).cap.toNat ++ natBytes 8 (s.core c).lanemap.toNat

/-- Bytes 0x000 to 0x17F of a report (R368). -/
def State.reportBody (s : State) (nonce : List Byte) : List Byte :=
  natBytes 4 1 ++ natBytes 1 s.mgmt.lifecycle.code ++ natBytes 1 (debugCode s.debugInForce) ++ natBytes 2 1 ++
    natBytes 8 Config.deviceId.toNat ++ nonce ++ s.mgmt.mrs.flatten ++ sha256 s.capBytes ++ List.replicate 48 0

/-- The key that signs reports: the identity key, in MANUFACTURE the evaluation key (R368). -/
def reportKey : Lifecycle → Nat
  | .manufacture => 4
  | _ => 3

/-- The attestation service (R368). -/
def State.attest (s : State) (nonce : List Byte) : State :=
  if nonce.length ≠ 32 then s.replied 3 []
  else if s.mgmt.lifecycle = .rma then s.replied 1 []
  else
    let body := s.reportBody nonce
    s.replied 0 (body ++ rsaSign (reportKey s.mgmt.lifecycle) (sha256 body))

/-- MB_ATTESTATION (R368). -/
def execMbAttestation (nonce : List Byte) (s : State) : Answered := .next (s.mailbox fun s => s.attest nonce)

/-! ### Measurements, access entries, launches and slots -/

/-- A measurement extended (R367): MR5 to MR7 only. -/
def State.extendOwn (s : State) (index : Nat) (digest : List Byte) : State :=
  if index < 5 ∨ 8 ≤ index ∨ digest.length ≠ 32 then s.replied 3 []
  else ({ s with mgmt := { s.mgmt with mrs := extendMr s.mgmt.mrs index digest } }).replied 0 []

/-- MB_EXTEND_MR (R367). -/
def execMbExtendMr (index : Fin 8) (digest : List Byte) (s : State) : Answered :=
  .next (s.mailbox fun s => s.extendOwn index.val digest)

/-- Whether an access-table entry sets a reserved bit (R357). -/
def accessReserved (w0 w1 : Word) : Bool := accessWord false w0 != w0 || accessWord true w1 != w1

/-- An access-table entry written (R357, R358): one that sets a reserved bit is a bad payload, result 3, and nothing is written,
which no rule states (the model's choice, log entry 67). -/
def State.writeEntry (s : State) (e : AccessEntry) : State :=
  if accessReserved e.w0 e.w1 then s.replied 3 [] else (s.setAccess e).replied 0 []

/-- MB_WRITE_ACCESS_ENTRY (R357, R358); of an entry with reserved bits set, log entry 67. -/
def execMbWriteAccessEntry (target : Fin 11) (cls : Fin 5) (entry : Fin 64) (w0 w1 : BitVec 64) (s : State) : Answered :=
  .next (s.mailbox fun s => s.writeEntry ⟨target, cls, entry, w0, w1⟩)

/-- The removal of a launch by its sequence number (R389, R422): BUSY until it is complete. -/
def State.removeBySeq (s : State) (seq : Nat) : State :=
  match s.sched.launches.find? fun l => l.seq % 65536 == seq with
  | none => s.replied 1 []
  | some l => ({ s with mgmt := { s.mgmt with busy := true, removing := some l.seq } }).beginRemoval l.seq 0x1B none none

/-- MB_REMOVE_LAUNCH (R389, R422). -/
def execMbRemoveLaunch (seq : BitVec 16) (s : State) : Answered := .next (s.mailbox fun s => s.removeBySeq seq.toNat)

/-- A saved slot that no launch has claimed discarded (R407). -/
def State.discardSlot (s : State) (slot : Fin 64) : State :=
  match s.slot slot with
  | some h => if h.state = 2 ∨ h.state = 3 then (s.setSlot slot { h with state := 0 }).replied 0 [] else s.replied 1 []
  | none => s.replied 1 []

/-- MB_DISCARD_SLOT (R407). -/
def execMbDiscardSlot (slot : Fin 64) (s : State) : Answered := .next (s.mailbox fun s => s.discardSlot slot)

/-! ### Debug and lifecycle -/

/-- What entering INVASIVE in SECURE, or RMA, first does (R364, R365): the package is reset and its memories and M-die
records are zeroed. -/
def State.wipe (s : State) : State :=
  let s := s.packageReset false 0 []
  { s with
    store := { s.store with mem := [], poison := [] }
    holdup := { s.holdup with slots := [], mdie := [] } }

/-- The digest that an unlock token signs: the device identity, the device's nonce and the state asked for (R365, log
entry 18). -/
def State.tokenDigest (s : State) (d : DebugState) : List Byte :=
  sha256 (natBytes 8 Config.deviceId.toNat ++ Config.nonce s.mgmt.nonces ++ natBytes 1 (debugCode d))

/-- Whether a request is unlocked: by an earlier token since the last reset, or by this one (R365). -/
def State.unlocks (s : State) (d : DebugState) (token : List Byte) : Bool :=
  s.mgmt.unlocked || rsaVerify 1 (s.tokenDigest d) token

/-- The requested debug state set; leaving INVASIVE releases debug halts (R365). -/
def State.setDebug (s : State) (d : DebugState) : State :=
  let s := { s with mgmt := { s.mgmt with debugReq := d } }
  if s.debugInForce = .invasive then s else s.releaseHalts

/-- An unlocked request in SECURE; the nonce is used up (R365). -/
def State.unlock (s : State) (d : DebugState) : State :=
  ({ s with mgmt := { s.mgmt with unlocked := true, nonces := s.mgmt.nonces + 1 } }).setDebug d

/-- Whether the package is in a state in which SECURE refuses INVASIVE (R365). -/
def State.refusesInvasive (s : State) : Bool :=
  s.power.endgame || s.power.state == .ret || s.power.state == .off

/-- The table of R365 in SECURE. -/
def State.secureRequest (s : State) (d : DebugState) (token : List Byte) : State :=
  match d with
  | .none => (s.setDebug .none).replied 0 []
  | .observe => if s.unlocks d token then (s.unlock d).replied 0 [] else s.replied 2 []
  | .invasive =>
    if s.refusesInvasive then s.replied 1 []
    else if s.mgmt.debugReq = .invasive then s.replied 0 []
    else if s.unlocks d token then (s.wipe.unlock d).replied 0 []
    else s.replied 2 []

/-- A debug state requested (R365). -/
def State.requestDebug (s : State) (d : DebugState) (token : List Byte) : State :=
  if s.mgmt.lifecycle = .secure then s.secureRequest d token else (s.setDebug d).replied 0 []

/-- MB_DEBUG_REQUEST (R365). -/
def execMbDebugRequest (state : DebugState) (token : List Byte) (s : State) : Answered :=
  .next (s.mailbox fun s => s.requestDebug state token)

/-- The digest that the RMA command signs (R364, log entry 18). -/
def rmaDigest : List Byte := sha256 (natBytes 8 Config.deviceId.toNat)

/-- A core without fences and retirements (R208, R364). -/
def Core.cleared (_ : Core) : Core := Core.boot

/-- The entry into RMA (R364): memory is wiped, fences and retirements are cleared. -/
def State.enterRma (s : State) : State :=
  let s := s.wipe
  { s with
    cores := s.cores.map fun p => (p.1, p.2.cleared)
    mgmt := { s.mgmt with lifecycle := .rma } }

/-- RMA entered (R364): from SECURE only with the signed command. -/
def State.rmaCommand (s : State) (command : List Byte) : State :=
  match s.mgmt.lifecycle with
  | .rma => s.replied 1 []
  | .manufacture => s.enterRma.replied 0 []
  | .secure => if rsaVerify 2 rmaDigest command then s.enterRma.replied 0 [] else s.replied 2 []

/-- MB_ENTER_RMA (R364). -/
def execMbEnterRma (command : List Byte) (s : State) : Answered := .next (s.mailbox fun s => s.rmaCommand command)

/-- MANUFACTURE_TO_SECURE (R364, R365): an access that SECURE gives only to a token ends (log entry 73). -/
def execManufactureToSecure (s : State) : Answered :=
  .next (
    if s.mgmt.lifecycle = .manufacture then
      ({ s with mgmt := { s.mgmt with lifecycle := .secure, unlocked := false } }).setDebug .none
    else s)

/-! ### Commands written to MBCMD -/

/-- The debug state of a code (R366). -/
def debugOfCode : Nat → Option DebugState
  | 0 => some .none
  | 1 => some .observe
  | 2 => some .invasive
  | _ => none

/-- The service that a code names, on a payload whose layout no rule gives (R422, log entry 65): a payload that is not of it has
result 3, a code that names no service result 1. -/
def State.service (s : State) (code : Nat) (p : List Byte) : State :=
  let field := fun off n => leNat ((p.drop off).take n)
  match code with
  | 1 => s.attest p
  | 2 => s.extendOwn (field 0 1) (p.drop 1)
  | 3 =>
    if p.length ≠ 24 ∨ 11 ≤ field 0 1 ∨ 5 ≤ field 1 1 ∨ 64 ≤ field 2 1 then s.replied 3 []
    else
      s.writeEntry ⟨Fin.ofNat 11 (field 0 1), Fin.ofNat 5 (field 1 1), Fin.ofNat 64 (field 2 1), BitVec.ofNat 64 (field 8 8),
        BitVec.ofNat 64 (field 16 8)⟩
  | 4 => if p.length ≠ 2 then s.replied 3 [] else s.removeBySeq (field 0 2)
  | 5 => if p.length ≠ 1 ∨ 64 ≤ field 0 1 then s.replied 3 [] else s.discardSlot (Fin.ofNat 64 (field 0 1))
  | 6 =>
    match if p.isEmpty then none else debugOfCode (field 0 1) with
    | some d => s.requestDebug d (p.drop 1)
    | none => s.replied 3 []
  | 7 => s.rmaCommand p
  | _ => s.replied 1 []

/-- The first bytes of the payload buffer; what has not been written is 0. -/
def State.payloadBytes (s : State) (n : Nat) : List Byte := (List.range n).map fun i => s.mgmt.payload.getD i 0

/-- The command in MBCMD served: the mailbox is BUSY until then (R422). -/
def State.nextCommand (s : State) : Option State :=
  if s.power.poweredOff then none
  else
    s.mgmt.command.map fun c =>
      let t := { s with mgmt := { s.mgmt with busy := false, command := none } }
      t.service c.1 (t.payloadBytes c.2)

/-! ### Debug access -/

/-- What INVASIVE does to a hart, or reads of it; the access tables are bypassed (R365). -/
def State.debugAct (s : State) (action : DebugAction) : State :=
  let bytes := fun (v : Nat) => s.say (.data (natBytes 8 v) false)
  match action with
  | .halt => s.withHart fun k => { k with marks := { k.marks with debugHalted := true } }
  | .step => s.withHart fun k => if k.marks.debugHalted then { k with marks := { k.marks with debugStep := true } } else k
  | .release => s.withHart fun k => { k with marks := { k.marks with debugHalted := false, debugStep := false } }
  | .readCsr n => bytes (s.csrNat n.val)
  | .writeCsr n v => (s.debugCsr n.val v).say .ok
  | .readScalar r => bytes (s.x r).toNat
  | .writeScalar r v => (s.setX r v).say .ok
  | .readPc => bytes s.hart.scalar.pc.toNat
  | .writePc v => (s.withHart fun k => k.goto v).say .ok
  | .readVector r w row el => bytes (vget s.hart.vrf r.val w.bits row el)
  | .writeVector r w row el v => (s.setVrf (vset s.hart.vrf r.val w.bits row el v.toNat)).say .ok
  | .readMask m p => bytes (bit01 (mget s.hart.masks m p))
  | .writeMask m p b => (s.setMasks (mset s.hart.masks m p b)).say .ok
  | .readPlace p => bytes (s.debugWord p)
  | .writePlace p v => (s.debugSet p v).say .ok
  | .readMemory pa n =>
    let la := paLocal pa
    if s.present (region la) then s.say (.data (s.localBytes la n) (s.poisoned (s.pkg.toNat * 2 ^ 40 + la) n)) else s.say .error
  | .writeMemory pa bs =>
    let la := paLocal pa
    if s.present (region la) && s.serving then
      (s.physWrite ⟨4, 0, s.pkg, 0⟩ (s.pkg.toNat * 2 ^ 40 + la) bs).say .ok
    else s.say .error

/-- DEBUG_HALT (R365): in INVASIVE every action; in OBSERVE the CSRs of a placed hart are read. -/
def execDebugHalt (h : HartId) (action : DebugAction) (s : State) : Answered :=
  .next (
    match s.debugInForce, action with
    | .invasive, .readMemory pa n => s.debugAct (.readMemory pa n)
    | .invasive, .writeMemory pa bs => s.debugAct (.writeMemory pa bs)
    | .invasive, a => s.onHart h fun s => s.debugAct a
    | .observe, .readCsr n => s.onHart h fun s => s.debugAct (.readCsr n)
    | _, _ => s)

end Sys2Proof.Machine
end

