-- ==== Sys2Proof/Machine/VectorExec.lean ====
section
/-! DEFINITION. The vector-class instructions: each is posted to the VIQ (R8). -/

namespace Sys2Proof.Machine

/-- VADD (R122). -/
def execVadd (o : ViaOps) (s : State) : Answered := .next (s.issueVector (.via .add o))
/-- VSUB (R122). -/
def execVsub (o : ViaOps) (s : State) : Answered := .next (s.issueVector (.via .sub o))
/-- VMUL (R122). -/
def execVmul (o : ViaOps) (s : State) : Answered := .next (s.issueVector (.via .mul o))
/-- VMULH (R122). -/
def execVmulh (o : ViaOps) (s : State) : Answered := .next (s.issueVector (.via .mulh o))
/-- VMULHU (R122). -/
def execVmulhu (o : ViaOps) (s : State) : Answered := .next (s.issueVector (.via .mulhu o))
/-- VMIN (R122). -/
def execVmin (o : ViaOps) (s : State) : Answered := .next (s.issueVector (.via .min o))
/-- VMAX (R122). -/
def execVmax (o : ViaOps) (s : State) : Answered := .next (s.issueVector (.via .max o))
/-- VMINU (R122). -/
def execVminu (o : ViaOps) (s : State) : Answered := .next (s.issueVector (.via .minu o))
/-- VMAXU (R122). -/
def execVmaxu (o : ViaOps) (s : State) : Answered := .next (s.issueVector (.via .maxu o))
/-- VAND (R122). -/
def execVand (o : ViaOps) (s : State) : Answered := .next (s.issueVector (.via .and o))
/-- VOR (R122). -/
def execVor (o : ViaOps) (s : State) : Answered := .next (s.issueVector (.via .or o))
/-- VXOR (R122). -/
def execVxor (o : ViaOps) (s : State) : Answered := .next (s.issueVector (.via .xor o))
/-- VANDN (R122). -/
def execVandn (o : ViaOps) (s : State) : Answered := .next (s.issueVector (.via .andn o))
/-- VSHL (R122). -/
def execVshl (o : ViaOps) (s : State) : Answered := .next (s.issueVector (.via .shl o))
/-- VSHR (R122). -/
def execVshr (o : ViaOps) (s : State) : Answered := .next (s.issueVector (.via .shr o))
/-- VSRA (R122). -/
def execVsra (o : ViaOps) (s : State) : Answered := .next (s.issueVector (.via .sra o))
/-- VADDS (R122). -/
def execVadds (o : ViaOps) (s : State) : Answered := .next (s.issueVector (.via .adds o))
/-- VSUBS (R122). -/
def execVsubs (o : ViaOps) (s : State) : Answered := .next (s.issueVector (.via .subs o))
/-- VABSD (R122). -/
def execVabsd (o : ViaOps) (s : State) : Answered := .next (s.issueVector (.via .absd o))
/-- VPOPC (R122). -/
def execVpopc (o : ViaUnaryOps) (s : State) : Answered := .next (s.issueVector (.viaUnary .popc o))
/-- VCLZ (R122). -/
def execVclz (o : ViaUnaryOps) (s : State) : Answered := .next (s.issueVector (.viaUnary .clz o))
/-- VCTZ (R122). -/
def execVctz (o : ViaUnaryOps) (s : State) : Answered := .next (s.issueVector (.viaUnary .ctz o))
/-- VADDI (R123). -/
def execVaddi (o : ViaiOps) (s : State) : Answered := .next (s.issueVector (.viai .add o))
/-- VSUBI (R123). -/
def execVsubi (o : ViaiOps) (s : State) : Answered := .next (s.issueVector (.viai .sub o))
/-- VANDI (R123). -/
def execVandi (o : ViaiOps) (s : State) : Answered := .next (s.issueVector (.viai .and o))
/-- VORI (R123). -/
def execVori (o : ViaiOps) (s : State) : Answered := .next (s.issueVector (.viai .or o))
/-- VXORI (R123). -/
def execVxori (o : ViaiOps) (s : State) : Answered := .next (s.issueVector (.viai .xor o))
/-- VSHLI (R123). -/
def execVshli (o : ViaiOps) (s : State) : Answered := .next (s.issueVector (.viai .shl o))
/-- VSHRI (R123). -/
def execVshri (o : ViaiOps) (s : State) : Answered := .next (s.issueVector (.viai .shr o))
/-- VSRAI (R123). -/
def execVsrai (o : ViaiOps) (s : State) : Answered := .next (s.issueVector (.viai .sra o))
/-- VADDSI (R123). -/
def execVaddsi (o : ViaiOps) (s : State) : Answered := .next (s.issueVector (.viai .adds o))
/-- VSUBSI (R123). -/
def execVsubsi (o : ViaiOps) (s : State) : Answered := .next (s.issueVector (.viai .subs o))
/-- VFADD (R124). -/
def execVfadd (o : VfaOps) (s : State) : Answered := .next (s.issueVector (.vfa .add o))
/-- VFSUB (R124). -/
def execVfsub (o : VfaOps) (s : State) : Answered := .next (s.issueVector (.vfa .sub o))
/-- VFMUL (R124). -/
def execVfmul (o : VfaOps) (s : State) : Answered := .next (s.issueVector (.vfa .mul o))
/-- VFDIV (R124). -/
def execVfdiv (o : VfaOps) (s : State) : Answered := .next (s.issueVector (.vfa .div o))
/-- VFMIN (R124). -/
def execVfmin (o : VfmmOps) (s : State) : Answered := .next (s.issueVector (.vfmm .min o))
/-- VFMAX (R124). -/
def execVfmax (o : VfmmOps) (s : State) : Answered := .next (s.issueVector (.vfmm .max o))
/-- VFSGNJ (R124). -/
def execVfsgnj (o : VfmmOps) (s : State) : Answered := .next (s.issueVector (.vfmm .sgnj o))
/-- VFMA (R125). -/
def execVfma (o : VfmaOps) (s : State) : Answered := .next (s.issueVector (.vfma .fma o))
/-- VFMS (R125). -/
def execVfms (o : VfmaOps) (s : State) : Answered := .next (s.issueVector (.vfma .fms o))
/-- VFNMA (R125). -/
def execVfnma (o : VfmaOps) (s : State) : Answered := .next (s.issueVector (.vfma .fnma o))
/-- VFNMS (R125). -/
def execVfnms (o : VfmaOps) (s : State) : Answered := .next (s.issueVector (.vfma .fnms o))
/-- VFSQRT (R126). -/
def execVfsqrt (o : VfuOps) (s : State) : Answered := .next (s.issueVector (.vfu .sqrt o))
/-- VFRCP (R126). -/
def execVfrcp (o : VfuOps) (s : State) : Answered := .next (s.issueVector (.vfu .rcp o))
/-- VFRSQ (R126). -/
def execVfrsq (o : VfuOps) (s : State) : Answered := .next (s.issueVector (.vfu .rsq o))
/-- VFEXP2 (R126). -/
def execVfexp2 (o : VfuOps) (s : State) : Answered := .next (s.issueVector (.vfu .exp2 o))
/-- VFLOG2 (R126). -/
def execVflog2 (o : VfuOps) (s : State) : Answered := .next (s.issueVector (.vfu .log2 o))
/-- VFABS (R126). -/
def execVfabs (o : VfuNrOps) (s : State) : Answered := .next (s.issueVector (.vfuNr .abs o))
/-- VFNEG (R126). -/
def execVfneg (o : VfuNrOps) (s : State) : Answered := .next (s.issueVector (.vfuNr .neg o))
/-- VFCLASS (R126). -/
def execVfclass (o : VfuNrOps) (s : State) : Answered := .next (s.issueVector (.vfuNr .cls o))
/-- VCVT (R127). -/
def execVcvt (o : VcvtOps) (s : State) : Answered := .next (s.issueVector (.vcvt o))
/-- VCMPEQ (R128). -/
def execVcmpeq (o : VcmpOps) (s : State) : Answered := .next (s.issueVector (.vcmp .eq o))
/-- VCMPNE (R128). -/
def execVcmpne (o : VcmpOps) (s : State) : Answered := .next (s.issueVector (.vcmp .ne o))
/-- VCMPLT (R128). -/
def execVcmplt (o : VcmpOps) (s : State) : Answered := .next (s.issueVector (.vcmp .lt o))
/-- VCMPGE (R128). -/
def execVcmpge (o : VcmpOps) (s : State) : Answered := .next (s.issueVector (.vcmp .ge o))
/-- VCMPLTU (R128). -/
def execVcmpltu (o : VcmpOps) (s : State) : Answered := .next (s.issueVector (.vcmp .ltu o))
/-- VCMPGEU (R128). -/
def execVcmpgeu (o : VcmpOps) (s : State) : Answered := .next (s.issueVector (.vcmp .geu o))
/-- VFCMPEQ (R129). -/
def execVfcmpeq (o : VfcmpOps) (s : State) : Answered := .next (s.issueVector (.vfcmp .eq o))
/-- VFCMPNE (R129). -/
def execVfcmpne (o : VfcmpOps) (s : State) : Answered := .next (s.issueVector (.vfcmp .ne o))
/-- VFCMPLT (R129). -/
def execVfcmplt (o : VfcmpOps) (s : State) : Answered := .next (s.issueVector (.vfcmp .lt o))
/-- VFCMPLE (R129). -/
def execVfcmple (o : VfcmpOps) (s : State) : Answered := .next (s.issueVector (.vfcmp .le o))
/-- VFCMPGT (R129). -/
def execVfcmpgt (o : VfcmpOps) (s : State) : Answered := .next (s.issueVector (.vfcmp .gt o))
/-- VFCMPGE (R129). -/
def execVfcmpge (o : VfcmpOps) (s : State) : Answered := .next (s.issueVector (.vfcmp .ge o))
/-- VFCMPUN (R129). -/
def execVfcmpun (o : VfcmpOps) (s : State) : Answered := .next (s.issueVector (.vfcmp .un o))
/-- VSEL (R130). -/
def execVsel (o : VselOps) (s : State) : Answered := .next (s.issueVector (.vsel o))
/-- VMV (R131). -/
def execVmv (o : VmvOps) (s : State) : Answered := .next (s.issueVector (.vmv o))
/-- VBCAST (R131). -/
def execVbcast (o : VbcastOps) (s : State) : Answered := .next (s.issueVector (.vbcast o))
/-- VMVXS (R131). -/
def execVmvxs (o : VmvxsOps) (s : State) : Answered := .next (s.issueVector (.vmvxs o))
/-- VMVSX (R131). -/
def execVmvsx (o : VmvsxOps) (s : State) : Answered := .next (s.issueVector (.vmvsx o))
/-- VIOTA (R131). -/
def execViota (o : ViotaOps) (s : State) : Answered := .next (s.issueVector (.viota o))
/-- VREDSUM (R147). -/
def execVredsum (o : VredSumOps) (s : State) : Answered :=
  .next (s.issueVector (.vred .sum o.sat ⟨o.d, o.a, o.axis, o.w, o.m⟩))
/-- VREDMIN (R147). -/
def execVredmin (o : VredOps) (s : State) : Answered := .next (s.issueVector (.vred .min false o))
/-- VREDMAX (R147). -/
def execVredmax (o : VredOps) (s : State) : Answered := .next (s.issueVector (.vred .max false o))
/-- VREDMINU (R147). -/
def execVredminu (o : VredOps) (s : State) : Answered := .next (s.issueVector (.vred .minu false o))
/-- VREDMAXU (R147). -/
def execVredmaxu (o : VredOps) (s : State) : Answered := .next (s.issueVector (.vred .maxu false o))
/-- VREDAND (R147). -/
def execVredand (o : VredOps) (s : State) : Answered := .next (s.issueVector (.vred .and false o))
/-- VREDOR (R147). -/
def execVredor (o : VredOps) (s : State) : Answered := .next (s.issueVector (.vred .or false o))
/-- VREDXOR (R147). -/
def execVredxor (o : VredOps) (s : State) : Answered := .next (s.issueVector (.vred .xor false o))
/-- VREDFSUM (R147). -/
def execVredfsum (o : VredFsumOps) (s : State) : Answered := .next (s.issueVector (.vredFsum o))
/-- VREDFMIN (R147). -/
def execVredfmin (o : VredFmmOps) (s : State) : Answered := .next (s.issueVector (.vredFmm false o))
/-- VREDFMAX (R147). -/
def execVredfmax (o : VredFmmOps) (s : State) : Answered := .next (s.issueVector (.vredFmm true o))
/-- VREDMINI (R148). -/
def execVredmini (o : VredOps) (s : State) : Answered := .next (s.issueVector (.vredi false o))
/-- VREDMAXI (R148). -/
def execVredmaxi (o : VredOps) (s : State) : Answered := .next (s.issueVector (.vredi true o))
/-- VREDFMINI (R148). -/
def execVredfmini (o : VredFmmOps) (s : State) : Answered := .next (s.issueVector (.vredfi false o))
/-- VREDFMAXI (R148). -/
def execVredfmaxi (o : VredFmmOps) (s : State) : Answered := .next (s.issueVector (.vredfi true o))
/-- VSCANSUM (R149). -/
def execVscansum (o : VscanOps) (s : State) : Answered := .next (s.issueVector (.vscan .sum false o))
/-- VXSCANSUM (R149). -/
def execVxscansum (o : VscanOps) (s : State) : Answered := .next (s.issueVector (.vscan .sum true o))
/-- VSCANMAX (R149). -/
def execVscanmax (o : VscanOps) (s : State) : Answered := .next (s.issueVector (.vscan .max false o))
/-- VXSCANMAX (R149). -/
def execVxscanmax (o : VscanOps) (s : State) : Answered := .next (s.issueVector (.vscan .max true o))
/-- VSCANMAXU (R149). -/
def execVscanmaxu (o : VscanOps) (s : State) : Answered := .next (s.issueVector (.vscan .maxu false o))
/-- VXSCANMAXU (R149). -/
def execVxscanmaxu (o : VscanOps) (s : State) : Answered := .next (s.issueVector (.vscan .maxu true o))
/-- VSCANFSUM (R149). -/
def execVscanfsum (o : VscanFsumOps) (s : State) : Answered := .next (s.issueVector (.vscanFsum false o))
/-- VXSCANFSUM (R149). -/
def execVxscanfsum (o : VscanFsumOps) (s : State) : Answered := .next (s.issueVector (.vscanFsum true o))
/-- VSCANFMAX (R149). -/
def execVscanfmax (o : VscanFmaxOps) (s : State) : Answered := .next (s.issueVector (.vscanFmax false o))
/-- VXSCANFMAX (R149). -/
def execVxscanfmax (o : VscanFmaxOps) (s : State) : Answered := .next (s.issueVector (.vscanFmax true o))
/-- VCOMPRESS (R152). -/
def execVcompress (o : VcompressOps) (s : State) : Answered := .next (s.issueVector (.vcompress o))
/-- VEXPAND (R152). -/
def execVexpand (o : VpermOps) (s : State) : Answered := .next (s.issueVector (.vexpand o))
/-- VGATHR (R153). -/
def execVgathr (o : VgathrOps) (s : State) : Answered := .next (s.issueVector (.vgathr o))
/-- VSLIDEUP (R153). -/
def execVslideup (o : VslideOps) (s : State) : Answered := .next (s.issueVector (.vslideup o))
/-- VSLIDEDN (R153). -/
def execVslidedn (o : VslideOps) (s : State) : Answered := .next (s.issueVector (.vslidedn o))
/-- VTRANS (R154). -/
def execVtrans (o : VpermOps) (s : State) : Answered := .next (s.issueVector (.vtrans o))
/-- VROWBC (R153). -/
def execVrowbc (o : VslideOps) (s : State) : Answered := .next (s.issueVector (.vrowbc o))
/-- MAND (R155). -/
def execMand (o : MopOps) (s : State) : Answered := .next (s.issueVector (.mop .and o))
/-- MOR (R155). -/
def execMor (o : MopOps) (s : State) : Answered := .next (s.issueVector (.mop .or o))
/-- MXOR (R155). -/
def execMxor (o : MopOps) (s : State) : Answered := .next (s.issueVector (.mop .xor o))
/-- MANDN (R155). -/
def execMandn (o : MopOps) (s : State) : Answered := .next (s.issueVector (.mop .andn o))
/-- MNOT (R155). -/
def execMnot (o : MnotOps) (s : State) : Answered := .next (s.issueVector (.mnot o))
/-- MSET (R155). -/
def execMset (o : MsetOps) (s : State) : Answered := .next (s.issueVector (.mset o))
/-- MCNT (R155). -/
def execMcnt (o : McntOps) (s : State) : Answered := .next (s.issueVector (.mcnt .cnt o))
/-- MANY (R155). -/
def execMany (o : McntOps) (s : State) : Answered := .next (s.issueVector (.mcnt .any o))
/-- MFST (R155). -/
def execMfst (o : McntOps) (s : State) : Answered := .next (s.issueVector (.mcnt .fst o))
/-- VLD (R132). -/
def execVld (o : VldOps) (s : State) : Answered := .next (s.issueVector (.vld false o))
/-- VLDS (R132). -/
def execVlds (o : VldOps) (s : State) : Answered := .next (s.issueVector (.vld true o))
/-- VLDX (R135). -/
def execVldx (o : VldxOps) (s : State) : Answered := .next (s.issueVector (.vldx o))
/-- VLDFF (R137). -/
def execVldff (o : VldOps) (s : State) : Answered := .next (s.issueVector (.vldff o))
/-- VST (R132). -/
def execVst (o : VldOps) (s : State) : Answered := .next (s.issueVector (.vst false o))
/-- VSTS (R132). -/
def execVsts (o : VldOps) (s : State) : Answered := .next (s.issueVector (.vst true o))
/-- VSTX (R138). -/
def execVstx (o : VldxOps) (s : State) : Answered := .next (s.issueVector (.vstx false o))
/-- VSTX.O (R138). -/
def execVstxO (o : VldxOps) (s : State) : Answered := .next (s.issueVector (.vstx true o))
/-- VAMOADD (R253). -/
def execVamoadd (o : VamoOps) (s : State) : Answered := .next (s.issueVector (.vamo .add o))
/-- VAMOMIN (R253). -/
def execVamomin (o : VamoOps) (s : State) : Answered := .next (s.issueVector (.vamo .min o))
/-- VAMOMAX (R253). -/
def execVamomax (o : VamoOps) (s : State) : Answered := .next (s.issueVector (.vamo .max o))
/-- VAMOMINU (R253). -/
def execVamominu (o : VamoOps) (s : State) : Answered := .next (s.issueVector (.vamo .minu o))
/-- VAMOMAXU (R253). -/
def execVamomaxu (o : VamoOps) (s : State) : Answered := .next (s.issueVector (.vamo .maxu o))
/-- VAMOAND (R253). -/
def execVamoand (o : VamoOps) (s : State) : Answered := .next (s.issueVector (.vamo .and o))
/-- VAMOOR (R253). -/
def execVamoor (o : VamoOps) (s : State) : Answered := .next (s.issueVector (.vamo .or o))
/-- VAMOXOR (R253). -/
def execVamoxor (o : VamoOps) (s : State) : Answered := .next (s.issueVector (.vamo .xor o))
/-- VAMOSWP (R253). -/
def execVamoswp (o : VamoOps) (s : State) : Answered := .next (s.issueVector (.vamo .swp o))
/-- STRA (R259). -/
def execStra (o : StraOps) (s : State) : Answered := .next (s.issueVector (.stra false o))
/-- STRX (R259). -/
def execStrx (o : StraOps) (s : State) : Answered := .next (s.issueVector (.stra true o))
/-- STROFF (R264). -/
def execStroff (o : StroffOps) (s : State) : Answered := .next (s.issueVector (.stroff o))
/-- STRPOS (R264). -/
def execStrpos (o : StrposOps) (s : State) : Answered := .next (s.issueVector (.strpos o))
/-- MMA.IP (R174). -/
def execMmaIp (o : MmaOps) (s : State) : Answered := .next (s.issueVector (.mma .ip o))
/-- MMA.OP (R174). -/
def execMmaOp (o : MmaOps) (s : State) : Answered := .next (s.issueVector (.mma .op o))
/-- MMA.RW (R175). -/
def execMmaRw (o : MmaOps) (s : State) : Answered := .next (s.issueVector (.mma .rw o))
/-- WBLD (R184). -/
def execWbld (o : WbldOps) (s : State) : Answered := .next (s.issueVector (.wbld o))
/-- MDRAIN (R189). -/
def execMdrain (o : MdrainOps) (s : State) : Answered := .next (s.issueVector (.mdrain none o))
/-- MDRAIN.Z (R191). -/
def execMdrainZ (o : MdrainZOps) (s : State) : Answered :=
  .next (s.issueVector (.mdrain (some o.z) ⟨o.d, o.a, o.g, o.sat, o.rm, o.ofmt, o.accf, o.m⟩))
/-- VSORT (R157). -/
def execVsort (o : VsortOps) (s : State) : Answered := .next (s.issueVector (.vsort o))
/-- VMRG (R162). -/
def execVmrg (o : VmrgOps) (s : State) : Answered := .next (s.issueVector (.vmrg o))
/-- VUNIONADD (R163). -/
def execVunionadd (o : VsetOps) (s : State) : Answered := .next (s.issueVector (.vset false .add o))
/-- VUNIONMAX (R163). -/
def execVunionmax (o : VsetNrOps) (s : State) : Answered :=
  .next (s.issueVector (.vset false .max ⟨o.d, o.cnt, o.a, o.b, o.lens, o.dz, o.fmt, .rne⟩))
/-- VUNIONFST (R163). -/
def execVunionfst (o : VsetNrOps) (s : State) : Answered :=
  .next (s.issueVector (.vset false .first ⟨o.d, o.cnt, o.a, o.b, o.lens, o.dz, o.fmt, .rne⟩))
/-- VINTERADD (R163). -/
def execVinteradd (o : VsetOps) (s : State) : Answered := .next (s.issueVector (.vset true .add o))
/-- VINTERMAX (R163). -/
def execVintermax (o : VsetNrOps) (s : State) : Answered :=
  .next (s.issueVector (.vset true .max ⟨o.d, o.cnt, o.a, o.b, o.lens, o.dz, o.fmt, .rne⟩))
/-- VINTERFST (R163). -/
def execVinterfst (o : VsetNrOps) (s : State) : Answered :=
  .next (s.issueVector (.vset true .first ⟨o.d, o.cnt, o.a, o.b, o.lens, o.dz, o.fmt, .rne⟩))
/-- VINTERMUL (R163). -/
def execVintermul (o : VsetOps) (s : State) : Answered := .next (s.issueVector (.vset true .mul o))
/-- VTOPK (R158). -/
def execVtopk (o : VtopkOps) (s : State) : Answered := .next (s.issueVector (.vtopk o))
/-- VSEGRSUM (R164). -/
def execVsegrsum (o : VsegrOps) (s : State) : Answered := .next (s.issueVector (.vsegr .sum o))
/-- VSEGRMIN (R164). -/
def execVsegrmin (o : VsegrOps) (s : State) : Answered := .next (s.issueVector (.vsegr .min o))
/-- VSEGRMAX (R164). -/
def execVsegrmax (o : VsegrOps) (s : State) : Answered := .next (s.issueVector (.vsegr .max o))
/-- VSEGRMINU (R164). -/
def execVsegrminu (o : VsegrOps) (s : State) : Answered := .next (s.issueVector (.vsegr .minu o))
/-- VSEGRMAXU (R164). -/
def execVsegrmaxu (o : VsegrOps) (s : State) : Answered := .next (s.issueVector (.vsegr .maxu o))
/-- VSEGRFSUM (R164). -/
def execVsegrfsum (o : VsegrFsumOps) (s : State) : Answered := .next (s.issueVector (.vsegrFsum o))
/-- VSEGRFMIN (R164). -/
def execVsegrfmin (o : VsegrFmmOps) (s : State) : Answered := .next (s.issueVector (.vsegrFmm false o))
/-- VSEGRFMAX (R164). -/
def execVsegrfmax (o : VsegrFmmOps) (s : State) : Answered := .next (s.issueVector (.vsegrFmm true o))
/-- XOPEN (R296). -/
def execXopen (o : XopenOps) (s : State) : Answered := .next (s.issueVector (.xopen o))
/-- XCLOSE (R297). -/
def execXclose (o : XReg) (s : State) : Answered := .next (s.issueVector (.xclose o))
/-- XFLOOR (R297). -/
def execXfloor (o : XfloorOps) (s : State) : Answered := .next (s.issueVector (.xfloor o))
/-- XSTAT (R298). -/
def execXstat (o : XstatOps) (s : State) : Answered := .next (s.issueVector (.xstat o))
/-- XSPLIT (R299). -/
def execXsplit (o : XsplitOps) (s : State) : Answered := .next (s.issueVector (.xsplit o))
/-- XROUND (R295). -/
def execXround (o : XReg) (s : State) : Answered := .next (s.issueVector (.xround o))
/-- XSEND (R300). -/
def execXsend (o : XsendOps) (s : State) : Answered := .next (s.issueVector (.xsend none o))
/-- XSEND.MC (R300). -/
def execXsendMc (o : XsendMcOps) (s : State) : Answered :=
  .next (s.issueVector (.xsend (some o.group) ⟨o.pay, o.keys, o.round, o.m⟩))
/-- XRECV (R301). -/
def execXrecv (o : XrecvOps) (s : State) : Answered := .next (s.issueVector (.xrecv o))
/-- CPY (R267). -/
def execCpy (o : CpyOps) (s : State) : Answered := .next (s.issueVector (.cpy false o))
/-- CPY.SH (R267). -/
def execCpySh (o : CpyOps) (s : State) : Answered := .next (s.issueVector (.cpy true o))
/-- CMWAIT (R271). -/
def execCmwait (o : CmwaitOps) (s : State) : Answered := .next (s.issueVector (.cmwait o))
/-- CMTEST (R271). -/
def execCmtest (o : CmtestOps) (s : State) : Answered := .next (s.issueVector (.cmtest o))
/-- CMCLR (R271). -/
def execCmclr (o : CmclrOps) (s : State) : Answered := .next (s.issueVector (.cmclr o))

end Sys2Proof.Machine
end

