-- ==== Sys2Proof/Machine/Turn.lean ====
section
/-! DEFINITION. What a step does beside executing an instruction: asynchronous traps (R372), the events of the machine's own
units, the order of the harts and the clock (log entries 4, 6, 7). -/

namespace Sys2Proof.Machine

/-! ### Asynchronous traps -/

/-- Whether the current hart stands between two scalar instructions, or in a scalar wait (R372). -/
def Hart.atBoundary (h : Hart) : Bool :=
  h.marks.launchAnswer.isNone &&
    match h.marks.wait with
    | .remote _ => false
    | _ => true

/-- The asynchronous trap that the current hart takes now: cause 0x1A before cause 0x1B, which an endgame holds (R372, R389,
R401). -/
def State.asyncDue (s : State) : Option Trap :=
  let h := s.hart
  if !h.atBoundary then none
  else if h.marks.powerFail && s.power.window && !h.trap.inTrap then some ⟨0x1A, 0, 0, h.scalar.pc, none, none⟩
  else if s.power.endgame then none
  else h.marks.kill.map fun c => ⟨0x1B, c.setWidth 64, 0, h.scalar.pc, none, none⟩

/-- The mark of an asynchronous cause cleared: the hart has received it. -/
def Hart.receive (cause : Nat) (h : Hart) : Hart :=
  if cause = 0x1A then { h with marks := { h.marks with powerFail := false } }
  else { h with marks := { h.marks with kill := none } }

/-- An asynchronous trap taken (R372, R373): posted entries stay, the strip commits, and a LAUNCH that waits is executed
again later. No instruction closes the strip, so no rollback opens it again (log entry 42). -/
def State.takeAsync (s : State) (t : Trap) : State :=
  let s := (s.withdraw s.hart.ident.id).withHart (Hart.receive t.cause)
  if s.hart.trap.inTrap then s.doubleTrap t.cause
  else
    match s.targetIllegal .s s.hart.trap.tvec with
    | (s, .ok true) => s.doubleTrap t.cause
    | (s, _) =>
      s.commitByTimer.withHart fun h =>
        let k := h.enterHandler t
        { k with marks := { k.marks with asyncAt := h.newest } }

/-! ### The turn -/

/-- Whether the current hart moves: placed, neither stopped, being saved nor halted for debug, and its core runs. -/
def State.runnable (s : State) : Bool :=
  s.coresOn && !s.hart.marks.halted && !s.hart.marks.stopped && !s.hart.marks.saving &&
    (!s.hart.marks.debugHalted || s.hart.marks.debugStep)

/-- Whether the vector unit of the current hart is to work before its next instruction (log entry 6). -/
def Hart.owesWork (h : Hart) : Bool :=
  !h.viq.isEmpty && (decide (h.lead < h.viq.length) || h.marks.wait == .vector || (match h.marks.wait with
    | .remote _ => true
    | _ => false))

/-- Whether the oldest entry of the current hart may retire or take a recheck entry. -/
def State.headMoves (s : State) : Bool :=
  s.hart.viq.head?.any fun q => s.mayRetire q || (q.e.complete && s.mustCheck q && decide (s.entriesHeld < 32))

/-- Whether the vector unit of the current hart can move: its oldest entry may retire or take a recheck entry, or its working
entry begins or goes on. -/
def State.unitMoves (s : State) : Bool := !s.hart.viq.isEmpty && (s.hart.marks.removed || s.headMoves || s.canWork)

/-- Whether the turn is the vector unit's: it has work to do, and can do it. -/
def State.vectorTurn (s : State) : Bool := s.hart.owesWork && s.unitMoves

/-- An entry that waits looks again before the next instruction. -/
def State.beforeFetch (s : State) : State := if s.hart.owesWork then s.work else s

/-- N of the line that the current hart executes. -/
def State.fetched (s : State) (words : List Nat) : State :=
  s.withHart fun h => { h with scalar := { h.scalar with lineHeads := lineHeadCount words } }

/-! ### Events of the machine's own units -/

/-- A hart asked to yield that waits is saved (R333). -/
def State.nextSave (s : State) : Option State :=
  (s.placed.find? fun h => h.ctl.preqReq && !h.marks.saving && (s.focus h.ident.id).mustSave).map fun h =>
    s.onHart h.ident.id State.saveIfWaiting

/-- Entries of a hart being saved that retire, or take a recheck entry, before an MMA that has begun can (R178). -/
def State.nextDrain (s : State) : Option State :=
  (s.placed.find? fun h => h.marks.saving && h.matrixBegun &&
    (s.focus h.ident.id).headMoves).map fun h => s.onHart h.ident.id fun s => State.retireReady s.hart.viq.length s

/-- A save that is complete (R336). -/
def State.savedNext (s : State) : Option State :=
  (s.placed.find? fun h => h.saveReady).map fun h => s.completeSave h.ident.id

/-- A marked core that holds no hart loses its lane groups (R210). -/
def State.nextRetired (s : State) : Option State :=
  (s.cores.find? fun p => p.2.marked != 0 && !(s.placed.any fun h => h.core == p.1)).map fun p => s.finishRetirement p.1

/-- A launch whose stages have all ended completes (R31). -/
def State.nextCompletion (s : State) : Option State := (s.sched.launches.find? fun l => s.allEnded l).map fun l => s.complete l

/-- A removal whose harts are gone ends (R390). -/
def State.nextRemoval (s : State) : Option State :=
  (s.sched.launches.find? fun l => s.removalReady l).map fun l => s.endRemoval l

/-- A hart whose LEFT has reached 0 while REQ is set is saved by force (R334). -/
def State.nextForced (s : State) : Option State :=
  (s.placed.find? fun h => h.ctl.preqReq && !h.marks.saving && s.preqLeft h == 0).map fun h => s.forceSave h.ident.id

/-- A strip that has been open for 65,536 cycles commits (R24, R240). -/
def State.nextAutoClose (s : State) : Option State :=
  (s.placed.find? fun h => h.autoCloseDue s.cycle).map fun h => s.onHart h.ident.id State.commitByTimer

/-- A chunk that was read is written (R267). -/
def State.nextLanding (s : State) : Option State :=
  (s.placed.find? fun h => h.copies.any fun c => !c.copy.inFlight.isEmpty).map fun h =>
    s.onHart h.ident.id State.landNext

/-- Whether a copy of the current hart can read its next chunk now. -/
def State.readable (s : State) (c : CopyCtx) : Bool :=
  s.issues c &&
    match State.readPieces c false (c.copy.chunkPieces c.copy.next) s with
    | (_, .error .noPath) => false
    | _ => true

/-- Whether a hart has a chunk to read now. -/
def State.hasChunk (s : State) (h : HartId) : Bool :=
  match s.findHart h with
  | some k => k.copies.any fun c => (s.focus h).readable c
  | none => false

/-- The hart that the copy engine of a core serves next: round-robin (R268). -/
def State.copyFirst (s : State) (core : Nat) : Option HartId :=
  (rotation core (s.core core).copyLast.val).find? s.hasChunk

/-- The next chunk of a copy of hart `h` is read (R267, R268). -/
def State.serveCopy (s : State) (h : HartId) : State :=
  let s := s.onHart h fun s =>
    s.onCopy (fun c => s.readable c) fun s c =>
      let (s, c) := s.readChunk c false
      (s, [c])
  s.setCore (h.val / 4) { s.core (h.val / 4) with copyLast := Fin.ofNat 4 (h.val % 4) }

/-- The copy engine of a core reads a chunk (R267, R268). -/
def State.nextRead (s : State) : Option State :=
  ((s.placed.map fun h => h.core).dedup.findSome? s.copyFirst).map s.serveCopy

/-- The ports of a round's merge points. -/
def Round.allPorts (r : Round) : List (Nat × Nat) :=
  (r.points.zipIdx).flatMap fun p => (List.range p.1.ports.length).map fun q => (p.2, q)

/-- A merge point emits (R284). -/
def State.nextEmission (s : State) : Option State :=
  s.rounds.findSome? fun r => (r.allPorts.find? fun p => s.mergeReady r p.1 p.2).map fun p => s.mergeEmit r p.1 p.2

/-- The inputs of a merge point that hold multicast copies or owe them (R291). -/
def XPoint.busyInputs (p : XPoint) : List Nat := (p.hold.map fun h => h.1) ++ p.ingress.map fun h => h.1

/-- A multicast copy leaves its hold buffer, or is made (R291). -/
def State.nextMulticast (s : State) : Option State :=
  s.rounds.findSome? fun r => r.points.zipIdx.findSome? fun p => p.1.busyInputs.findSome? fun i =>
    match p.1.releaseNext i with
    | some q => some (s.setRound (r.setPoint p.2 q))
    | none => (p.1.copyNext r.desc i).map fun q => s.setRound (r.setPoint p.2 q)

/-- The window ends once every granted hart has sealed (R402), and the engine makes its writes (R403). -/
def State.nextEndgame (s : State) : Option State :=
  if s.allSealed then some s.stopCores
  else if s.power.endgame && !s.power.window then some s.engineStep
  else none

/-- The pre-emption that the scheduler asks for (R331). -/
def State.nextPreemption (s : State) : Option State := if s.chosen.isEmpty then none else some s.preempt

/-- The rounds of a saved hart whose slot is lost, aborted (R304). -/
def State.nextLost (s : State) : Option State :=
  (s.sched.launches.flatMap fun l => l.savedHarts).findSome? fun h =>
    if s.slotLost h && s.rounds.any fun r => r.state != .aborted && r.holds h then some (s.abortRoundsOf h)
    else none

/-- The record that the scheduler decides (R29). -/
def State.nextDecision (s : State) : Option State := s.nextRecord.map fun r => s.decideRecord r

/-- The units of the package in the order in which they act (log entry 4). -/
def units : List (State → Option State) :=
  [State.nextEndgame, State.nextCommand, State.nextLost, State.nextLanding, State.nextRead, State.nextMulticast, State.nextEmission, State.nextResolution,
    State.nextAutoClose, State.nextSave, State.nextForced, State.nextDrain, State.savedNext, State.nextRetired, State.endInvalidation,
    State.nextCompletion, State.nextRemoval, State.nextDecision, State.placeHead, State.nextRestore, State.growStage0,
    State.nextPreemption, State.nextTest]

/-- The event of the first unit that has something to do. -/
def State.internal (s : State) : Option State := units.findSome? fun u => u s

/-! ### The order of the harts and the clock -/

/-- Whether a hart is ready: it moves, and its next instruction is in no wait (R315). -/
def State.ready (s : State) (h : Hart) : Bool :=
  (s.focus h.ident.id).runnable && h.marks.wait == .none

/-- The hart that moves when the turn is prescribed for `h`: the first hart of its core in the rotation that is ready, or `h`
itself when none stands before it (R315). -/
def State.inRotation (s : State) (h : HartId) : HartId :=
  (((s.others ++ [s.hart]).find? fun k => k.core == h.val / 4 && (k.ident.id == h || s.ready k)).map fun k => k.ident.id).getD h

/-- The hart brought to the front whose turn it is, the present one behind the others. -/
def State.bring (s : State) (h : HartId) : State :=
  let rest := if s.hart.marks.halted then s.others else s.others ++ [s.hart]
  match pickHart (fun k => k.ident.id == h) [] rest with
  | some (g, more) => { s with hart := g, others := more }
  | none => s

/-- The hart that moves next: the next in rotation, or one of the core that `turns` names, whose own harts take turns (R315, log
entry 4). -/
def State.rotate (s : State) : State :=
  match s.turns with
  | h :: rest => { s.bring (s.inRotation h) with turns := rest }
  | [] =>
    match s.others with
    | [] => s
    | k :: rest => { s with hart := k, others := if s.hart.marks.halted then rest else rest ++ [s.hart] }

/-- A single step for debug is over once its instruction is (R365). -/
def Hart.stepDone (h : Hart) : Hart :=
  if h.marks.wait = .none then { h with marks := { h.marks with debugStep := false } } else h

/-- The clock after a step: its number, and the cycles it took (log entry 7). -/
def State.ticked (s : State) : State := { s with tick := s.tick + 1, cycle := s.cycle + Config.stepCycles s.tick }

/-- The end of a step: after a hart's turn the next hart moves. -/
def finishStep (turn : Bool) : Answered → Answered
  | .next t => .next (if turn then (t.withHart Hart.stepDone).rotate.ticked else t.ticked)
  | r => r

/-! ### A hart that runs one line -/

/-- The virtual address 0 of context 0 mapped to the start of die 0's near memory, for every access at U. -/
def lineEntry (pkg : Nat) : TlbEntry := ⟨0, 0, false, BitVec.ofNat 64 (pkg * 2 ^ 40 + 0x800000003D), none⟩

/-- A hart placed to run the line at virtual address 0, at U, with every class in its use mask. -/
def Hart.atLine (h : Hart) : Hart :=
  { h with
    scalar := { h.scalar with pc := 0, level := .u }
    xctx := { h.xctx with ctxid := 0 }
    ctl := { h.ctl with usemask := 0x7FFFFF, preqReq := false }
    copies := []
    strip := none
    closing := []
    viq := []
    hist := []
    marks := { (Hart.idle 0).marks with halted := false } }

/-- The state in which the next step runs slot 0 of a line (log entry 2). -/
def State.withLine (s : State) (line : List Byte) : State :=
  { s with
    hart := s.hart.atLine
    others := []
    agenda := []
    turns := []
    store := { s.store with
      mem := writeBytes s.store.mem 0x8000000000 line
      poison := s.store.poison.filter fun g => !(granules 0x8000000000 64).contains g
      transient := s.store.transient.filter fun g => !(granules 0x8000000000 64).contains g }
    tlb := lineEntry s.pkg.toNat :: s.tlb
    access := (s.setAccess ⟨4, 0, 0, 0x800000000F, 0x8000000000⟩).access
    cores := s.cores.map fun p => (p.1, { p.2 with marked := 0 })
    sched := State.reset.sched
    savedTests := []
    rounds := []
    fdie := { s.fdie with tlbInv := [] }
    power := { s.power with
      state := .p1, window := false, endgame := false, poweredOff := false, sdOk := s.power.sdOk ||| 1 } }

end Sys2Proof.Machine
end

