-- ==== Sys2Proof/Machine/Dispatch.lean ====
section
/-! DEFINITION. The dispatch: one arm for each instruction and event of the opcode table. -/

namespace Sys2Proof.Machine

/-- The effect of one instruction or event. -/
def exec (i : Instr) (s : State) : Host.Outcome State Fault Refusal :=
  match i with
  | .add o => Sys2Proof.Machine.execAdd o s
  | .sub o => Sys2Proof.Machine.execSub o s
  | .and o => Sys2Proof.Machine.execAnd o s
  | .or o => Sys2Proof.Machine.execOr o s
  | .xor o => Sys2Proof.Machine.execXor o s
  | .andn o => Sys2Proof.Machine.execAndn o s
  | .shl o => Sys2Proof.Machine.execShl o s
  | .shr o => Sys2Proof.Machine.execShr o s
  | .sra o => Sys2Proof.Machine.execSra o s
  | .rol o => Sys2Proof.Machine.execRol o s
  | .mul o => Sys2Proof.Machine.execMul o s
  | .mulh o => Sys2Proof.Machine.execMulh o s
  | .mulhu o => Sys2Proof.Machine.execMulhu o s
  | .div o => Sys2Proof.Machine.execDiv o s
  | .divu o => Sys2Proof.Machine.execDivu o s
  | .rem o => Sys2Proof.Machine.execRem o s
  | .remu o => Sys2Proof.Machine.execRemu o s
  | .min o => Sys2Proof.Machine.execMin o s
  | .max o => Sys2Proof.Machine.execMax o s
  | .minu o => Sys2Proof.Machine.execMinu o s
  | .maxu o => Sys2Proof.Machine.execMaxu o s
  | .slt o => Sys2Proof.Machine.execSlt o s
  | .sltu o => Sys2Proof.Machine.execSltu o s
  | .clz o => Sys2Proof.Machine.execClz o s
  | .ctz o => Sys2Proof.Machine.execCtz o s
  | .popc o => Sys2Proof.Machine.execPopc o s
  | .bswap o => Sys2Proof.Machine.execBswap o s
  | .addi o => Sys2Proof.Machine.execAddi o s
  | .andi o => Sys2Proof.Machine.execAndi o s
  | .ori o => Sys2Proof.Machine.execOri o s
  | .xori o => Sys2Proof.Machine.execXori o s
  | .slti o => Sys2Proof.Machine.execSlti o s
  | .sltiu o => Sys2Proof.Machine.execSltiu o s
  | .shli o => Sys2Proof.Machine.execShli o s
  | .shri o => Sys2Proof.Machine.execShri o s
  | .srai o => Sys2Proof.Machine.execSrai o s
  | .roli o => Sys2Proof.Machine.execRoli o s
  | .li o => Sys2Proof.Machine.execLi o s
  | .lih o => Sys2Proof.Machine.execLih o s
  | .sel o => Sys2Proof.Machine.execSel o s
  | .ldb o => Sys2Proof.Machine.execLdb o s
  | .ldbu o => Sys2Proof.Machine.execLdbu o s
  | .ldh o => Sys2Proof.Machine.execLdh o s
  | .ldhu o => Sys2Proof.Machine.execLdhu o s
  | .ldw o => Sys2Proof.Machine.execLdw o s
  | .ldwu o => Sys2Proof.Machine.execLdwu o s
  | .ldd o => Sys2Proof.Machine.execLdd o s
  | .stb o => Sys2Proof.Machine.execStb o s
  | .sth o => Sys2Proof.Machine.execSth o s
  | .stw o => Sys2Proof.Machine.execStw o s
  | .std o => Sys2Proof.Machine.execStd o s
  | .ldaq o => Sys2Proof.Machine.execLdaq o s
  | .strl o => Sys2Proof.Machine.execStrl o s
  | .amoadd o => Sys2Proof.Machine.execAmoadd o s
  | .amomin o => Sys2Proof.Machine.execAmomin o s
  | .amomax o => Sys2Proof.Machine.execAmomax o s
  | .amominu o => Sys2Proof.Machine.execAmominu o s
  | .amomaxu o => Sys2Proof.Machine.execAmomaxu o s
  | .amoand o => Sys2Proof.Machine.execAmoand o s
  | .amoor o => Sys2Proof.Machine.execAmoor o s
  | .amoxor o => Sys2Proof.Machine.execAmoxor o s
  | .amoswp o => Sys2Proof.Machine.execAmoswp o s
  | .cas o => Sys2Proof.Machine.execCas o s
  | .beq o => Sys2Proof.Machine.execBeq o s
  | .bne o => Sys2Proof.Machine.execBne o s
  | .blt o => Sys2Proof.Machine.execBlt o s
  | .bge o => Sys2Proof.Machine.execBge o s
  | .bltu o => Sys2Proof.Machine.execBltu o s
  | .bgeu o => Sys2Proof.Machine.execBgeu o s
  | .jmp o => Sys2Proof.Machine.execJmp o s
  | .call o => Sys2Proof.Machine.execCall o s
  | .jr target => Sys2Proof.Machine.execJr target s
  | .callr target => Sys2Proof.Machine.execCallr target s
  | .ret => Sys2Proof.Machine.execRet s
  | .bmany o => Sys2Proof.Machine.execBmany o s
  | .bmnone o => Sys2Proof.Machine.execBmnone o s
  | .nop => Sys2Proof.Machine.execNop s
  | .yield => Sys2Proof.Machine.execYield s
  | .halt => Sys2Proof.Machine.execHalt s
  | .eret => Sys2Proof.Machine.execEret s
  | .brk => Sys2Proof.Machine.execBrk s
  | .trap code => Sys2Proof.Machine.execTrap code s
  | .illegalInstruction reason word => Sys2Proof.Machine.execIllegalInstruction reason word s
  | .csrrw o => Sys2Proof.Machine.execCsrrw o s
  | .csrrs o => Sys2Proof.Machine.execCsrrs o s
  | .csrrc o => Sys2Proof.Machine.execCsrrc o s
  | .stripctlSeal => Sys2Proof.Machine.execStripctlSeal s
  | .vlgcapWrite h byMc cause => Sys2Proof.Machine.execVlgcapWrite h byMc cause s
  | .tlbinvAll => Sys2Proof.Machine.execTlbinvAll s
  | .tlbinvContext ctx => Sys2Proof.Machine.execTlbinvContext ctx s
  | .tlbinvPage ctx vpn => Sys2Proof.Machine.execTlbinvPage ctx vpn s
  | .fenceSv => Sys2Proof.Machine.execFenceSv s
  | .fenceVs => Sys2Proof.Machine.execFenceVs s
  | .fenceVv => Sys2Proof.Machine.execFenceVv s
  | .fenceAcq scope => Sys2Proof.Machine.execFenceAcq scope s
  | .fenceRel scope => Sys2Proof.Machine.execFenceRel scope s
  | .fenceFull scope => Sys2Proof.Machine.execFenceFull scope s
  | .waitm o => Sys2Proof.Machine.execWaitm o s
  | .waitmWake h => Sys2Proof.Machine.execWaitmWake h s
  | .waitmTimeout h => Sys2Proof.Machine.execWaitmTimeout h s
  | .invrdc o => Sys2Proof.Machine.execInvrdc o s
  | .wbl2 o => Sys2Proof.Machine.execWbl2 o s
  | .invl1 o => Sys2Proof.Machine.execInvl1 o s
  | .pref o => Sys2Proof.Machine.execPref o s
  | .publish o => Sys2Proof.Machine.execPublish o s
  | .launch d record => Sys2Proof.Machine.execLaunch d record s
  | .seal item length => Sys2Proof.Machine.execSeal item length s
  | .sealq d item => Sys2Proof.Machine.execSealq d item s
  | .qpush o => Sys2Proof.Machine.execQpush o s
  | .qpushWake h => Sys2Proof.Machine.execQpushWake h s
  | .qpop o => Sys2Proof.Machine.execQpop o s
  | .qpopWake h => Sys2Proof.Machine.execQpopWake h s
  | .qtrypop o => Sys2Proof.Machine.execQtrypop o s
  | .qstat o => Sys2Proof.Machine.execQstat o s
  | .ginit o => Sys2Proof.Machine.execGinit o s
  | .garr o => Sys2Proof.Machine.execGarr o s
  | .gwait o => Sys2Proof.Machine.execGwait o s
  | .gwaitWake h => Sys2Proof.Machine.execGwaitWake h s
  | .garw o => Sys2Proof.Machine.execGarw o s
  | .gqry o => Sys2Proof.Machine.execGqry o s
  | .vcfg o => Sys2Proof.Machine.execVcfg o s
  | .setvl o => Sys2Proof.Machine.execSetvl o s
  | .setvr o => Sys2Proof.Machine.execSetvr o s
  | .setvlb o => Sys2Proof.Machine.execSetvlb o s
  | .stripAutoClose h => Sys2Proof.Machine.execStripAutoClose h s
  | .stripCommitComplete h => Sys2Proof.Machine.execStripCommitComplete h s
  | .vadd o => Sys2Proof.Machine.execVadd o s
  | .vsub o => Sys2Proof.Machine.execVsub o s
  | .vmul o => Sys2Proof.Machine.execVmul o s
  | .vmulh o => Sys2Proof.Machine.execVmulh o s
  | .vmulhu o => Sys2Proof.Machine.execVmulhu o s
  | .vmin o => Sys2Proof.Machine.execVmin o s
  | .vmax o => Sys2Proof.Machine.execVmax o s
  | .vminu o => Sys2Proof.Machine.execVminu o s
  | .vmaxu o => Sys2Proof.Machine.execVmaxu o s
  | .vand o => Sys2Proof.Machine.execVand o s
  | .vor o => Sys2Proof.Machine.execVor o s
  | .vxor o => Sys2Proof.Machine.execVxor o s
  | .vandn o => Sys2Proof.Machine.execVandn o s
  | .vshl o => Sys2Proof.Machine.execVshl o s
  | .vshr o => Sys2Proof.Machine.execVshr o s
  | .vsra o => Sys2Proof.Machine.execVsra o s
  | .vadds o => Sys2Proof.Machine.execVadds o s
  | .vsubs o => Sys2Proof.Machine.execVsubs o s
  | .vpopc o => Sys2Proof.Machine.execVpopc o s
  | .vclz o => Sys2Proof.Machine.execVclz o s
  | .vctz o => Sys2Proof.Machine.execVctz o s
  | .vabsd o => Sys2Proof.Machine.execVabsd o s
  | .vaddi o => Sys2Proof.Machine.execVaddi o s
  | .vsubi o => Sys2Proof.Machine.execVsubi o s
  | .vandi o => Sys2Proof.Machine.execVandi o s
  | .vori o => Sys2Proof.Machine.execVori o s
  | .vxori o => Sys2Proof.Machine.execVxori o s
  | .vshli o => Sys2Proof.Machine.execVshli o s
  | .vshri o => Sys2Proof.Machine.execVshri o s
  | .vsrai o => Sys2Proof.Machine.execVsrai o s
  | .vaddsi o => Sys2Proof.Machine.execVaddsi o s
  | .vsubsi o => Sys2Proof.Machine.execVsubsi o s
  | .vfadd o => Sys2Proof.Machine.execVfadd o s
  | .vfsub o => Sys2Proof.Machine.execVfsub o s
  | .vfmul o => Sys2Proof.Machine.execVfmul o s
  | .vfdiv o => Sys2Proof.Machine.execVfdiv o s
  | .vfmin o => Sys2Proof.Machine.execVfmin o s
  | .vfmax o => Sys2Proof.Machine.execVfmax o s
  | .vfsgnj o => Sys2Proof.Machine.execVfsgnj o s
  | .vfma o => Sys2Proof.Machine.execVfma o s
  | .vfms o => Sys2Proof.Machine.execVfms o s
  | .vfnma o => Sys2Proof.Machine.execVfnma o s
  | .vfnms o => Sys2Proof.Machine.execVfnms o s
  | .vfsqrt o => Sys2Proof.Machine.execVfsqrt o s
  | .vfrcp o => Sys2Proof.Machine.execVfrcp o s
  | .vfrsq o => Sys2Proof.Machine.execVfrsq o s
  | .vfexp2 o => Sys2Proof.Machine.execVfexp2 o s
  | .vflog2 o => Sys2Proof.Machine.execVflog2 o s
  | .vfabs o => Sys2Proof.Machine.execVfabs o s
  | .vfneg o => Sys2Proof.Machine.execVfneg o s
  | .vfclass o => Sys2Proof.Machine.execVfclass o s
  | .vcvt o => Sys2Proof.Machine.execVcvt o s
  | .vcmpeq o => Sys2Proof.Machine.execVcmpeq o s
  | .vcmpne o => Sys2Proof.Machine.execVcmpne o s
  | .vcmplt o => Sys2Proof.Machine.execVcmplt o s
  | .vcmpge o => Sys2Proof.Machine.execVcmpge o s
  | .vcmpltu o => Sys2Proof.Machine.execVcmpltu o s
  | .vcmpgeu o => Sys2Proof.Machine.execVcmpgeu o s
  | .vfcmpeq o => Sys2Proof.Machine.execVfcmpeq o s
  | .vfcmpne o => Sys2Proof.Machine.execVfcmpne o s
  | .vfcmplt o => Sys2Proof.Machine.execVfcmplt o s
  | .vfcmple o => Sys2Proof.Machine.execVfcmple o s
  | .vfcmpgt o => Sys2Proof.Machine.execVfcmpgt o s
  | .vfcmpge o => Sys2Proof.Machine.execVfcmpge o s
  | .vfcmpun o => Sys2Proof.Machine.execVfcmpun o s
  | .vsel o => Sys2Proof.Machine.execVsel o s
  | .vmv o => Sys2Proof.Machine.execVmv o s
  | .vbcast o => Sys2Proof.Machine.execVbcast o s
  | .vmvxs o => Sys2Proof.Machine.execVmvxs o s
  | .vmvsx o => Sys2Proof.Machine.execVmvsx o s
  | .viota o => Sys2Proof.Machine.execViota o s
  | .vredsum o => Sys2Proof.Machine.execVredsum o s
  | .vredmin o => Sys2Proof.Machine.execVredmin o s
  | .vredmax o => Sys2Proof.Machine.execVredmax o s
  | .vredminu o => Sys2Proof.Machine.execVredminu o s
  | .vredmaxu o => Sys2Proof.Machine.execVredmaxu o s
  | .vredand o => Sys2Proof.Machine.execVredand o s
  | .vredor o => Sys2Proof.Machine.execVredor o s
  | .vredxor o => Sys2Proof.Machine.execVredxor o s
  | .vredfsum o => Sys2Proof.Machine.execVredfsum o s
  | .vredfmin o => Sys2Proof.Machine.execVredfmin o s
  | .vredfmax o => Sys2Proof.Machine.execVredfmax o s
  | .vredmini o => Sys2Proof.Machine.execVredmini o s
  | .vredmaxi o => Sys2Proof.Machine.execVredmaxi o s
  | .vredfmini o => Sys2Proof.Machine.execVredfmini o s
  | .vredfmaxi o => Sys2Proof.Machine.execVredfmaxi o s
  | .vscansum o => Sys2Proof.Machine.execVscansum o s
  | .vxscansum o => Sys2Proof.Machine.execVxscansum o s
  | .vscanmax o => Sys2Proof.Machine.execVscanmax o s
  | .vxscanmax o => Sys2Proof.Machine.execVxscanmax o s
  | .vscanmaxu o => Sys2Proof.Machine.execVscanmaxu o s
  | .vxscanmaxu o => Sys2Proof.Machine.execVxscanmaxu o s
  | .vscanfsum o => Sys2Proof.Machine.execVscanfsum o s
  | .vxscanfsum o => Sys2Proof.Machine.execVxscanfsum o s
  | .vscanfmax o => Sys2Proof.Machine.execVscanfmax o s
  | .vxscanfmax o => Sys2Proof.Machine.execVxscanfmax o s
  | .vcompress o => Sys2Proof.Machine.execVcompress o s
  | .vexpand o => Sys2Proof.Machine.execVexpand o s
  | .vgathr o => Sys2Proof.Machine.execVgathr o s
  | .vslideup o => Sys2Proof.Machine.execVslideup o s
  | .vslidedn o => Sys2Proof.Machine.execVslidedn o s
  | .vtrans o => Sys2Proof.Machine.execVtrans o s
  | .vrowbc o => Sys2Proof.Machine.execVrowbc o s
  | .mand o => Sys2Proof.Machine.execMand o s
  | .mor o => Sys2Proof.Machine.execMor o s
  | .mxor o => Sys2Proof.Machine.execMxor o s
  | .mandn o => Sys2Proof.Machine.execMandn o s
  | .mnot o => Sys2Proof.Machine.execMnot o s
  | .mset o => Sys2Proof.Machine.execMset o s
  | .mcnt o => Sys2Proof.Machine.execMcnt o s
  | .many o => Sys2Proof.Machine.execMany o s
  | .mfst o => Sys2Proof.Machine.execMfst o s
  | .vld o => Sys2Proof.Machine.execVld o s
  | .vlds o => Sys2Proof.Machine.execVlds o s
  | .vldx o => Sys2Proof.Machine.execVldx o s
  | .vldff o => Sys2Proof.Machine.execVldff o s
  | .vst o => Sys2Proof.Machine.execVst o s
  | .vsts o => Sys2Proof.Machine.execVsts o s
  | .vstx o => Sys2Proof.Machine.execVstx o s
  | .vstxO o => Sys2Proof.Machine.execVstxO o s
  | .vamoadd o => Sys2Proof.Machine.execVamoadd o s
  | .vamomin o => Sys2Proof.Machine.execVamomin o s
  | .vamomax o => Sys2Proof.Machine.execVamomax o s
  | .vamominu o => Sys2Proof.Machine.execVamominu o s
  | .vamomaxu o => Sys2Proof.Machine.execVamomaxu o s
  | .vamoand o => Sys2Proof.Machine.execVamoand o s
  | .vamoor o => Sys2Proof.Machine.execVamoor o s
  | .vamoxor o => Sys2Proof.Machine.execVamoxor o s
  | .vamoswp o => Sys2Proof.Machine.execVamoswp o s
  | .stra o => Sys2Proof.Machine.execStra o s
  | .strx o => Sys2Proof.Machine.execStrx o s
  | .stroff o => Sys2Proof.Machine.execStroff o s
  | .strpos o => Sys2Proof.Machine.execStrpos o s
  | .streamRefill h slot count => Sys2Proof.Machine.execStreamRefill h slot count s
  | .mmaIp o => Sys2Proof.Machine.execMmaIp o s
  | .mmaOp o => Sys2Proof.Machine.execMmaOp o s
  | .mmaRw o => Sys2Proof.Machine.execMmaRw o s
  | .gridGrant core => Sys2Proof.Machine.execGridGrant core s
  | .mergeUnitGrant core => Sys2Proof.Machine.execMergeUnitGrant core s
  | .mzero o => Sys2Proof.Machine.execMzero o s
  | .msets a => Sys2Proof.Machine.execMsets a s
  | .wbld o => Sys2Proof.Machine.execWbld o s
  | .mdrain o => Sys2Proof.Machine.execMdrain o s
  | .mdrainZ o => Sys2Proof.Machine.execMdrainZ o s
  | .vsort o => Sys2Proof.Machine.execVsort o s
  | .vmrg o => Sys2Proof.Machine.execVmrg o s
  | .vunionadd o => Sys2Proof.Machine.execVunionadd o s
  | .vunionmax o => Sys2Proof.Machine.execVunionmax o s
  | .vunionfst o => Sys2Proof.Machine.execVunionfst o s
  | .vinteradd o => Sys2Proof.Machine.execVinteradd o s
  | .vintermax o => Sys2Proof.Machine.execVintermax o s
  | .vinterfst o => Sys2Proof.Machine.execVinterfst o s
  | .vintermul o => Sys2Proof.Machine.execVintermul o s
  | .vtopk o => Sys2Proof.Machine.execVtopk o s
  | .vsegrsum o => Sys2Proof.Machine.execVsegrsum o s
  | .vsegrmin o => Sys2Proof.Machine.execVsegrmin o s
  | .vsegrmax o => Sys2Proof.Machine.execVsegrmax o s
  | .vsegrminu o => Sys2Proof.Machine.execVsegrminu o s
  | .vsegrmaxu o => Sys2Proof.Machine.execVsegrmaxu o s
  | .vsegrfsum o => Sys2Proof.Machine.execVsegrfsum o s
  | .vsegrfmin o => Sys2Proof.Machine.execVsegrfmin o s
  | .vsegrfmax o => Sys2Proof.Machine.execVsegrfmax o s
  | .xopen o => Sys2Proof.Machine.execXopen o s
  | .xclose round => Sys2Proof.Machine.execXclose round s
  | .xfloor o => Sys2Proof.Machine.execXfloor o s
  | .xstat o => Sys2Proof.Machine.execXstat o s
  | .xsplit o => Sys2Proof.Machine.execXsplit o s
  | .xround desc => Sys2Proof.Machine.execXround desc s
  | .xsend o => Sys2Proof.Machine.execXsend o s
  | .xsendMc o => Sys2Proof.Machine.execXsendMc o s
  | .xrecv o => Sys2Proof.Machine.execXrecv o s
  | .mergePointEmit ctx round point port => Sys2Proof.Machine.execMergePointEmit ctx round point port s
  | .exceptionRecordArrival ctx round recv r => Sys2Proof.Machine.execExceptionRecordArrival ctx round recv r s
  | .multicastIngressCopy ctx round point input => Sys2Proof.Machine.execMulticastIngressCopy ctx round point input s
  | .multicastHoldRelease ctx round point input => Sys2Proof.Machine.execMulticastHoldRelease ctx round point input s
  | .cpy o => Sys2Proof.Machine.execCpy o s
  | .cpySh o => Sys2Proof.Machine.execCpySh o s
  | .chunkRead h map chunk => Sys2Proof.Machine.execChunkRead h map chunk s
  | .chunkLanded h map chunk => Sys2Proof.Machine.execChunkLanded h map chunk s
  | .cmwait o => Sys2Proof.Machine.execCmwait o s
  | .cmtest o => Sys2Proof.Machine.execCmtest o s
  | .cmclr o => Sys2Proof.Machine.execCmclr o s
  | .vectorGroupComplete h => Sys2Proof.Machine.execVectorGroupComplete h s
  | .viqRetire h => Sys2Proof.Machine.execViqRetire h s
  | .recheckResolution h runs => Sys2Proof.Machine.execRecheckResolution h runs s
  | .recheckPriorityTimeout h => Sys2Proof.Machine.execRecheckPriorityTimeout h s
  | .laneGroupRetirement core group => Sys2Proof.Machine.execLaneGroupRetirement core group s
  | .testKernelPlacement core cls group image signature => Sys2Proof.Machine.execTestKernelPlacement core cls group image signature s
  | .testKernelVerdict core cls group output expected => Sys2Proof.Machine.execTestKernelVerdict core cls group output expected s
  | .remoteCopyExpiry inL1 unit line => Sys2Proof.Machine.execRemoteCopyExpiry inL1 unit line s
  | .launchportWrite p v => Sys2Proof.Machine.execLaunchportWrite p v s
  | .lpstatErrClear mask => Sys2Proof.Machine.execLpstatErrClear mask s
  | .schedulerTakeRecord => Sys2Proof.Machine.execSchedulerTakeRecord s
  | .launchPlacement => Sys2Proof.Machine.execLaunchPlacement s
  | .preemptRequest => Sys2Proof.Machine.execPreemptRequest s
  | .forcedSave h => Sys2Proof.Machine.execForcedSave h s
  | .saveCompletion h => Sys2Proof.Machine.execSaveCompletion h s
  | .launchRestore => Sys2Proof.Machine.execLaunchRestore s
  | .stageSchedulerEvaluation die => Sys2Proof.Machine.execStageSchedulerEvaluation die s
  | .launchCompletion seq => Sys2Proof.Machine.execLaunchCompletion seq s
  | .removalHartTimeout h => Sys2Proof.Machine.execRemovalHartTimeout h s
  | .removalComplete seq => Sys2Proof.Machine.execRemovalComplete seq s
  | .tlbinvrAll => Sys2Proof.Machine.execTlbinvrAll s
  | .tlbinvrContext ctx => Sys2Proof.Machine.execTlbinvrContext ctx s
  | .tlbinvrPage ctx vpn => Sys2Proof.Machine.execTlbinvrPage ctx vpn s
  | .tlbInvalidationComplete => Sys2Proof.Machine.execTlbInvalidationComplete s
  | .hostMemRead addr size => Sys2Proof.Machine.execHostMemRead addr size s
  | .hostMemWrite addr bytes => Sys2Proof.Machine.execHostMemWrite addr bytes s
  | .remoteAccessIngress req => Sys2Proof.Machine.execRemoteAccessIngress req s
  | .violationLogClear target => Sys2Proof.Machine.execViolationLogClear target s
  | .remoteAccessTimeout h => Sys2Proof.Machine.execRemoteAccessTimeout h s
  | .linkLaneLoss port all => Sys2Proof.Machine.execLinkLaneLoss port all s
  | .linkRetrainComplete port => Sys2Proof.Machine.execLinkRetrainComplete port s
  | .registerWrite off v => Sys2Proof.Machine.execRegisterWrite off v s
  | .pwrctlP0 => Sys2Proof.Machine.execPwrctlP0 s
  | .pwrctlP1 => Sys2Proof.Machine.execPwrctlP1 s
  | .pwrctlRet => Sys2Proof.Machine.execPwrctlRet s
  | .pwrctlOff => Sys2Proof.Machine.execPwrctlOff s
  | .pwrstatErrClear => Sys2Proof.Machine.execPwrstatErrClear s
  | .powerTransitionComplete => Sys2Proof.Machine.execPowerTransitionComplete s
  | .autoP0Entry => Sys2Proof.Machine.execAutoP0Entry s
  | .thermalThrottle die => Sys2Proof.Machine.execThermalThrottle die s
  | .throttleRelease => Sys2Proof.Machine.execThrottleRelease s
  | .thermalTrip => Sys2Proof.Machine.execThermalTrip s
  | .packageReset cold boot => Sys2Proof.Machine.execPackageReset cold boot s
  | .sdieSelfTestPass die => Sys2Proof.Machine.execSdieSelfTestPass die s
  | .bulkTrainingComplete die => Sys2Proof.Machine.execBulkTrainingComplete die s
  | .portTrained port => Sys2Proof.Machine.execPortTrained port s
  | .cxlLinkUp => Sys2Proof.Machine.execCxlLinkUp s
  | .dieFullService die => Sys2Proof.Machine.execDieFullService die s
  | .rechargeComplete => Sys2Proof.Machine.execRechargeComplete s
  | .undervoltageDetect => Sys2Proof.Machine.execUndervoltageDetect s
  | .supplyOutOfSpec => Sys2Proof.Machine.execSupplyOutOfSpec s
  | .powerFailWindowEnd => Sys2Proof.Machine.execPowerFailWindowEnd s
  | .holdupEngineWrite => Sys2Proof.Machine.execHoldupEngineWrite s
  | .mbAttestation nonce => Sys2Proof.Machine.execMbAttestation nonce s
  | .mbExtendMr index digest => Sys2Proof.Machine.execMbExtendMr index digest s
  | .mbWriteAccessEntry target cls entry w0 w1 => Sys2Proof.Machine.execMbWriteAccessEntry target cls entry w0 w1 s
  | .mbRemoveLaunch seq => Sys2Proof.Machine.execMbRemoveLaunch seq s
  | .mbDiscardSlot slot => Sys2Proof.Machine.execMbDiscardSlot slot s
  | .mbDebugRequest state token => Sys2Proof.Machine.execMbDebugRequest state token s
  | .mbEnterRma command => Sys2Proof.Machine.execMbEnterRma command s
  | .mbstatClear mask => Sys2Proof.Machine.execMbstatClear mask s
  | .debugHalt h action => Sys2Proof.Machine.execDebugHalt h action s
  | .uncorrectableError place => Sys2Proof.Machine.execUncorrectableError place s
  | .manufactureToSecure => Sys2Proof.Machine.execManufactureToSecure s

end Sys2Proof.Machine
end

