-- ==== Sys2Proof/Machine/Step.lean ====
section
/-! DEFINITION. The step: an input event that is due, else an event of the machine's own units, else the turn of the hart
that moves next (R56, R371, R372; log entries 2, 4, 6). -/

noncomputable section

namespace Sys2Proof.Machine

/-! ### Inputs -/

/-- Whether an instruction is an event that the outside, a timer or a unit raises, not something a hart executes. -/
def isInput (i : Instr) : Bool :=
  match i with
  | .illegalInstruction _ _ => false
  | .stripctlSeal => false
  | .tlbinvAll => false
  | .tlbinvContext _ => false
  | .tlbinvPage _ _ => false
  | j => (encode j).isNone

/-- The input that is due, and the state without it. -/
def State.due (s : State) : Option (Input × State) :=
  match s.agenda with
  | (t, i) :: rest => if t ≤ s.tick then some (i, { s with agenda := rest }) else none
  | [] => none

/-- What an input does (log entry 4). -/
def State.input (s : State) (i : Input) : Answered :=
  match i with
  | .event i => if isInput i then exec i s else .fault .notAnInput
  | .corrected die kind => .next (s.countCorrected die kind)
  | .linkReset port => .next (s.linkReset port)
  | .l1Size core size => .next (s.setL1 core size)
  | .peer pkg p => .next (s.setPeer pkg p)
  | .peerRound ctx id d sends recvs => .next (s.peerRound ctx id d sends recvs)
  | .peerAct ctx id n act => .next (s.peerAct ctx id n act)

/-! ### The turn of a hart -/

/-- The next line of the current hart fetched and its instruction executed (R41, R45, R56). A slot at or above N that sequential
flow or a transfer reaches because the line has changed since the slot before it or since the transfer's check is an illegal
target: the spec names no trap for it, and cause 0x02 with TPC and TVAL at that slot is the model's choice (R43, R45, log entry
48). -/
def State.runNext (s : State) : Answered :=
  let pc := s.hart.scalar.pc
  if pcReserved pc then .next (s.trap 0x02 pc)
  else
    match s.fetchLine s.hart.scalar.level (pcLine pc) with
    | (t, .error f) => .next (s.failing t .fetch (BitVec.ofNat 64 (pcLine pc)) f)
    | (s, .ok words) =>
      let s := s.fetched words
      match decodeSlot words (pcSlot pc) with
      | .badLine r w => execIllegalInstruction r (BitVec.ofNat 16 w) s
      | .badInstr r w => execIllegalInstruction r (BitVec.ofNat 16 w) s
      | .noSlot => .next (s.trap 0x02 pc)
      | .instr i => exec i s

/-- The turn of the current hart: an asynchronous trap at a boundary, work of its vector unit, or its next instruction; a hart
whose VIQ is full issues nothing (R8). -/
def State.turn (s : State) : Answered :=
  if !s.runnable then .next s
  else
    match s.asyncDue with
    | some t => .next (s.takeAsync t)
    | none =>
      if s.vectorTurn then .next s.work
      else
        let s := s.beforeFetch
        if 64 ≤ s.hart.viq.length then .next s.stall else s.runNext

/-- One step of the package. -/
def step (s : State) : Host.Outcome State Fault Refusal :=
  match s.due with
  | some (i, t) => finishStep false (t.input i)
  | none =>
    match s.internal with
    | some t => finishStep false (.next t)
    | none => finishStep true s.turn

/-! ### Placing an instruction where the next step fetches it -/

/-- The line of a table word stored at the start of die 0's near memory, and a hart of the package that runs there: its
page translated, the page's access entry, cores that are on, and nothing that moves before the hart (log entry 2). -/
def State.withFetchWord (s : State) (nbits w : Nat) : State :=
  s.withLine (bytesOfWords (tableLine nbits w))

end Sys2Proof.Machine

end
end

