-- ==== Sys2Proof/Safety.lean ====
section
/-! DEFINITION. The terms in which claims are made: what a safe state is, when an instruction may execute, what a family
computes, and what an instruction leaves unchanged. -/

noncomputable section

namespace Sys2Proof.Machine

/-! ### Safe states -/

/-- Every memory of the package is in canonical form: home memory, host memory, the M-die data region and the memory of
every other package, present or still to come as an input. Every step keeps this. -/
def State.memoriesOk (s : State) : Prop :=
  Memory.wf s.store.mem = true ∧ Memory.wf s.store.host = true ∧ Memory.wf s.holdup.mdie = true ∧
    (∀ p ∈ s.store.peers, Memory.wf p.2.mem = true) ∧
    ∀ a ∈ s.agenda, ∀ n p, a.2 = Input.peer n (some p) → Memory.wf p.mem = true

/-- Everything a hart has posted, buffered or closed bears a VIQ number below the next one (R8, R24, R238). -/
def Hart.timely (h : Hart) : Prop :=
  1 ≤ h.nextSeq ∧ (∀ q ∈ h.viq, q.e.seq < h.nextSeq) ∧ (∀ e ∈ h.sbuf, e.after < h.nextSeq) ∧
    ∀ t ∈ h.closing, t.closedAt < h.nextSeq

/-- A hart whose vector unit is idle has no commit under way, and only stores of its open strip wait (R24, R238). -/
def Hart.quiet (h : Hart) : Prop :=
  h.closing = [] ∧ ∀ e ∈ h.sbuf, ∃ t ∈ h.strip.toList, t.id = e.strip

/-- The vector registers, the masks, the prior contents kept for every posted instruction and the shadows of every strip
are in canonical form; every history entry follows a posted instruction (R9), numbers are in order, and the hart is quiet
while nothing is posted. -/
def Hart.orderly (h : Hart) : Prop :=
  Memory.wf h.vrf = true ∧ Memory.wf h.masks = true ∧
    (∀ q ∈ h.viq, (∀ p ∈ q.r.prior ++ q.r.tiles, Memory.wf p.2 = true) ∧ ∀ p ∈ q.r.priorMask.toList, Memory.wf p.2 = true) ∧
    (∀ t ∈ h.strip.toList ++ h.closing, ∀ p ∈ t.shadows, Memory.wf p.2 = true) ∧
    (∀ i ∈ h.hist, ∃ q ∈ h.viq, q.e.seq = i.after) ∧ h.timely ∧ (h.viq = [] → h.quiet)

/-- Every hart of the package is orderly: the one that moves next, every other placed one, every saved one, and every test
kernel that waits. Every step keeps this. -/
def State.hartsOk (s : State) : Prop :=
  s.hart.orderly ∧ (∀ k ∈ s.others, k.orderly) ∧ (∀ l ∈ s.sched.launches, ∀ k ∈ l.savedHarts, k.orderly) ∧
    ∀ k ∈ s.savedTests, k.orderly

/-! ### When an instruction may execute -/

/-- The level, the use mask and the core permit a capability class (R196). -/
def State.mayUse (s : State) (cls : Nat) : Prop :=
  (s.hart.scalar.level = .s ∨ s.hart.ctl.usemask.getLsbD cls = true) ∧ s.capable cls = true

/-- A scalar instruction of a class that reads or writes `rs` issues now (R9, R10, R56, R380). -/
def State.canIssue (s : State) (cls : Nat) (rs : List XReg) : Prop :=
  s.mayUse cls ∧ (∀ r ∈ rs, s.hart.pendingX r = false) ∧ (s.hart.viq = [] ∨ s.hart.hist.length < 64) ∧
    s.hart.marks.badRegs = []

/-- A scalar instruction of a class issues now, with nothing posted (R10), in a hart as every step leaves it. -/
def State.isReady (s : State) (cls : Nat) : Prop :=
  s.mayUse cls ∧ s.hart.viq = [] ∧ s.hart.marks.badRegs = [] ∧ s.hart.orderly

/-- The handler of the current hart can be entered (R45, R371, R373); `t` is the state after its address was checked. -/
def State.canTrap (s t : State) : Prop :=
  s.hart.trap.inTrap = false ∧ s.targetIllegal .s s.hart.trap.tvec = (t, .ok false)

/-! ### What an instruction leaves unchanged -/

/-- Every byte that a read of the package's memory, of host memory and of another package's memory gives is the same. -/
def State.sameMemory (s t : State) : Prop :=
  (∀ a, memRead t.store.mem a = memRead s.store.mem a) ∧ (∀ a, memRead t.store.host a = memRead s.store.host a) ∧
    t.store.peers = s.store.peers

/-- Every byte of the package's memory outside `n` bytes at a local address is the same. -/
def State.sameMemoryOutside (s t : State) (la n : Nat) : Prop :=
  ∀ a, a < la ∨ la + n ≤ a → memRead t.store.mem a = memRead s.store.mem a

/-- Everything outside the current hart is the same, memory included. -/
def State.samePackage (s t : State) : Prop := { t with hart := s.hart } = s ∧ s.sameMemory t

/-- The marks of a hart after an instruction that completed: in no wait, and the marks of ERET used up (R22, R374). -/
def Marks.completed (m : Marks) : Marks := { m with wait := .none, resuming := false, pmaskLive := false }

/-- The vector state of a hart past the instruction that VRESUME was kept for: VRESUME reads 0 (R22). -/
def Hart.vPast (h : Hart) : VState :=
  { h.v with
    vresume := if h.marks.resuming then 0 else h.v.vresume
    vresumeAt := if h.marks.resuming then none else h.v.vresumeAt }

/-- Everything of a hart but its scalar registers, program counter and instruction count is the same; the marks that one
instruction uses up are, and VRESUME reads 0 once the instruction it was kept for is past (R22). -/
def Hart.sameButScalars (h k : Hart) : Prop :=
  k = { h with
    scalar := { h.scalar with x := k.scalar.x, pc := k.scalar.pc, instret := h.scalar.instret + 1 }
    v := h.vPast
    hist := k.hist
    marks := h.marks.completed }

/-- Scalar register `d` holds `v` and every other one is the same; x0 reads 0 always (R47). -/
def State.onlyX (s t : State) (d : XReg) (v : Word) : Prop :=
  ∀ r, t.x r = if r = d ∧ d ≠ 0 then v else s.x r

/-- Every scalar register is the same. -/
def State.sameX (s t : State) : Prop := ∀ r, t.x r = s.x r

/-- The current hart takes a trap (R371): its cause, TVAL and TPC, the level it came from, INTRAP and PMASK are set, it continues at
TVEC at S, and its scalar registers, its call stack and its control registers, and every other hart, are as they were. -/
def State.trapsTo (s t : State) (cause : Nat) (tval tpc : Word) : Prop :=
  t.hart.trap.cause = BitVec.ofNat 8 cause ∧ t.hart.trap.tval = tval ∧ t.hart.trap.tpc = tpc ∧
    t.hart.trap.spl = (s.hart.scalar.level == .s) ∧ t.hart.trap.inTrap = true ∧ t.hart.trap.pmask = (cause == 0x09) ∧
    t.hart.trap.tvec = s.hart.trap.tvec ∧ t.hart.scalar.pc = s.hart.trap.tvec ∧ t.hart.scalar.level = .s ∧ s.sameX t ∧
    t.hart.scalar.calls = s.hart.scalar.calls ∧ t.hart.scalar.csptr = s.hart.scalar.csptr ∧ t.hart.ctl = s.hart.ctl ∧
    t.hart.xctx = s.hart.xctx ∧ t.others = s.others

/-- Nothing was done but what a trap does (R371): vector registers, masks, vector status, streams, chunk maps and copies are the
same, and so is every byte of memory when the strip store buffer held nothing that the trap commits. -/
def State.intact (s t : State) : Prop :=
  t.hart.v = s.hart.v ∧ t.hart.vrf = s.hart.vrf ∧ t.hart.masks = s.hart.masks ∧ t.hart.streams = s.hart.streams ∧
    t.hart.chunks = s.hart.chunks ∧ t.hart.copies = s.hart.copies ∧ (s.hart.sbuf = [] → s.sameMemory t)

/-! ### Scalar families -/

/-- The registers that an arithmetic instruction reads, its destination and its result (R95 to R98). -/
def aluResult (s : State) : Instr → Option (List XReg × XReg × Word)
  | .add o => some ([o.a, o.b], o.d, s.x o.a + s.x o.b)
  | .sub o => some ([o.a, o.b], o.d, s.x o.a - s.x o.b)
  | .and o => some ([o.a, o.b], o.d, s.x o.a &&& s.x o.b)
  | .or o => some ([o.a, o.b], o.d, s.x o.a ||| s.x o.b)
  | .xor o => some ([o.a, o.b], o.d, s.x o.a ^^^ s.x o.b)
  | .andn o => some ([o.a, o.b], o.d, s.x o.a &&& ~~~s.x o.b)
  | .shl o => some ([o.a, o.b], o.d, s.x o.a <<< ((s.x o.b).toNat % 64))
  | .shr o => some ([o.a, o.b], o.d, s.x o.a >>> ((s.x o.b).toNat % 64))
  | .sra o => some ([o.a, o.b], o.d, (s.x o.a).sshiftRight ((s.x o.b).toNat % 64))
  | .rol o => some ([o.a, o.b], o.d, (s.x o.a).rotateLeft ((s.x o.b).toNat % 64))
  | .mul o => some ([o.a, o.b], o.d, s.x o.a * s.x o.b)
  | .mulh o => some ([o.a, o.b], o.d, BitVec.ofInt 64 ((s.x o.a).toInt * (s.x o.b).toInt / (2 ^ 64 : Nat)))
  | .mulhu o => some ([o.a, o.b], o.d, BitVec.ofNat 64 ((s.x o.a).toNat * (s.x o.b).toNat / 2 ^ 64))
  | .div o => some ([o.a, o.b], o.d,
      if s.x o.b = 0 then BitVec.allOnes 64 else BitVec.ofInt 64 ((s.x o.a).toInt.tdiv (s.x o.b).toInt))
  | .divu o => some ([o.a, o.b], o.d,
      if s.x o.b = 0 then BitVec.allOnes 64 else BitVec.ofNat 64 ((s.x o.a).toNat / (s.x o.b).toNat))
  | .rem o => some ([o.a, o.b], o.d,
      if s.x o.b = 0 then s.x o.a else BitVec.ofInt 64 ((s.x o.a).toInt.tmod (s.x o.b).toInt))
  | .remu o => some ([o.a, o.b], o.d,
      if s.x o.b = 0 then s.x o.a else BitVec.ofNat 64 ((s.x o.a).toNat % (s.x o.b).toNat))
  | .min o => some ([o.a, o.b], o.d, if (s.x o.b).toInt < (s.x o.a).toInt then s.x o.b else s.x o.a)
  | .max o => some ([o.a, o.b], o.d, if (s.x o.a).toInt < (s.x o.b).toInt then s.x o.b else s.x o.a)
  | .minu o => some ([o.a, o.b], o.d, if (s.x o.b).toNat < (s.x o.a).toNat then s.x o.b else s.x o.a)
  | .maxu o => some ([o.a, o.b], o.d, if (s.x o.a).toNat < (s.x o.b).toNat then s.x o.b else s.x o.a)
  | .slt o => some ([o.a, o.b], o.d, if (s.x o.a).toInt < (s.x o.b).toInt then 1 else 0)
  | .sltu o => some ([o.a, o.b], o.d, if (s.x o.a).toNat < (s.x o.b).toNat then 1 else 0)
  | .clz o => some ([o.a], o.d, BitVec.ofNat 64 (countLeading 64 (s.x o.a).toNat))
  | .ctz o => some ([o.a], o.d, BitVec.ofNat 64 (countTrailing 64 (s.x o.a).toNat))
  | .popc o => some ([o.a], o.d, BitVec.ofNat 64 (countOnes 64 (s.x o.a).toNat))
  | .bswap o => some ([o.a], o.d, BitVec.ofNat 64 (leNat (natBytes 8 (s.x o.a).toNat).reverse))
  | .addi o => some ([o.a], o.d, s.x o.a + o.imm.signExtend 64)
  | .andi o => some ([o.a], o.d, s.x o.a &&& o.imm.signExtend 64)
  | .ori o => some ([o.a], o.d, s.x o.a ||| o.imm.signExtend 64)
  | .xori o => some ([o.a], o.d, s.x o.a ^^^ o.imm.signExtend 64)
  | .slti o => some ([o.a], o.d, if (s.x o.a).toInt < o.imm.toInt then 1 else 0)
  | .sltiu o => some ([o.a], o.d, if (s.x o.a).toNat < (o.imm.signExtend 64).toNat then 1 else 0)
  | .shli o => some ([o.a], o.d, s.x o.a <<< o.amount.val)
  | .shri o => some ([o.a], o.d, s.x o.a >>> o.amount.val)
  | .srai o => some ([o.a], o.d, (s.x o.a).sshiftRight o.amount.val)
  | .roli o => some ([o.a], o.d, (s.x o.a).rotateLeft o.amount.val)
  | .li o => some ([], o.d, o.imm.signExtend 64)
  | .lih o => some ([o.d], o.d, o.imm ++ (s.x o.d).setWidth 32)
  | .sel o => some ([o.c, o.a, o.b], o.d, if s.x o.c ≠ 0 then s.x o.a else s.x o.b)
  | _ => none

/-- The operands of a load, its bytes and how its value is extended (R99). -/
def loadForm : Instr → Option (LoadOps × Nat × (Nat → Word))
  | .ldb o => some (o, 1, sextBytes 1)
  | .ldbu o => some (o, 1, zextBytes)
  | .ldh o => some (o, 2, sextBytes 2)
  | .ldhu o => some (o, 2, zextBytes)
  | .ldw o => some (o, 4, sextBytes 4)
  | .ldwu o => some (o, 4, zextBytes)
  | .ldd o => some (o, 8, zextBytes)
  | _ => none

/-- The operands of a store and its bytes (R100). -/
def storeForm : Instr → Option (StoreOps × Nat)
  | .stb o => some (o, 1)
  | .sth o => some (o, 2)
  | .stw o => some (o, 4)
  | .std o => some (o, 8)
  | _ => none

/-- The state in which an access to a page is made: an access to an SO page commits the strip first (R236). -/
def State.ordered (s : State) (kind : PageKind) : State := if kind = .so then s.commit else s

/-- Whether a physical address is home memory of the package: bulk, near or core-local (R219). -/
def State.homeMemory (s : State) (pa : Nat) : Prop :=
  paPkg pa = s.pkg.toNat ∧ ∀ off, region (paLocal pa) ≠ .device off ∧ region (paLocal pa) ≠ .hostWindow off

/-- The compared registers of a branch, its target's fields and its condition (R102). -/
def branchForm : Instr → Option (BranchOps × (Word → Word → Bool))
  | .beq o => some (o, fun a b => a == b)
  | .bne o => some (o, fun a b => a != b)
  | .blt o => some (o, fun a b => decide (a.toInt < b.toInt))
  | .bge o => some (o, fun a b => decide (b.toInt ≤ a.toInt))
  | .bltu o => some (o, fun a b => decide (a.toNat < b.toNat))
  | .bgeu o => some (o, fun a b => decide (b.toNat ≤ a.toNat))
  | _ => none

/-- The target of an unconditional transfer that pushes nothing (R44, R103, R104). -/
def jumpTarget (s : State) : Instr → Option Word
  | .jmp o => some (relTarget s.hart.scalar.pc o.loff.toInt o.slot.val)
  | .jr r => some (s.x r)
  | _ => none

/-- The target of a call (R44, R103, R104). -/
def callTarget (s : State) : Instr → Option Word
  | .call o => some (relTarget s.hart.scalar.pc o.loff.toInt o.slot.val)
  | .callr r => some (s.x r)
  | _ => none

/-- The operands of a mask branch and whether it is taken when a bit is set (R109). -/
def maskBranchForm : Instr → Option (MaskBranchOps × Bool)
  | .bmany o => some (o, true)
  | .bmnone o => some (o, false)
  | _ => none

/-- The trap that an instruction takes as its own effect: cause, TVAL and the TPC (R56, R110, R111). -/
def ownTrap (s : State) : Instr → Option (Nat × Word × Word)
  | .brk => some (0x10, 0, s.hart.nextPc)
  | .trap code => some (0x0F, code.setWidth 64, s.hart.nextPc)
  | .illegalInstruction r w => some (0x01, BitVec.ofNat 64 (r.code * 65536 + w.toNat), s.hart.scalar.pc)
  | _ => none

/-- The operation and operands of a scalar atomic (R250). -/
def amoForm : Instr → Option (AmoOp × AmoOps)
  | .amoadd o => some (.add, o)
  | .amomin o => some (.min, o)
  | .amomax o => some (.max, o)
  | .amominu o => some (.minu, o)
  | .amomaxu o => some (.maxu, o)
  | .amoand o => some (.and, o)
  | .amoor o => some (.or, o)
  | .amoxor o => some (.xor, o)
  | .amoswp o => some (.swp, o)
  | _ => none

/-- A scalar instruction that accesses memory: its class, the kind, address and bytes of its access (R99, R100, R248 to R255). -/
def scalarAccess (s : State) : Instr → Option (Nat × AccessKind × Word × Nat)
  | .ldaq o => some (1, .load, s.x o.base + o.off.signExtend 64, o.size.bytes)
  | .strl o => some (1, .store, s.x o.base + o.off.signExtend 64, o.size.bytes)
  | .cas o => some (1, .atomic, s.x o.addr, amoBytes o.dbl)
  | .waitm o => some (1, .load, s.x o.addr, amoBytes o.dbl)
  | i =>
    match loadForm i, storeForm i, amoForm i with
    | some (o, n, _), _, _ => some (0, .load, s.x o.base + o.off.signExtend 64, n)
    | _, some (o, n), _ => some (0, .store, s.x o.base + o.off.signExtend 64, n)
    | _, _, some (_, o) => some (1, .atomic, s.x o.addr, amoBytes o.dbl)
    | _, _, _ => none

/-- The gate that a gate instruction uses and what it does there: a GARW that has arrived only looks (R273, R274, R276). -/
def gateForm (s : State) : Instr → Option (Word × GateUse)
  | .ginit o => some (s.x o.gate, .ginit (s.x o.count).toNat)
  | .garr o => some (s.x o.gate, .arrive (s.arriveCount o))
  | .gwait o => some (s.x o.gate, .look)
  | .garw o => some
      (match s.hart.marks.garw.find? fun w => w.pc == s.hart.scalar.pc with
      | some w => (BitVec.ofNat 64 w.gate, .look)
      | none => (s.x o.gate, .arrive (s.arriveCount o)))
  | .gqry o => some (s.x o.gate, .look)
  | _ => none

/-- The queue of a queue instruction, and whether it pushes (R323, R324). -/
def queueForm : Instr → Option (Fin 64 × Bool)
  | .qpush o => some (o.q, true)
  | .qpop o => some (o.q, false)
  | .qtrypop o => some (o.q, false)
  | _ => none

/-- The operands of a CSR instruction, whether it writes, and the value it writes (R112). -/
def csrForm (s : State) : Instr → Option (CsrOps × Bool × Word)
  | .csrrw o => some (o, true, s.x o.a)
  | .csrrs o => some (o, o.a != 0, s.csrRead o.csr.val ||| s.x o.a)
  | .csrrc o => some (o, o.a != 0, s.csrRead o.csr.val &&& ~~~s.x o.a)
  | _ => none

/-! ### Vector families -/

/-- What an instruction of the vector class is posted as (R8). -/
def posted : Instr → Option VInstr
  | .vadd o => some (.via .add o)
  | .vsub o => some (.via .sub o)
  | .vmul o => some (.via .mul o)
  | .vmulh o => some (.via .mulh o)
  | .vmulhu o => some (.via .mulhu o)
  | .vmin o => some (.via .min o)
  | .vmax o => some (.via .max o)
  | .vminu o => some (.via .minu o)
  | .vmaxu o => some (.via .maxu o)
  | .vand o => some (.via .and o)
  | .vor o => some (.via .or o)
  | .vxor o => some (.via .xor o)
  | .vandn o => some (.via .andn o)
  | .vshl o => some (.via .shl o)
  | .vshr o => some (.via .shr o)
  | .vsra o => some (.via .sra o)
  | .vadds o => some (.via .adds o)
  | .vsubs o => some (.via .subs o)
  | .vpopc o => some (.viaUnary .popc o)
  | .vclz o => some (.viaUnary .clz o)
  | .vctz o => some (.viaUnary .ctz o)
  | .vabsd o => some (.via .absd o)
  | .vaddi o => some (.viai .add o)
  | .vsubi o => some (.viai .sub o)
  | .vandi o => some (.viai .and o)
  | .vori o => some (.viai .or o)
  | .vxori o => some (.viai .xor o)
  | .vshli o => some (.viai .shl o)
  | .vshri o => some (.viai .shr o)
  | .vsrai o => some (.viai .sra o)
  | .vaddsi o => some (.viai .adds o)
  | .vsubsi o => some (.viai .subs o)
  | .vfadd o => some (.vfa .add o)
  | .vfsub o => some (.vfa .sub o)
  | .vfmul o => some (.vfa .mul o)
  | .vfdiv o => some (.vfa .div o)
  | .vfmin o => some (.vfmm .min o)
  | .vfmax o => some (.vfmm .max o)
  | .vfsgnj o => some (.vfmm .sgnj o)
  | .vfma o => some (.vfma .fma o)
  | .vfms o => some (.vfma .fms o)
  | .vfnma o => some (.vfma .fnma o)
  | .vfnms o => some (.vfma .fnms o)
  | .vfsqrt o => some (.vfu .sqrt o)
  | .vfrcp o => some (.vfu .rcp o)
  | .vfrsq o => some (.vfu .rsq o)
  | .vfexp2 o => some (.vfu .exp2 o)
  | .vflog2 o => some (.vfu .log2 o)
  | .vfabs o => some (.vfuNr .abs o)
  | .vfneg o => some (.vfuNr .neg o)
  | .vfclass o => some (.vfuNr .cls o)
  | .vcvt o => some (.vcvt o)
  | .vcmpeq o => some (.vcmp .eq o)
  | .vcmpne o => some (.vcmp .ne o)
  | .vcmplt o => some (.vcmp .lt o)
  | .vcmpge o => some (.vcmp .ge o)
  | .vcmpltu o => some (.vcmp .ltu o)
  | .vcmpgeu o => some (.vcmp .geu o)
  | .vfcmpeq o => some (.vfcmp .eq o)
  | .vfcmpne o => some (.vfcmp .ne o)
  | .vfcmplt o => some (.vfcmp .lt o)
  | .vfcmple o => some (.vfcmp .le o)
  | .vfcmpgt o => some (.vfcmp .gt o)
  | .vfcmpge o => some (.vfcmp .ge o)
  | .vfcmpun o => some (.vfcmp .un o)
  | .vsel o => some (.vsel o)
  | .vmv o => some (.vmv o)
  | .vbcast o => some (.vbcast o)
  | .vmvxs o => some (.vmvxs o)
  | .vmvsx o => some (.vmvsx o)
  | .viota o => some (.viota o)
  | .vredsum o => some (.vred .sum o.sat ⟨o.d, o.a, o.axis, o.w, o.m⟩)
  | .vredmin o => some (.vred .min false o)
  | .vredmax o => some (.vred .max false o)
  | .vredminu o => some (.vred .minu false o)
  | .vredmaxu o => some (.vred .maxu false o)
  | .vredand o => some (.vred .and false o)
  | .vredor o => some (.vred .or false o)
  | .vredxor o => some (.vred .xor false o)
  | .vredfsum o => some (.vredFsum o)
  | .vredfmin o => some (.vredFmm false o)
  | .vredfmax o => some (.vredFmm true o)
  | .vredmini o => some (.vredi false o)
  | .vredmaxi o => some (.vredi true o)
  | .vredfmini o => some (.vredfi false o)
  | .vredfmaxi o => some (.vredfi true o)
  | .vscansum o => some (.vscan .sum false o)
  | .vxscansum o => some (.vscan .sum true o)
  | .vscanmax o => some (.vscan .max false o)
  | .vxscanmax o => some (.vscan .max true o)
  | .vscanmaxu o => some (.vscan .maxu false o)
  | .vxscanmaxu o => some (.vscan .maxu true o)
  | .vscanfsum o => some (.vscanFsum false o)
  | .vxscanfsum o => some (.vscanFsum true o)
  | .vscanfmax o => some (.vscanFmax false o)
  | .vxscanfmax o => some (.vscanFmax true o)
  | .vcompress o => some (.vcompress o)
  | .vexpand o => some (.vexpand o)
  | .vgathr o => some (.vgathr o)
  | .vslideup o => some (.vslideup o)
  | .vslidedn o => some (.vslidedn o)
  | .vtrans o => some (.vtrans o)
  | .vrowbc o => some (.vrowbc o)
  | .mand o => some (.mop .and o)
  | .mor o => some (.mop .or o)
  | .mxor o => some (.mop .xor o)
  | .mandn o => some (.mop .andn o)
  | .mnot o => some (.mnot o)
  | .mset o => some (.mset o)
  | .mcnt o => some (.mcnt .cnt o)
  | .many o => some (.mcnt .any o)
  | .mfst o => some (.mcnt .fst o)
  | .vld o => some (.vld false o)
  | .vlds o => some (.vld true o)
  | .vldx o => some (.vldx o)
  | .vldff o => some (.vldff o)
  | .vst o => some (.vst false o)
  | .vsts o => some (.vst true o)
  | .vstx o => some (.vstx false o)
  | .vstxO o => some (.vstx true o)
  | .vamoadd o => some (.vamo .add o)
  | .vamomin o => some (.vamo .min o)
  | .vamomax o => some (.vamo .max o)
  | .vamominu o => some (.vamo .minu o)
  | .vamomaxu o => some (.vamo .maxu o)
  | .vamoand o => some (.vamo .and o)
  | .vamoor o => some (.vamo .or o)
  | .vamoxor o => some (.vamo .xor o)
  | .vamoswp o => some (.vamo .swp o)
  | .stra o => some (.stra false o)
  | .strx o => some (.stra true o)
  | .stroff o => some (.stroff o)
  | .strpos o => some (.strpos o)
  | .mmaIp o => some (.mma .ip o)
  | .mmaOp o => some (.mma .op o)
  | .mmaRw o => some (.mma .rw o)
  | .wbld o => some (.wbld o)
  | .mdrain o => some (.mdrain none o)
  | .mdrainZ o => some (.mdrain (some o.z) ⟨o.d, o.a, o.g, o.sat, o.rm, o.ofmt, o.accf, o.m⟩)
  | .vsort o => some (.vsort o)
  | .vmrg o => some (.vmrg o)
  | .vunionadd o => some (.vset false .add o)
  | .vunionmax o => some (.vset false .max ⟨o.d, o.cnt, o.a, o.b, o.lens, o.dz, o.fmt, .rne⟩)
  | .vunionfst o => some (.vset false .first ⟨o.d, o.cnt, o.a, o.b, o.lens, o.dz, o.fmt, .rne⟩)
  | .vinteradd o => some (.vset true .add o)
  | .vintermax o => some (.vset true .max ⟨o.d, o.cnt, o.a, o.b, o.lens, o.dz, o.fmt, .rne⟩)
  | .vinterfst o => some (.vset true .first ⟨o.d, o.cnt, o.a, o.b, o.lens, o.dz, o.fmt, .rne⟩)
  | .vintermul o => some (.vset true .mul o)
  | .vtopk o => some (.vtopk o)
  | .vsegrsum o => some (.vsegr .sum o)
  | .vsegrmin o => some (.vsegr .min o)
  | .vsegrmax o => some (.vsegr .max o)
  | .vsegrminu o => some (.vsegr .minu o)
  | .vsegrmaxu o => some (.vsegr .maxu o)
  | .vsegrfsum o => some (.vsegrFsum o)
  | .vsegrfmin o => some (.vsegrFmm false o)
  | .vsegrfmax o => some (.vsegrFmm true o)
  | .xopen o => some (.xopen o)
  | .xclose round => some (.xclose round)
  | .xfloor o => some (.xfloor o)
  | .xstat o => some (.xstat o)
  | .xsplit o => some (.xsplit o)
  | .xround desc => some (.xround desc)
  | .xsend o => some (.xsend none o)
  | .xsendMc o => some (.xsend (some o.group) ⟨o.pay, o.keys, o.round, o.m⟩)
  | .xrecv o => some (.xrecv o)
  | .cpy o => some (.cpy false o)
  | .cpySh o => some (.cpy true o)
  | .cmwait o => some (.cmwait o)
  | .cmtest o => some (.cmtest o)
  | .cmclr o => some (.cmclr o)
  | .vcfg o => some (.vcfg o)
  | .setvl o => some (.setvl o)
  | .setvr o => some (.setvr o)
  | .setvlb o => some (.setvlb o)
  | .msets a => some (.msets a)
  | .mzero o => some (.mzero o)
  | _ => none

/-- Nothing is posted by any other hart of the current hart's core: the units that its instructions share are free, and no
recheck is open (R160, R178, R201). -/
def State.idleUnits (s : State) : Prop := ∀ k ∈ s.others, k.core = s.hart.core → k.viq = []

/-- A posted instruction passes every check at issue (R13, R14, R48, R56, R196) with nothing else posted in the core: it is
worked on at once. -/
def State.vectorPosts (s : State) (v : VInstr) : Prop :=
  s.hart.viq = [] ∧ s.hart.lead = 0 ∧ s.hart.marks.removed = false ∧ s.hart.marks.saving = false ∧
    s.hart.marks.halted = false ∧ s.hart.marks.badRegs = [] ∧ s.hart.orderly ∧ s.idleUnits ∧
    s.issueIllegal v (s.entryOf v) = none ∧ s.issueReserved v (s.entryOf v) = none ∧ s.mayUse (vclass v)

/-- A posted instruction runs without a recheck (R199, R200). -/
def State.unchecked (s : State) (v : VInstr) : Prop := s.effectiveMode = 0 ∨ (s.entryOf v).covered = false

/-- A posted instruction issues now and its sources are no streams (R261). -/
def State.vectorReady (s : State) (v : VInstr) : Prop :=
  s.vectorPosts v ∧ ∀ r ∈ vreads v, s.hart.streamOn r = none

/-- The capability class of an instruction that reaches step 4 of R56: a posted one once the checks before it pass
(R13, R14, R196), and a scalar one that has no such check. -/
def State.issueClass (s : State) (i : Instr) : Option Nat :=
  match posted i with
  | some v =>
    if (s.issueIllegal v (s.entryOf v)).isNone && (s.issueReserved v (s.entryOf v)).isNone then some (vclass v) else none
  | none =>
    if (aluResult s i).isSome || (loadForm i).isSome || (storeForm i).isSome || (branchForm i).isSome ||
        (maskBranchForm i).isSome || (jumpTarget s i).isSome || (callTarget s i).isSome then some 0
    else if (amoForm i).isSome then some 1
    else
      match i with
      | .ret | .nop | .yield | .halt | .brk | .trap _ => some 0
      | .ldaq _ | .strl _ | .cas _ | .fenceSv | .fenceVs | .fenceVv | .fenceAcq _ | .fenceRel _ | .fenceFull _ => some 1
      | .waitm _ | .wbl2 _ | .pref _ | .invrdc _ | .invl1 _ | .ginit _ | .garr _ | .gwait _ | .garw _ | .gqry _ => some 1
      | .qpush _ | .qpop _ | .qtrypop _ | .qstat _ | .launch _ _ => some 2
      | _ => none

/-- The mask and the element's bytes of a vector memory instruction (R132 to R138, R253). -/
def vectorMemoryForm : VInstr → Option (MReg × Nat)
  | .vld _ o => some (o.m, o.w.bytes)
  | .vst _ o => some (o.m, o.w.bytes)
  | .vldff o => some (o.m, o.w.bytes)
  | .vldx o => some (o.m, o.w.bytes)
  | .vstx _ o => some (o.m, o.w.bytes)
  | .vamo _ o => some (o.m, if o.dbl then 8 else 4)
  | _ => none

/-- What a posted instruction delivers: for each register written, its element width and the bits of the elements
written, by row and element; the mask bits written, by position; the flags, the scalar result, the count and the order
violation (R78, R91, R142, R144). -/
structure VectorOut where
  regs : List (VReg × Nat × (Nat → Nat → Option Nat))
  mask : Option (MReg × (Nat → Option Bool))
  flags : Flags
  scalar : Option (XReg × Word)
  count : Option Nat
  order : Option (Bool × Nat)

/-- Nothing delivered. -/
def VectorOut.nothing : VectorOut := ⟨[], none, 0, none, none, none⟩

/-- One register's elements delivered. -/
def VectorOut.reg (d : VReg) (bits : Nat) (f : Nat → Nat → Option Nat) : VectorOut :=
  { VectorOut.nothing with regs := [(d, bits, f)] }

/-- Mask bits delivered. -/
def VectorOut.bitsOf (d : MReg) (f : Nat → Option Bool) : VectorOut := { VectorOut.nothing with mask := some (d, f) }

/-- A scalar delivered. -/
def VectorOut.toX (d : XReg) (v : Word) : VectorOut := { VectorOut.nothing with scalar := some (d, v) }

/-- The registers and masks of `t` are those of `s` with what `out` writes to them: every other element, register and mask
bit is the same (R91). -/
def State.writesOut (s t : State) (out : VectorOut) : Prop :=
  (∀ w ∈ out.regs, ∀ row el, row < 2 ^ 20 → el < 2 ^ 20 →
    vget t.hart.vrf w.1.val w.2.1 row el =
      ((w.2.2 row el).map fun x => x % 2 ^ w.2.1).getD (vget s.hart.vrf w.1.val w.2.1 row el)) ∧
  (∀ r : VReg, (∀ w ∈ out.regs, w.1 ≠ r) → regSlice t.hart.vrf r = regSlice s.hart.vrf r) ∧
  (∀ (m : MReg) (p : Nat), mget t.hart.masks m p =
    match out.mask with
    | some (d, f) => if m = d ∧ d ≠ 0 ∧ p < maskPositions then (f p).getD (mget s.hart.masks m p) else mget s.hart.masks m p
    | none => mget s.hart.masks m p)

/-- Nothing outside the current hart changes from `s` to `t` but whom the merge unit and the grid served last (R160,
R178). -/
def State.sameAround (s t : State) : Prop :=
  { t with hart := s.hart, cores := s.cores } = s ∧
    ∀ c, { t.core c with mergeLast := (s.core c).mergeLast, gridLast := (s.core c).gridLast } = s.core c

/-- `t` is `s` after a posted instruction delivered `out` and retired: its registers and masks are written, the flags,
scalar result, count and order violation are delivered, the count of retired instructions rises by one, and nothing else
changes. -/
def State.delivers (s t : State) (out : VectorOut) : Prop :=
  s.writesOut t out ∧
  (∀ r, t.x r =
    match out.scalar with
    | some (d, v) => if r = d ∧ d ≠ 0 then v else s.x r
    | none => s.x r) ∧
  t.hart.v = ({ s.hart.vPast with fflags := s.hart.v.fflags ||| out.flags }.withCount out.count).withOrder out.order ∧
  t.hart.scalar = { s.hart.scalar with x := t.hart.scalar.x, pc := s.hart.nextPc, vret := s.hart.scalar.vret + 1 } ∧
  t.hart = { s.hart with
    scalar := t.hart.scalar, v := t.hart.v, vrf := t.hart.vrf, masks := t.hart.masks, strip := t.hart.strip
    hist := t.hart.hist, nextSeq := s.hart.nextSeq + 1, marks := s.hart.marks.completed } ∧
  (t.hart.strip = none ↔ s.hart.strip = none) ∧ s.sameAround t

/-- `t` is `s` after a posted instruction whose recheck is open ran (R201, R203): its registers and masks are written, and its
VIQ entry holds the rest of what it delivers until the recheck confirms it. -/
def State.awaits (s t : State) (out : VectorOut) : Prop :=
  s.writesOut t out ∧ s.sameX t ∧ t.hart.v = s.hart.vPast ∧ t.hart.scalar = { s.hart.scalar with pc := s.hart.nextPc } ∧
  (∃ q, t.hart.viq = [q] ∧ q.e.complete = true ∧ q.r.phase = .held ∧ q.r.fflags = out.flags ∧ q.r.scalar = out.scalar ∧
    q.r.count = out.count ∧ q.r.order = out.order) ∧
  t.hart = { s.hart with
    scalar := t.hart.scalar, v := t.hart.v, vrf := t.hart.vrf, masks := t.hart.masks, strip := t.hart.strip
    viq := t.hart.viq, nextSeq := s.hart.nextSeq + 1, marks := s.hart.marks.completed } ∧
  (t.hart.strip = none ↔ s.hart.strip = none) ∧ s.sameAround t

/-- The second operand of an elementwise instruction (R122). -/
def State.second (s : State) (b : VX) (bits row el : Nat) : Nat :=
  match b with
  | .v r => vget s.hart.vrf r.val bits row el
  | .x r => (s.x r).toNat % 2 ^ bits

/-- Whether an element is in the tile and active (R91). -/
def State.active (s : State) (m : MReg) (row el : Nat) : Bool :=
  decide (row < s.hart.v.vrows) && decide (el < s.hart.v.vl) && mget s.hart.masks m (row * s.hart.v.vl + el)

/-- The elements of its tile that an instruction executed again finds complete: those that the trap before left so, or those of
the groups that VRESUME counts (R22). -/
def State.firstElem (s : State) : Nat := if s.hart.marks.resuming then s.hart.v.resumeElems s.lw else 0

/-- Whether an element is active and not one that was complete before the trap that ERET returned from (R22, R91). -/
def State.executes (s : State) (m : MReg) (row el : Nat) : Bool :=
  s.active m row el && decide (s.firstElem ≤ row * s.hart.v.vl + el)

/-- The flags of the elements of a tile at which `p` holds, merged. -/
def tileFlags (rows vl : Nat) (p : Nat → Nat → Bool) (f : Nat → Nat → Flags) : Flags :=
  ((tileElems rows vl).filter fun q => p q.1 q.2).foldl (fun fl q => fl ||| f q.1 q.2) 0

/-- What an elementwise instruction delivers when `f` gives an element's bits and flags. -/
def State.elementwise (s : State) (d : VReg) (bits : Nat) (m : MReg) (f : Nat → Nat → Nat × Flags) : VectorOut :=
  { VectorOut.reg d bits (fun row el => if s.executes m row el then some (f row el).1 else none) with
    flags := tileFlags s.hart.v.vrows s.hart.v.vl (s.executes m) fun row el => (f row el).2 }

/-- What a compare delivers. -/
def State.compares (s : State) (d m : MReg) (f : Nat → Nat → Bool × Flags) : VectorOut :=
  let vl := s.hart.v.vl
  { VectorOut.bitsOf d (fun p => if s.executes m (p / vl) (p % vl) then some (f (p / vl) (p % vl)).1 else none) with
    flags := tileFlags s.hart.v.vrows vl (s.executes m) fun row el => (f row el).2 }

/-- An element of a register of the current hart. -/
def State.elem (s : State) (r : VReg) (bits row el : Nat) : Nat := vget s.hart.vrf r.val bits row el

/-- The elementwise integer instructions (R122, R123). -/
def integerOut (s : State) : VInstr → Option VectorOut
  | .via op o => some (s.elementwise o.d o.w.bits o.m fun r e =>
      (viaValue op o.w.bits (s.elem o.a o.w.bits r e) (s.second o.b o.w.bits r e), 0))
  | .viaUnary op o => some (s.elementwise o.d o.w.bits o.m fun r e =>
      (viaUnaryValue op o.w.bits (s.elem o.a o.w.bits r e), 0))
  | .viai op o => some (s.elementwise o.d o.w.bits 0 fun r e =>
      (viaValue op o.w.bits (s.elem o.a o.w.bits r e) (wrapTo o.w.bits o.imm.toInt), 0))
  | _ => none

/-- The elementwise floating-point instructions and conversions (R124 to R127). -/
def floatOut (s : State) : VInstr → Option VectorOut
  | .vfa op o => some (s.elementwise o.d (fbits o.fmt) o.m fun r e =>
      vfaValue op (FFmt.spec o.fmt) o.rm (s.elem o.a (fbits o.fmt) r e) (s.second o.b (fbits o.fmt) r e))
  | .vfmm op o => some (s.elementwise o.d (fbits o.fmt) o.m fun r e =>
      vfmmValue op (FFmt.spec o.fmt) (s.elem o.a (fbits o.fmt) r e) (s.second o.b (fbits o.fmt) r e))
  | .vfma op o => some (s.elementwise o.d (fbits o.fmt) o.m fun r e =>
      vfmaValue op (FFmt.spec o.fmt) o.rm (s.elem o.a (fbits o.fmt) r e) (s.second o.b (fbits o.fmt) r e)
        (s.elem o.c (fbits o.fmt) r e))
  | .vfu op o => some (s.elementwise o.d (fbits o.fmt) o.m fun r e =>
      vfuValue op (FFmt.spec o.fmt) o.rm (s.elem o.a (fbits o.fmt) r e))
  | .vfuNr op o => some (s.elementwise o.d (fbits o.fmt) o.m fun r e =>
      (vfuNrValue op (FFmt.spec o.fmt) (s.elem o.a (fbits o.fmt) r e), 0))
  | .vcvt o => some (s.elementwise o.d (codeBits o.dst.val) o.m fun r e =>
      vcvtValue o.src.val o.dst.val o.rm o.sat (s.elem o.a (codeBits o.src.val) r e))
  | _ => none

/-- Compares, selects and moves (R128 to R131). -/
def moveOut (s : State) : VInstr → Option VectorOut
  | .vcmp c o => some (s.compares o.d o.m fun r e =>
      (condHolds c o.w.bits (s.elem o.a o.w.bits r e) (s.second o.b o.w.bits r e), 0))
  | .vfcmp c o => some (s.compares o.d o.m fun r e =>
      (FFmt.spec o.fmt).compare c (s.elem o.a (fbits o.fmt) r e) (s.second o.b (fbits o.fmt) r e))
  | .vsel o => some (s.elementwise o.d o.w.bits 0 fun r e =>
      (if mget s.hart.masks o.m (r * s.hart.v.vl + e) then s.elem o.a o.w.bits r e else s.second o.b o.w.bits r e, 0))
  | .vmv o => some (s.elementwise o.d o.w.bits o.m fun r e => (s.elem o.a o.w.bits r e, 0))
  | .vbcast o => some (s.elementwise o.d o.w.bits o.m fun _ _ => ((s.x o.a).toNat, 0))
  | .vmvxs o =>
    let p := (s.x o.pos).toNat
    let v := s.elem o.a o.w.bits (p / s.hart.v.vl) (p % s.hart.v.vl)
    some (VectorOut.toX o.d
      (if p < s.hart.v.vrows * s.hart.v.vl then
        (if o.sgn then BitVec.ofInt 64 (signedOf o.w.bits v) else BitVec.ofNat 64 v) else 0))
  | .vmvsx o =>
    let p := (s.x o.pos).toNat
    some (VectorOut.reg o.d o.w.bits fun r e =>
      if e < s.hart.v.vl ∧ r < s.hart.v.vrows ∧ r * s.hart.v.vl + e = p then some (s.x o.a).toNat else none)
  | .viota o => some (s.elementwise o.d o.w.bits o.m fun r e =>
      ((List.range e).countP fun i => mget s.hart.masks o.a (r * s.hart.v.vl + i), 0))
  | _ => none

/-- The spans of a reduction or scan of the current tile (R146). -/
def State.tileSpans (s : State) (ax : Axis) (m : MReg) : List (List SpanPos) :=
  Sys2Proof.Machine.tileSpans ax s.hart.v.vrows s.hart.v.vl s.hart.masks m

/-- What a reduction delivers: element 0 of each span's row in each destination; nothing at VL = 0 (R92, R146). -/
def State.reduces (s : State) (ds : List (VReg × Nat × (List SpanPos → Nat))) (ax : Axis) (m : MReg)
    (f : List SpanPos → Flags) : VectorOut :=
  let spans := if s.hart.v.vl = 0 then [] else s.tileSpans ax m
  { VectorOut.nothing with
    regs := ds.map fun d => (d.1, d.2.1, fun row el => if el = 0 then spans[row]?.map d.2.2 else none)
    flags := spans.foldl (fun fl ps => fl ||| f ps) 0 }

/-- The active values of a span with their indices. -/
def State.indexed (s : State) (a : VReg) (bits : Nat) (ps : List SpanPos) : List (Nat × Nat) :=
  (ps.filter fun p => p.active).map fun p => (s.elem a bits p.row p.el, p.index)

/-- The leaves of the tree of VREDFSUM (R84). -/
def State.leaves (s : State) (a : VReg) (bits : Nat) (ps : List SpanPos) : List (Option Nat) :=
  ps.map fun p => if p.active then some (s.elem a bits p.row p.el) else none

/-- A running combination of values and its flags (R150). -/
def scanTotal (combine : Nat → Nat → Nat × Flags) (vs : List Nat) : Option Nat × Flags :=
  vs.foldl (fun acc v =>
    match acc.1 with
    | some b => (some (combine b v).1, acc.2 ||| (combine b v).2)
    | none => (some v, acc.2)) (none, 0)

/-- The active values of a span before an element (R150). -/
def State.before (s : State) (a : VReg) (bits row el : Nat) (ps : List SpanPos) : List Nat :=
  ((ps.takeWhile fun p => !(p.row == row && p.el == el)).filter fun p => p.active).map fun p => s.elem a bits p.row p.el

/-- What a scan delivers (R150). -/
def State.scans (s : State) (d a : VReg) (bits : Nat) (ax : Axis) (m : MReg) (excl : Bool) (identity : Nat)
    (combine : Nat → Nat → Nat × Flags) : VectorOut :=
  let spans := s.tileSpans ax m
  let spanOf := fun row => spans.getD (if ax = .row then row else 0) []
  { VectorOut.reg d bits (fun row el =>
      if s.active m row el then
        let b := s.before a bits row el (spanOf row)
        some (((scanTotal combine (if excl then b else b ++ [s.elem a bits row el])).1).getD identity)
      else none) with
    flags := spans.foldl (fun fl ps => fl ||| (scanTotal combine ((s.indexed a bits ps).map fun p => p.1)).2) 0 }

/-- The reductions and scans (R146 to R150). -/
def reduceOut (s : State) : VInstr → Option VectorOut
  | .vred op sat o => some (s.reduces
      [(o.d, o.w.bits, fun ps => redValue op sat o.w.bits ((s.indexed o.a o.w.bits ps).map fun p => p.1))] o.axis o.m
      fun _ => 0)
  | .vredFsum o =>
    let tree := fun ps => treeReduce ((FFmt.spec o.fmt).add o.rm) ps.length (s.leaves o.a (fbits o.fmt) ps)
    some (s.reduces [(o.d, fbits o.fmt, fun ps => ((tree ps).1).getD 0)] o.axis o.m fun ps => (tree ps).2)
  | .vredFmm mx o =>
    let val := fun ps => fredValue (FFmt.spec o.fmt) mx ((s.indexed o.a (fbits o.fmt) ps).map fun p => p.1)
    some (s.reduces [(o.d, fbits o.fmt, fun ps => (val ps).1)] o.axis o.m fun ps => (val ps).2)
  | .vredi mx o =>
    let b := o.w.bits
    let better := fun x y => if mx then decide (signedOf b y < signedOf b x) else decide (signedOf b x < signedOf b y)
    let val := fun ps => (bestOf better (s.indexed o.a b ps)).getD (redIdentity (if mx then .max else .min) b, 0xFFFFFFFF)
    some (s.reduces [(o.d, b, fun ps => (val ps).1), (oddMember o.d, 32, fun ps => (val ps).2)] o.axis o.m fun _ => 0)
  | .vredfi mx o =>
    let val := fun ps => fredIndexValue (FFmt.spec o.fmt) mx (s.indexed o.a (fbits o.fmt) ps)
    some (s.reduces [(o.d, fbits o.fmt, fun ps => (val ps).1.1), (oddMember o.d, 32, fun ps => (val ps).1.2)] o.axis o.m
      fun ps => (val ps).2)
  | .vscan op x o => some (s.scans o.d o.a o.w.bits o.axis o.m x (redIdentity (scanRed op) o.w.bits)
      fun a b => (redCombine (scanRed op) o.w.bits a b, 0))
  | .vscanFsum x o => some (s.scans o.d o.a (fbits o.fmt) o.axis o.m x 0 ((FFmt.spec o.fmt).add o.rm))
  | .vscanFmax x o => some (s.scans o.d o.a (fbits o.fmt) o.axis o.m x
      ((FFmt.spec o.fmt).signed true (FFmt.spec o.fmt).infinity) ((FFmt.spec o.fmt).minMax true))
  | _ => none

/-- The active positions of the current tile in order. -/
def State.actives (s : State) (m : MReg) : List Nat := activePositions s.hart.v.vrows s.hart.v.vl s.hart.masks m

/-- What a permutation delivers at the active elements (R153). -/
def State.permutes (s : State) (d : VReg) (bits : Nat) (m : MReg) (f : Nat → Nat → Option Nat) : VectorOut :=
  VectorOut.reg d bits fun row el => if s.active m row el then f row el else none

/-- The active mask positions of the current tile (R155). -/
def State.maskTile (s : State) (m : MReg) (p : Nat) : Bool :=
  decide (p < s.hart.v.vrows * s.hart.v.vl) && decide (p < maskPositions) && mget s.hart.masks m p

/-- The permutations (R152 to R154) and mask instructions (R155). -/
def permuteOut (s : State) : VInstr → Option VectorOut
  | .vcompress o =>
    let ps := s.actives o.m
    some { VectorOut.reg o.d o.w.bits (fun row el =>
        if el < s.hart.v.vl then (ps[row * s.hart.v.vl + el]?).map (pget s.hart.vrf o.a.val o.w.bits s.hart.v.vl) else none) with
      scalar := some (o.cnt, BitVec.ofNat 64 ps.length), count := some ps.length }
  | .vexpand o => some (s.permutes o.d o.w.bits o.m fun row el =>
      some (pget s.hart.vrf o.a.val o.w.bits s.hart.v.vl
        ((s.actives o.m).countP fun p => decide (p < row * s.hart.v.vl + el))))
  | .vgathr o => some (s.permutes o.d o.w.bits o.m fun row el =>
      let q := s.elem o.idx 32 row el
      some (if q < s.hart.v.vrows * s.hart.v.vl then pget s.hart.vrf o.a.val o.w.bits s.hart.v.vl q else 0))
  | .vslideup o => some (s.permutes o.d o.w.bits o.m fun row el =>
      if (s.x o.k).toNat ≤ el then some (s.elem o.a o.w.bits row (el - (s.x o.k).toNat)) else none)
  | .vslidedn o => some (s.permutes o.d o.w.bits o.m fun row el =>
      some (if el + (s.x o.k).toNat < s.hart.v.vl then s.elem o.a o.w.bits row (el + (s.x o.k).toNat) else 0))
  | .vtrans o => some (s.permutes o.d o.w.bits o.m fun row el => some (s.elem o.a o.w.bits el row))
  | .vrowbc o => some (s.permutes o.d o.w.bits o.m fun _ el =>
      some (if (s.x o.k).toNat < s.hart.v.vrows then s.elem o.a o.w.bits (s.x o.k).toNat el else 0))
  | .mop op o => some (VectorOut.bitsOf o.d fun p =>
      if s.maskTile o.m p then some (mopValue op (mget s.hart.masks o.a p) (mget s.hart.masks o.b p)) else none)
  | .mnot o => some (VectorOut.bitsOf o.d fun p => if s.maskTile o.m p then some (!mget s.hart.masks o.a p) else none)
  | .mset o => some (VectorOut.bitsOf o.d fun p => if s.maskTile o.m p then some (decide (p < (s.x o.a).toNat)) else none)
  | .mcnt op o =>
    let ps := (List.range (s.hart.v.vrows * s.hart.v.vl)).filter fun p => s.maskTile o.m p && mget s.hart.masks o.a p
    some (VectorOut.toX o.d
      (match op with
      | .cnt => BitVec.ofNat 64 ps.length
      | .any => if ps.isEmpty then 0 else 1
      | .fst =>
        match ps with
        | p :: _ => BitVec.ofNat 64 p
        | [] => BitVec.allOnes 64))
  | _ => none

/-- Pairs delivered to a register pair at positions 0, 1, 2 … with a count, flags and an order violation (R161). -/
def State.listed (s : State) (d : VReg) (bits : Nat) (cnt : XReg) (out : MergeOut) : VectorOut :=
  let es := out.emitted.reverse
  { regs := [(d, 32, fun row el => if el < s.hart.v.vl then (es[row * s.hart.v.vl + el]?).map fun p => p.1 else none),
      (oddMember d, bits, fun row el => if el < s.hart.v.vl then (es[row * s.hart.v.vl + el]?).map fun p => p.2 else none)]
    mask := none, flags := out.flags, scalar := some (cnt, BitVec.ofNat 64 es.length), count := some es.length
    order := out.violation }

/-- Two lists merged by the procedure of R161. -/
def State.merges (s : State) (a b : VReg) (lens : XReg) (bits : Nat) (inter : Bool)
    (eq : Nat → Nat → Nat → List (Nat × Nat) × Flags) : MergeOut :=
  let (na, nb) := mergeLens (s.x lens)
  let idx := fun (r : VReg) p => pget s.hart.vrf r.val 32 s.hart.v.vl p
  let val := fun (r : VReg) p => pget s.hart.vrf (oddMember r).val bits s.hart.v.vl p
  mergeLoop inter (idx a) (val a) (idx b) (val b) na nb eq (na + nb + 1) 0 0 ⟨[], 0, none⟩

/-- The segments of the active elements combined by the procedure of R164. -/
def State.segments (s : State) (a : VReg) (bits : Nat) (m : MReg) (combine : Nat → Nat → Nat × Flags) : MergeOut :=
  let items := (s.actives m).map fun p =>
    (pget s.hart.vrf a.val 32 s.hart.v.vl p, pget s.hart.vrf (oddMember a).val bits s.hart.v.vl p)
  let r := segLoop combine items 0 ⟨none, ⟨[], 0, none⟩⟩
  match r.prev with
  | some p => { r.out with emitted := p :: r.out.emitted }
  | none => r.out

/-- Sorting, selection, lists and segments (R157 to R164). -/
def sortOut (s : State) : VInstr → Option VectorOut
  | .vsort o =>
    let row := fun r => if r < s.hart.v.vrows then
      sortBy (sortBefore o.w.bits o.sgn o.desc) (rowPairs s.hart.vrf o.a.val o.w.bits s.hart.v.vl s.hart.masks o.m r) else []
    some { VectorOut.nothing with
      regs := [(o.d, o.w.bits, fun r e => ((row r)[e]?).map fun p => p.1),
        (oddMember o.d, 32, fun r e => ((row r)[e]?).map fun p => p.2)] }
  | .vtopk o =>
    let b := valBits o.fmt
    let row := fun r => if r < s.hart.v.vrows then
      topRow o.fmt o.nz (s.x o.k).toNat (rowPairs s.hart.vrf o.a.val b s.hart.v.vl s.hart.masks o.m r) else ([], 0)
    let n := ((List.range s.hart.v.vrows).map fun r => (row r).2).sum
    some { VectorOut.nothing with
      regs := [(o.d, b, fun r e => ((row r).1[e]?).map fun p => p.1),
        (oddMember o.d, 32, fun r e => ((row r).1[e]?).map fun p => p.2)]
      scalar := some (o.cnt, BitVec.ofNat 64 n), count := some n }
  | .vmrg o => some (s.listed o.d o.w.bits o.cnt
      (s.merges o.a o.b o.lens o.w.bits false fun k x y => ([(k, y), (k, x)], 0)))
  | .vset inter mode o => some (s.listed o.d (valBits o.fmt) o.cnt
      (s.merges o.a o.b o.lens (valBits o.fmt) inter fun k x y =>
        (if o.dz && valZero o.fmt (setCombine mode o.fmt o.rm x y).1 then [] else [(k, (setCombine mode o.fmt o.rm x y).1)],
          (setCombine mode o.fmt o.rm x y).2)))
  | .vsegr op o => some (s.listed o.d o.w.bits o.cnt
      (s.segments o.a o.w.bits o.m fun x y => (redCombine op o.w.bits x y, 0)))
  | .vsegrFsum o => some (s.listed o.d (fbits o.fmt) o.cnt (s.segments o.a (fbits o.fmt) o.m ((FFmt.spec o.fmt).add o.rm)))
  | .vsegrFmm mx o => some (s.listed o.d (fbits o.fmt) o.cnt
      (s.segments o.a (fbits o.fmt) o.m ((FFmt.spec o.fmt).minMax mx)))
  | _ => none

/-- Row `i` of the A operand of an MMA: the element at `k`, none when the list of .rw does not name it (R173, R175). -/
def State.mmaRowA (s : State) (df : Dataflow) (o : MmaOps) (i k : Nat) : Option (Nat × Nat) :=
  if df = .rw then
    ((rwRow s.hart.vrf o s.hart.v.vl s.hart.v.mshape.k i s.hart.v.vl 0 []).1.find? fun p => p.1 == k).map fun p => (p.2, 0)
  else some (mmaA s.hart.vrf o i k)

/-- The order violation in row `i` of .rw (R175). -/
def State.rwBad (s : State) (o : MmaOps) (i : Nat) : Option Nat :=
  (rwRow s.hart.vrf o s.hart.v.vl s.hart.v.mshape.k i s.hart.v.vl 0 []).2

/-- Whether an MMA updates C[i][j] (R174, R175): active under the C mask and, for .rw, in no row after one with a
violation. -/
def State.mmaUpdates (s : State) (df : Dataflow) (o : MmaOps) (i j : Nat) : Bool :=
  decide (i < s.hart.v.mshape.m) && decide (j < s.hart.v.mshape.n) && decide (s.hart.v.mshape.k ≠ 0) &&
    mget s.hart.masks o.cmask (i * s.hart.v.mshape.n + j) &&
    (decide (df ≠ .rw) || (List.range i).all fun q => (s.rwBad o q).isNone)

/-- C[i][j] after an MMA with its flags: the k-groups in order, the terms of absent positions left out (R86, R174, R176). -/
def State.mmaElem (s : State) (df : Dataflow) (o : MmaOps) (kd : MmaKind) (i j : Nat) : Nat × Flags :=
  let sh := s.hart.v.mshape
  let q := s.weightSlot o.wslot
  let present := fun k => if o.bsrc then slotPresent q (k * sh.n + j) else mget s.hart.masks o.kmask (k * sh.n + j)
  let term := fun k =>
    match s.mmaRowA df o i k with
    | some a => if present k then some (a, mmaB s.hart.vrf q o sh.n k j) else none
    | none => none
  mmaGroups o kd.gk sh.k term (ceilDiv sh.k kd.gk) 0 (accGet s.hart.vrf o.d.val kd.g (accBits o.accf.val) i j, 0)

/-- MMA on operands in place, and MDRAIN (R174, R175, R190, R191). -/
def matrixOut (s : State) : VInstr → Option VectorOut
  | .mma df o =>
    match MmaOps.kind o with
    | none => none
    | some kd =>
      if o.bsrc && (s.weightSlot o.wslot).stale then none
      else
        some { VectorOut.nothing with
          regs := (List.range kd.g).map fun q => (regPlus o.d q, accBits o.accf.val, fun row el =>
            if s.mmaUpdates df o (row * kd.g + q) el then some (s.mmaElem df o kd (row * kd.g + q) el).1 else none)
          flags := tileFlags s.hart.v.mshape.m s.hart.v.mshape.n (s.mmaUpdates df o) fun i j => (s.mmaElem df o kd i j).2
          order := if df = .rw ∧ s.hart.v.mshape.n ≠ 0 ∧ s.hart.v.mshape.k ≠ 0 then
              ((List.range s.hart.v.mshape.m).findSome? (s.rwBad o)).map fun p => (false, p) else none }
  | .mdrain z o =>
    let sh := s.hart.v.mshape
    let act := fun i j => decide (i < sh.m) && decide (j < sh.n) && mget s.hart.masks o.m (i * sh.n + j)
    let val := fun i j => drainValue o (accGet s.hart.vrf o.a.val (grpSize o.g) (accBits o.accf.val) i j)
    some { VectorOut.reg o.d (codeBits o.ofmt.val) (fun i j => if act i j then some (val i j).1 else none) with
      mask := z.map fun zm => (zm, fun p =>
        if act (p / sh.n) (p % sh.n) then some (drainNonzero o (val (p / sh.n) (p % sh.n)).1) else none)
      flags := tileFlags sh.m sh.n act fun i j => (val i j).2 }
  | _ => none

/-- Every instruction of a family with the checks of its issue passed completes and delivers what the family's table
says, or waits for its recheck with its registers written; an order violation only marks VSTAT unless ORDTRAP is set
(R144). -/
def familyDelivers (family : State → VInstr → Option VectorOut) : Prop :=
  ∀ (i : Instr) (s : State) (v : VInstr) (out : VectorOut), posted i = some v → i.wellFormed = true →
    family s v = some out → s.vectorReady v →
    (s.unchecked v → (out.order = none ∨ s.hart.trap.ordTrap = false) →
      ∃ t, exec i s = .next t ∧ s.delivers t out) ∧
    (¬ s.unchecked v → ∃ t, exec i s = .next t ∧ s.awaits t out)

/-! ### Memory, streams, weights, exchange and copies of the vector class -/

/-- A load of the vector class reads the value `v` in `n` bytes at `va`, through a translation already in the TLB and from
no SO page: the access changes nothing. -/
def State.readsAt (s : State) (k : AccessKind) (va : Word) (n v : Nat) : Prop :=
  ∃ pa kind bs, kind ≠ .so ∧ s.locate k va = (s, .ok (pa, kind)) ∧
    s.readAt k pa n kind s.hart.nextSeq = (s, .ok bs) ∧ v = leNat bs

/-- The bytes that a load of the vector class reads. -/
def State.readsBytes (s : State) (va : Word) (n : Nat) (bs : List Byte) : Prop :=
  ∃ pa kind, kind ≠ .so ∧ s.locate .load va = (s, .ok (pa, kind)) ∧ s.readAt .load pa n kind s.hart.nextSeq = (s, .ok bs)

/-- A table of entries of a size reads as a list. -/
def State.readsTable (s : State) (va : Word) (size : Nat) (l : List Nat) : Prop :=
  ∀ i x, l[i]? = some x → s.readsAt .load (va + BitVec.ofNat 64 (i * size)) size x

/-- The register, width and mask of a load that accesses all its elements (R132, R135). -/
def vectorLoadForm : VInstr → Option (VReg × Width × MReg)
  | .vld _ o => some (o.d, o.w, o.m)
  | .vldx o => some (o.d, o.w, o.m)
  | _ => none

/-- The register, width and mask of a store (R132, R138). -/
def vectorStoreForm : VInstr → Option (VReg × Width × MReg)
  | .vst _ o => some (o.d, o.w, o.m)
  | .vstx _ o => some (o.d, o.w, o.m)
  | _ => none

/-- A store to `va` is accepted at the physical address and page kind given, which is no SO page. -/
def State.storesAt (s : State) (va : Word) (p : Nat × PageKind) : Prop :=
  p.2 ≠ .so ∧ s.locate .store va = (s, .ok p) ∧ s.checkAt .store p.1 = (s, .ok ())

/-- The mask that governs a vector memory instruction: m15 alone when PMASK says so (R136, R374). -/
def State.maskOf (s : State) (v : VInstr) (m : MReg) : MReg := (s.entryOf v).mask m

/-- Whether a vector memory instruction accesses an element (R91, R22). -/
def State.accesses (s : State) (v : VInstr) (m : MReg) (row el : Nat) : Bool :=
  if s.groupwise v then s.executes (s.maskOf v m) row el else s.active (s.maskOf v m) row el

/-- Every active element's address is aligned (R133). -/
def State.allAligned (s : State) (v : VInstr) (m : MReg) (n : Nat) : Prop :=
  ∀ row el, s.active (s.maskOf v m) row el = true → (s.memAddr (s.entryOf v) v row el).toNat % n = 0

/-- The elements that a vector memory instruction accesses, in order. -/
def State.accessed (s : State) (v : VInstr) (m : MReg) : List (Nat × Nat) :=
  (tileElems s.hart.v.vrows s.hart.v.vl).filter fun p => s.accesses v m p.1 p.2

/-- Memory after stores in order: `f` gives each one's address and bytes. -/
def storedMem {α : Type} (mem : Mem) (f : α → Nat × List Byte) (l : List α) : Mem :=
  l.foldl (fun m p => writeBytes m (paLocal (f p).1) (f p).2) mem

/-- Nothing of a store but home memory and its poison is changed. -/
def Store.sameButMem (a b : Store) : Prop := b = { a with mem := b.mem, poison := b.poison }

/-- The open strip of the current hart closed, with nothing in its buffer to commit. -/
def State.sealedStrip (s : State) : State := s.withHart fun h => { h with strip := none }

/-- The round after XOPEN of the roles named by the hart of a placement (R296, log entry 78). -/
def Round.afterOpen (r : Round) (send recv : Bool) (i j : Nat) (spill : Word) (owner : Nat) : Round :=
  { r with
    state := if r.state = .armed then .opened else r.state
    senders := if send then r.senders.zipIdx.map (fun p => if p.2 = i then { p.1 with opened := true, owner := some owner } else p.1)
      else r.senders
    receivers := if recv then
        r.receivers.zipIdx.map (fun p => if p.2 = j then { p.1 with opened := true, spill := spill, owner := some owner } else p.1)
      else r.receivers }

/-- The rounds of a package with one replaced, found by its context and ROUNDID. -/
def State.roundsWith (s : State) (r : Round) : List Round :=
  s.rounds.map fun q => if q.ctx = r.ctx ∧ q.id = r.id then r else q

/-- An exchange instruction finds its live round (R424). -/
def State.usesRound (s : State) (round : XReg) (r : Round) : Prop :=
  (s.x round).toNat < 65536 ∧ s.round s.hart.xctx.ctxid ((s.x round).setWidth 16) = some r ∧ r.state ≠ .aborted

/-- The word that XRECV writes to register `reg` at row `row` for a record (R301): the payload covers the key and the
second word where the registers overlap. -/
def recvElem (o : XrecvOps) (x : XRecord) (reg : VReg) (row : Nat) : Option Nat :=
  if o.pay = some reg ∧ row < x.payload.length then (x.payload[row]?).map fun w => w.toNat
  else if row ≠ 0 then none
  else if reg = o.d then some x.key.toNat
  else if reg = oddMember o.d then
    some (x.sender.toNat + x.payload.length * 2 ^ 24 + (if x.kind = 3 then 2 ^ 31 else 0))
  else none

/-! ### Events -/

/-- Hart `h` is placed once, as `k`. -/
def State.holds (s : State) (h : HartId) (k : Hart) : Prop :=
  s.findHart h = some k ∧ k.marks.halted = false ∧ (s.placed.map fun j => j.ident.id).Nodup

/-- Only hart `h` is changed, and it is `k` now. -/
def State.onlyHart (s t : State) (h : HartId) (k : Hart) : Prop :=
  t.findHart h = some k ∧ (∀ j, j ≠ h → t.findHart j = s.findHart j) ∧ { t with hart := s.hart, others := s.others } = s

/-- The hart that moves next is hart `h`. -/
def State.isAt (s : State) (h : HartId) : Prop := s.hart.ident.id = h ∧ s.hart.marks.halted = false

/-- The host reaches a register of the package for a write (R356, R412). -/
def State.hostReaches (s : State) (la : Nat) : Prop :=
  s.attached = true ∧ s.checkLocal s.hostParty .store (s.pkg.toNat * 2 ^ 40 + la) = (s, true)

/-- The host reaches device memory with an access inside one line (R356, R413). -/
def State.hostReachesMemory (s : State) (k : AccessKind) (addr n : Nat) : Prop :=
  s.attached = true ∧ addr % 64 + n ≤ 64 ∧ addr < 0x9000000000 ∧
    s.checkLocal s.hostParty k (s.pkg.toNat * 2 ^ 40 + addr) = (s, true)

/-- The mailbox takes a command (R358, R422). -/
def State.mailboxTakes (s : State) : Prop := s.hostReaches 0xF000010000 ∧ s.mgmt.busy = false

/-- The mailbox answered a command with a result: DONE is set, and the host's write was accepted (R422). -/
def State.mailboxAnswers (t : State) (result : BitVec 8) : Prop :=
  t.mgmt.done = true ∧ t.mgmt.result = result ∧ t.lastAnswer = some .ok

/-- Everything but the power state is the same. -/
def State.onlyPower (s t : State) : Prop := { t with power := s.power } = s

/-- The package has power (R403). -/
def State.powered (s : State) : Prop := s.power.endgame = false ∧ s.power.poweredOff = false

end Sys2Proof.Machine

end
end

