-- ==== Sys2Proof/Certificates/Slice0/Obligations.lean ====
section
/-! DEFINITION. The statements for the provers. A statement of several parts is the conjunction of the claims that stand
before it. -/

open Sys2Proof Sys2Proof.Machine

/-! ### Scalar instructions -/

/-- R47, R95 to R98. Every arithmetic instruction completes with its result in its destination (x0 discards it) and
changes nothing else; while something is posted, the prior value is recorded in the history buffer (R9). -/
def Obligations.ScalarArithmetic : Prop :=
  ∀ (i : Instr) (s : State) (rs : List XReg) (d : XReg) (v : Word),
    aluResult s i = some (rs, d, v) → s.canIssue 0 (rs ++ [d]) →
    ∃ t, exec i s = .next t ∧ s.onlyX t d v ∧ t.hart.scalar.pc = s.hart.nextPc ∧
      (s.hart.viq = [] → t.hart.hist = s.hart.hist) ∧
      (s.hart.viq ≠ [] → t.hart.hist = s.hart.hist ++ [.x s.hart.newest d (s.x d)]) ∧
      s.hart.sameButScalars t.hart ∧ s.samePackage t

/-- R99, R101. A load from an aligned address that translates and reads completes with the extended value; a load from
an SO page commits the strip first (R236), and no load changes a byte of memory otherwise. -/
def Obligations.ScalarLoads : Prop :=
  ∀ (i : Instr) (s s1 s2 : State) (o : LoadOps) (n : Nat) (f : Nat → Word) (pa : Nat) (kind : PageKind) (bs : List Byte),
    loadForm i = some (o, n, f) → s.isReady 0 → (s.x o.base + o.off.signExtend 64).toNat % n = 0 →
    s.locate .load (s.x o.base + o.off.signExtend 64) = (s1, .ok (pa, kind)) →
    (s1.ordered kind).readAt .load pa n kind s.hart.nextSeq = (s2, .ok bs) →
    ∃ t, exec i s = .next t ∧ s.onlyX t o.d (f (leNat bs)) ∧ t.hart.scalar.pc = s.hart.nextPc ∧
      s2.hart.sameButScalars t.hart ∧ s2.samePackage t ∧ (s1.ordered kind).sameMemory t ∧
      (kind ≠ .so → s.sameMemory t ∧ t.hart.strip = s.hart.strip ∧ t.hart.sbuf = s.hart.sbuf)

/-- R100, R101, R238. A store to an aligned, accepted address inside an open strip waits in the strip store buffer, and
no byte of memory changes. -/
def Sys2Proof.Claims.ScalarStoresBuffered : Prop :=
  ∀ (i : Instr) (s s1 s2 : State) (o : StoreOps) (n pa : Nat) (kind : PageKind),
    storeForm i = some (o, n) → s.isReady 0 → (s.x o.base + o.off.signExtend 64).toNat % n = 0 →
    s.locate .store (s.x o.base + o.off.signExtend 64) = (s1, .ok (pa, kind)) →
    s1.checkAt .store pa = (s2, .ok ()) → kind ≠ .so → s.hart.strip ≠ none → s.hart.wouldOverflow n = false →
    ∃ t, exec i s = .next t ∧ t.hart.sbuf = s.hart.sbuf ++ [⟨pa, natBytes n (s.x o.src).toNat, kind, s.hart.newest,
        s.hart.stripId, s.hart.xctx.ctxid, (s.x o.base + o.off.signExtend 64).toNat⟩] ∧
      s.sameX t ∧ t.hart.scalar.pc = s.hart.nextPc ∧ s.sameMemory t ∧ s2.samePackage t ∧
      t.hart = { s2.hart with
        scalar := { s2.hart.scalar with pc := s.hart.nextPc, instret := s.hart.scalar.instret + 1 }
        v := s2.hart.vPast, sbuf := t.hart.sbuf, marks := s2.hart.marks.completed }

/-- R100, R101, R236. A store to an aligned, accepted address outside a strip, or to an SO page, is performed: its bytes
of home memory read back little-endian, and every other byte of memory, registers and flags are as before; an SO store
commits the strip first. -/
def Sys2Proof.Claims.ScalarStoresPerformed : Prop :=
  ∀ (i : Instr) (s s1 s2 : State) (o : StoreOps) (n pa : Nat) (kind : PageKind),
    storeForm i = some (o, n) → s.isReady 0 → (s.x o.base + o.off.signExtend 64).toNat % n = 0 →
    s.locate .store (s.x o.base + o.off.signExtend 64) = (s1, .ok (pa, kind)) →
    s1.checkAt .store pa = (s2, .ok ()) → kind = .so ∨ s.hart.strip = none →
    s.homeMemory pa → Memory.wf s.store.mem = true →
    ∃ t, exec i s = .next t ∧ readBytes t.store.mem (paLocal pa) n = natBytes n (s.x o.src).toNat ∧
      (s2.ordered kind).sameMemoryOutside t (paLocal pa) n ∧ t.store.host = (s2.ordered kind).store.host ∧
      t.store.peers = (s2.ordered kind).store.peers ∧ s.sameX t ∧ t.hart.scalar.pc = s.hart.nextPc ∧
      t.hart.v.fflags = s.hart.v.fflags ∧ t.hart.trap = s.hart.trap ∧ t.hart.ctl = s.hart.ctl ∧
      { t with hart := (s2.ordered kind).hart, store := (s2.ordered kind).store } = s2.ordered kind

/-- R24, R93, R100, R101, R236, R238. Scalar stores: inside an open strip and outside one. -/
def Obligations.ScalarStores : Prop :=
  Sys2Proof.Claims.ScalarStoresBuffered ∧ Sys2Proof.Claims.ScalarStoresPerformed

/-- R45, R53, R102. A branch whose condition holds continues at its target; one whose condition fails continues at the
instruction that follows. Neither changes a register or a byte of memory. -/
def Sys2Proof.Claims.Branches : Prop :=
  ∀ (i : Instr) (s s1 : State) (o : BranchOps) (c : Word → Word → Bool),
    branchForm i = some (o, c) → s.canIssue 0 [o.a, o.b] →
    (c (s.x o.a) (s.x o.b) = true →
      s.targetIllegal s.hart.scalar.level (relTarget s.hart.scalar.pc o.loff.toInt o.slot.val) = (s1, .ok false) →
      ∃ t, exec i s = .next t ∧ t.hart.scalar.pc = relTarget s.hart.scalar.pc o.loff.toInt o.slot.val ∧ s.sameX t ∧
        s.hart.sameButScalars t.hart ∧ s.sameMemory t ∧ t.hart.hist = s.hart.hist ∧ s1.samePackage t) ∧
    (c (s.x o.a) (s.x o.b) = false →
      ∃ t, exec i s = .next t ∧ t.hart.scalar.pc = s.hart.nextPc ∧ s.sameX t ∧ s.hart.sameButScalars t.hart ∧
        t.hart.hist = s.hart.hist ∧ s.samePackage t)

/-- R109. A mask branch is taken when a position of the tile is set (BMANY) or none is (BMNONE). -/
def Sys2Proof.Claims.MaskBranches : Prop :=
  ∀ (i : Instr) (s s1 : State) (o : MaskBranchOps) (any : Bool), maskBranchForm i = some (o, any) → s.isReady 0 →
    ((∃ p, p < s.hart.v.vrows * s.hart.v.vl ∧ mget s.hart.masks o.a p = true) ↔ any = true) →
    s.targetIllegal s.hart.scalar.level (relTarget s.hart.scalar.pc o.loff.toInt o.slot.val) = (s1, .ok false) →
    ∃ t, exec i s = .next t ∧ t.hart.scalar.pc = relTarget s.hart.scalar.pc o.loff.toInt o.slot.val ∧ s.sameX t ∧
      s.hart.sameButScalars t.hart ∧ s.sameMemory t ∧ s1.samePackage t

/-- R109. A mask branch whose condition fails continues at the instruction that follows and changes nothing else. -/
def Sys2Proof.Claims.MaskBranchesNotTaken : Prop :=
  ∀ (i : Instr) (s : State) (o : MaskBranchOps) (any : Bool), maskBranchForm i = some (o, any) → s.isReady 0 →
    ((∃ p, p < s.hart.v.vrows * s.hart.v.vl ∧ mget s.hart.masks o.a p = true) ↔ any = false) →
    ∃ t, exec i s = .next t ∧ t.hart.scalar.pc = s.hart.nextPc ∧ s.sameX t ∧ s.hart.sameButScalars t.hart ∧
      s.samePackage t

/-- R45, R53, R102, R109. Branches on registers and on masks, taken and not taken. -/
def Obligations.Branches : Prop :=
  Sys2Proof.Claims.Branches ∧ Sys2Proof.Claims.MaskBranches ∧ Sys2Proof.Claims.MaskBranchesNotTaken

/-- R45, R103, R104. JMP and JR continue at a legal target and change no register and no byte of memory; at an illegal one
they trap with cause 0x02 and the target. -/
def Obligations.Jumps : Prop :=
  ∀ (i : Instr) (s s1 : State) (target : Word), jumpTarget s i = some target → s.isReady 0 →
    (s.targetIllegal s.hart.scalar.level target = (s1, .ok false) →
      ∃ t, exec i s = .next t ∧ t.hart.scalar.pc = target ∧ s.sameX t ∧ s.hart.sameButScalars t.hart ∧
        s.sameMemory t ∧ s1.samePackage t) ∧
    (∀ s2, s.targetIllegal s.hart.scalar.level target = (s1, .ok true) → s1.canTrap s2 →
      ∃ t, exec i s = .next t ∧ t.hart.trap.cause = 0x02 ∧ t.hart.trap.tval = target ∧
        t.hart.trap.tpc = s.hart.scalar.pc ∧ t.hart.scalar.pc = s.hart.trap.tvec)

/-- R24, R45, R107. A call with room in the call stack pushes the program counter of the next instruction and continues at
its target; an open strip commits first. -/
def Sys2Proof.Claims.CallsPush : Prop :=
  ∀ (i : Instr) (s s1 : State) (target : Word), callTarget s i = some target → s.isReady 0 →
    s.targetIllegal s.hart.scalar.level target = (s1, .ok false) → s.hart.scalar.calls.length < 32 →
    ∃ t, exec i s = .next t ∧ t.hart.scalar.pc = target ∧ t.hart.scalar.calls = s.hart.scalar.calls ++ [s.hart.nextPc] ∧
      t.hart.scalar.csptr = s.hart.scalar.csptr ∧ s.sameX t ∧ t.hart.strip = none ∧
      t.hart.v.fflags = s.hart.v.fflags ∧ t.hart.trap = s.hart.trap ∧ t.hart.ctl = s.hart.ctl ∧
      (s.hart.strip = none → s.sameMemory t ∧ t.hart.sbuf = s.hart.sbuf)

/-- R106, R107. A call with a full call stack spills its 16 oldest entries to the block at CSPTR.NEXT, counts the spill,
and pushes; outside a strip nothing else is written. -/
def Sys2Proof.Claims.CallsSpill : Prop :=
  ∀ (i : Instr) (s s1 s2 s3 : State) (target : Word) (pa : Nat) (kind : PageKind),
    callTarget s i = some target → s.isReady 0 →
    s.targetIllegal s.hart.scalar.level target = (s1, .ok false) → s.hart.scalar.calls.length = 32 →
    cspSpills s.hart.scalar.csptr < 127 → s.hart.strip = none →
    s1.locate .store (BitVec.ofNat 64 (cspNext s.hart.scalar.csptr)) = (s2, .ok (pa, kind)) →
    s2.checkAt .store pa = (s3, .ok ()) → s.homeMemory pa → Memory.wf s.store.mem = true →
    ∃ t, exec i s = .next t ∧ t.hart.scalar.pc = target ∧
      t.hart.scalar.calls = s.hart.scalar.calls.drop 16 ++ [s.hart.nextPc] ∧
      t.hart.scalar.csptr = mkCsptr (cspNext s.hart.scalar.csptr + 128) (cspSpills s.hart.scalar.csptr + 1) ∧
      readBytes t.store.mem (paLocal pa) 128 = pcBytes (s.hart.scalar.calls.take 16) ∧
      s.sameMemoryOutside t (paLocal pa) 128 ∧ s.sameX t

/-- R24, R45, R103 to R107. Calls with room in the call stack, and calls that spill. -/
def Obligations.Calls : Prop :=
  Sys2Proof.Claims.CallsPush ∧ Sys2Proof.Claims.CallsSpill

/-- R45, R105, R107. RET with an entry in the call stack pops it and continues there; an empty call stack with a spill
refills from the block below CSPTR.NEXT. -/
def Obligations.Returns : Prop :=
  ∀ (s s1 : State) (pc : Word), s.isReady 0 → s.hart.strip = none →
    (s.hart.scalar.calls.getLast? = some pc → s.targetIllegal s.hart.scalar.level pc = (s1, .ok false) →
      ∃ t, exec .ret s = .next t ∧ t.hart.scalar.pc = pc ∧ t.hart.scalar.calls = s.hart.scalar.calls.dropLast ∧
        t.hart.scalar.csptr = s.hart.scalar.csptr ∧ s.sameX t ∧ s.sameMemory t) ∧
    (∀ (s2 s3 : State) (pa : Nat) (kind : PageKind) (bs : List Byte),
      s.hart.scalar.calls = [] → 0 < cspSpills s.hart.scalar.csptr →
      s.locate .load (BitVec.ofNat 64 ((cspNext s.hart.scalar.csptr + 2 ^ 57 - 128) % 2 ^ 57)) = (s2, .ok (pa, kind)) →
      s2.readAt .load pa 128 kind s.hart.nextSeq = (s3, .ok bs) → (bytesPcs 16 bs).getD 15 0 = pc →
      s3.targetIllegal s.hart.scalar.level pc = (s1, .ok false) →
      ∃ t, exec .ret s = .next t ∧ t.hart.scalar.pc = pc ∧ t.hart.scalar.calls = (bytesPcs 16 bs).take 15 ∧
        t.hart.scalar.csptr = mkCsptr (cspNext s.hart.scalar.csptr + 2 ^ 57 - 128) (cspSpills s.hart.scalar.csptr - 1) ∧
        s.sameX t ∧ s.sameMemory t)

/-- R110, R111, R371. BRK, TRAP and an illegal instruction take their trap: the strip commits, TCAUSE, TVAL and TPC are
written, SPL takes the level, INTRAP is set, PMASK cleared, and the hart continues at TVEC at S; every register, mask,
flag and control register keeps its value. -/
def Obligations.TrapEntry : Prop :=
  ∀ (i : Instr) (s s1 : State) (cause : Nat) (tval tpc : Word), ownTrap s i = some (cause, tval, tpc) →
    s.isReady 0 → s.canTrap s1 →
    ∃ t, exec i s = .next t ∧ t.hart.trap.cause = BitVec.ofNat 8 cause ∧ t.hart.trap.tval = tval ∧
      t.hart.trap.tpc = tpc ∧ t.hart.trap.spl = (s.hart.scalar.level == .s) ∧ t.hart.trap.inTrap = true ∧
      t.hart.trap.pmask = false ∧ t.hart.trap.tvec = s.hart.trap.tvec ∧ t.hart.scalar.pc = s.hart.trap.tvec ∧
      t.hart.scalar.level = .s ∧ t.hart.strip = none ∧ t.hart.sbuf = [] ∧ s.sameX t ∧
      t.hart.scalar.calls = s.hart.scalar.calls ∧ t.hart.v = s.hart.v ∧ t.hart.vrf = s.hart.vrf ∧
      t.hart.masks = s.hart.masks ∧ t.hart.ctl = s.hart.ctl ∧ t.hart.xctx = s.hart.xctx ∧ t.hart.streams = s.hart.streams ∧
      t.others = s.others ∧ (s.hart.sbuf = [] → s.sameMemory t)

/-- R374. ERET at S to a legal TPC restores the level from SPL, clears INTRAP and PMASK and continues at TPC; the strip,
memory and every register stay as they are. -/
def Obligations.ExceptionReturn : Prop :=
  ∀ (s s1 : State), s.isReady 0 → s.hart.scalar.level = .s →
    s.targetIllegal (if s.hart.trap.spl then .s else .u) s.hart.trap.tpc = (s1, .ok false) →
    ∃ t, exec .eret s = .next t ∧ t.hart.scalar.level = (if s.hart.trap.spl then .s else .u) ∧
      t.hart.trap = { s.hart.trap with inTrap := false, pmask := false } ∧ t.hart.scalar.pc = s.hart.trap.tpc ∧
      t.hart.marks.pmaskLive = s.hart.trap.pmask ∧ t.hart.strip = s.hart.strip ∧ t.hart.sbuf = s.hart.sbuf ∧
      s.sameX t ∧ t.hart.v = s.hart.v ∧ t.hart.ctl = s.hart.ctl ∧ s.sameMemory t ∧ t.others = s.others ∧
      (s.hart.trap.cause ≠ 0x0B → t.hart.copies = s.hart.copies)

/-- R373. A trap of a hart in its handler is a double trap: the hart stops with its trap CSRs unchanged, its uncommitted
stores are discarded, and its launch is being removed with the new cause. -/
def Obligations.DoubleTrap : Prop :=
  ∀ (i : Instr) (s : State) (l : Launch) (cause : Nat) (tval tpc : Word), ownTrap s i = some (cause, tval, tpc) →
    s.isReady 0 → s.hart.trap.inTrap = true → s.power.window = false → s.hart.marks.halted = false →
    s.launch s.hart.ident.seq = some l → l.removal = none →
    ∃ t, exec i s = .next t ∧ t.hart.trap = s.hart.trap ∧ t.hart.marks.stopped = true ∧ t.hart.sbuf = [] ∧
      t.hart.strip = none ∧ ((∀ k ∈ s.others, k.sbuf = []) → s.sameMemory t) ∧
      ∃ k, t.launch s.hart.ident.seq = some k ∧ k.phase = .removing ∧
        k.removal = some (BitVec.ofNat 8 cause, some s.hart.ident.id)

/-- R110. NOP only continues; YIELD without a request commits the strip and continues; HALT of a hart whose copies have
landed commits the strip and ends the hart. -/
def Sys2Proof.Claims.SystemInstructions : Prop :=
  ∀ s : State, s.isReady 0 →
    (∃ t, exec .nop s = .next t ∧ t.hart.scalar.pc = s.hart.nextPc ∧ s.sameX t ∧ s.hart.sameButScalars t.hart ∧
      s.samePackage t) ∧
    (s.hart.ctl.preqReq = false →
      ∃ t, exec .yield s = .next t ∧ t.hart.scalar.pc = s.hart.nextPc ∧ s.sameX t ∧ t.hart.strip = none ∧
        t.hart.sbuf = [] ∧ t.hart.v.fflags = s.hart.v.fflags ∧ t.hart.ctl = s.hart.ctl ∧ t.hart.marks.saving = s.hart.marks.saving ∧
        (s.hart.sbuf = [] → s.sameMemory t)) ∧
    (s.hart.marks.removed = false → (∀ c ∈ s.hart.copies, c.copy.landed = true ∧ c.copy.failure = none) →
      ∃ t, exec .halt s = .next t ∧ t.hart.marks.halted = true ∧ t.hart.strip = none ∧ t.hart.sbuf = [] ∧ s.sameX t ∧
        t.others = s.others)

/-- R332. YIELD of a hart asked to yield begins its save and continues at the slot that follows; with LIVETAB 0 every
vector register is live. -/
def Sys2Proof.Claims.YieldSaves : Prop :=
  ∀ s : State, s.isReady 0 → s.hart.ctl.preqReq = true → s.hart.ctl.livetab = 0 →
    ∃ t, exec .yield s = .next t ∧ t.hart.marks.saving = true ∧ t.hart.marks.savedLive = some (BitVec.allOnes 64) ∧
      t.hart.scalar.pc = s.hart.nextPc ∧ t.hart.strip = none ∧ t.hart.sbuf = [] ∧ s.sameX t

/-- R110, R332. NOP, YIELD and HALT, and the YIELD of a hart asked to yield. -/
def Obligations.SystemInstructions : Prop :=
  Sys2Proof.Claims.SystemInstructions ∧ Sys2Proof.Claims.YieldSaves

/-- R112, R113, R384. A permitted CSR instruction puts the old value into x[D] and makes its one write; a number in 0x100
to 0x7FF written commits the strip, and a read changes nothing else. -/
def Sys2Proof.Claims.CsrInstructions : Prop :=
  ∀ (i : Instr) (s : State) (o : CsrOps) (writes : Bool) (new : Word), csrForm s i = some (o, writes, new) →
    s.isReady 0 → csrPermitted s.hart.scalar.level o.csr.val writes = true →
    (o.csr.val = 0x402 →
      s.tlbHeld (some s.hart.ident.id) (invFields new).1 (invFields new).2.1 (invFields new).2.2 = false) →
    (writes = true → csrReserved o.csr.val new = false ∧ s.csrShape o.csr.val new = none) →
    (writes = false →
      ∃ t, exec i s = .next t ∧ s.onlyX t o.d (s.csrRead o.csr.val) ∧ t.hart.scalar.pc = s.hart.nextPc ∧
        s.hart.sameButScalars t.hart ∧ s.samePackage t) ∧
    (writes = true →
      ∃ t, exec i s = .next t ∧ t = (s.csrWrite o.csr new).wrote o.d (s.csrRead o.csr.val) ∧
        (o.d ≠ 0 → t.x o.d = s.csrRead o.csr.val) ∧ (∀ r, r ≠ o.d → t.x r = s.x r) ∧
        (0x100 ≤ o.csr.val → o.csr.val ≠ 0x105 → t.hart.strip = none ∧ t.hart.sbuf = []))

/-- R112, R113. What CSRRW writes to a plainly writable CSR at S is what the CSR then reads, and no other of these CSRs
changes. -/
def Sys2Proof.Claims.CsrReadsBack : Prop :=
  ∀ (s : State) (o : CsrOps), o.csr.val ∈ [0x100, 0x111, 0x203, 0x300, 0x301, 0x302, 0x303, 0x304, 0x400, 0x401, 0x403] →
    s.isReady 0 → s.hart.scalar.level = .s → csrReserved o.csr.val (s.x o.a) = false →
    ∃ t, exec (.csrrw o) s = .next t ∧ t.csrRead o.csr.val = s.x o.a ∧
      ∀ n ∈ [0x100, 0x111, 0x203, 0x300, 0x301, 0x302, 0x303, 0x304, 0x400, 0x401, 0x403],
        n ≠ o.csr.val → t.csrRead n = s.csrRead n

/-- R112, R113, R384. CSR instructions, and the CSRs that read back what was written. -/
def Obligations.CsrInstructions : Prop :=
  Sys2Proof.Claims.CsrInstructions ∧ Sys2Proof.Claims.CsrReadsBack

/-- R101, R248 to R255. A scalar access to a misaligned address traps with cause 0x06 and the address, with nothing of its own
done. -/
def Sys2Proof.Claims.MisalignedTraps : Prop :=
  ∀ (i : Instr) (s s1 : State) (cls : Nat) (k : AccessKind) (va : Word) (n : Nat), scalarAccess s i = some (cls, k, va, n) →
    va.toNat % n ≠ 0 → s.isReady cls → s.canTrap s1 →
    ∃ t, exec i s = .next t ∧ s.trapsTo t 0x06 va s.hart.scalar.pc ∧ s.intact t

/-- R101, R348, R349, R359. A scalar access whose translation faults traps with cause 0x07 or 0x08 and the address, and one that
its target refuses with cause 0x08: TSTATUS.SUB and XLINFO say what kind of access it was, why it failed and at which level, and
nothing of its own is done. An address with a bit of [63:57] set is cause 0x07 with reason 3 at level 0; a page whose TLB entry
refuses the access is cause 0x08 with the reason of R348. -/
def Sys2Proof.Claims.AccessFaults : Prop :=
  ∀ (i : Instr) (s : State) (cls : Nat) (k : AccessKind) (va : Word) (n : Nat), scalarAccess s i = some (cls, k, va, n) →
    va.toNat % n = 0 → s.isReady cls →
    (∀ (s1 s2 : State) (c r l : Nat), s.locate k va = (s1, .error (.fault c r l)) → s1.canTrap s2 →
      ((c = 0x07 ∧ r ∈ [1, 2, 3]) ∨ (c = 0x08 ∧ r ∈ [4, 5, 7, 9])) ∧
      ∃ t, exec i s = .next t ∧ s.trapsTo t c va s.hart.scalar.pc ∧ s.intact t ∧
        t.hart.trap.sub = BitVec.ofNat 4 (AccessKind.acc k) ∧
        t.hart.trap.xlinfo = BitVec.ofNat 12 (AccessKind.acc k * 256 + r * 16 + l)) ∧
    (∀ s2 : State, 2 ^ 57 ≤ va.toNat → s.canTrap s2 →
      ∃ t, exec i s = .next t ∧ s.trapsTo t 0x07 va s.hart.scalar.pc ∧ s.intact t ∧
        t.hart.trap.xlinfo = BitVec.ofNat 12 (AccessKind.acc k * 256 + 3 * 16)) ∧
    (∀ (s2 : State) (e : TlbEntry) (r : Nat), va.toNat < 2 ^ 57 → s.tlbFind s.hart.xctx.ctxid va.toNat = some e →
      leafRefuses e.leaf.toNat s.hart.scalar.level k = some r → s.canTrap s2 →
      ∃ t, exec i s = .next t ∧ s.trapsTo t 0x08 va s.hart.scalar.pc ∧ s.intact t ∧
        t.hart.trap.xlinfo = BitVec.ofNat 12 (AccessKind.acc k * 256 + r * 16 + if e.block then 2 else 3)) ∧
    (∀ (s1 s2 s3 : State) (pa c r l : Nat) (kind : PageKind), s.locate k va = (s1, .ok (pa, kind)) →
      ((loadForm i).isSome ∧ (s1.ordered kind).readAt .load pa n kind s.hart.nextSeq = (s2, .error (.fault c r l))) ∨
        ((storeForm i).isSome ∧ s1.checkAt .store pa = (s2, .error (.fault c r l))) → s2.canTrap s3 →
      ∃ t, exec i s = .next t ∧ s.trapsTo t 0x08 va s.hart.scalar.pc ∧ s.intact t ∧
        t.hart.trap.sub = BitVec.ofNat 4 (AccessKind.acc k) ∧
        t.hart.trap.xlinfo = BitVec.ofNat 12 (AccessKind.acc k * 256 + 8 * 16 + 3))

/-- R380, R381, R385, R386. A scalar load that reads an uncorrectable granule, outside a strip, traps with cause 0x18,
SEALED and the granule; inside a strip that has been rewound fewer than four times, and not for that granule, it
rewinds the strip: its stores are gone, the registers of its checkpoint, VL, VROWS and the destination of its opener
are as they were when it opened, the positions of the streams too, the hart continues behind the opener, and nothing
else of the hart and no byte of memory changes; otherwise it traps with cause 0x18, REPEAT and the granule. -/
def Sys2Proof.Claims.LoadErrors : Prop :=
  ∀ (i : Instr) (s s1 s2 : State) (o : LoadOps) (n : Nat) (f : Nat → Word) (pa g : Nat) (kind : PageKind),
    loadForm i = some (o, n, f) → s.isReady 0 → (s.x o.base + o.off.signExtend 64).toNat % n = 0 → kind ≠ .so →
    s.locate .load (s.x o.base + o.off.signExtend 64) = (s1, .ok (pa, kind)) →
    s1.readAt .load pa n kind s.hart.nextSeq = (s2, .error (.ecc g)) → g < 2 ^ 52 →
    (∀ s3 : State, s.hart.strip = none → (s2.dropTransient g).canTrap s3 →
      ∃ t, exec i s = .next t ∧
        s.trapsTo t 0x18 (BitVec.ofNat 64 (s2.granuleSrc g * 2 ^ 60 + 2 ^ 59 + g * 32)) s.hart.scalar.pc ∧ s.intact t) ∧
    (∀ st : Strip, s.hart.strip = some st → st.sealed = false → st.rewinds < 4 → st.errGranule ≠ some g →
      (∀ e ∈ s.hart.sbuf, st.id ≤ e.after) → st.id < s.hart.nextSeq →
      ∃ t st', exec i s = .next t ∧ t.hart.scalar.pc = st.resume ∧ t.hart.v.vl = st.vl ∧ t.hart.v.vrows = st.vrows ∧
        t.hart.v.vresume = 0 ∧ t.hart.sbuf = [] ∧ t.hart.viq = [] ∧ t.hart.strip = some st' ∧
        st'.rewinds = st.rewinds + 1 ∧ st'.errGranule = some g ∧ st'.id = st.id ∧ st'.since = s.cycle ∧
        t.hart.ctl = { s.hart.ctl with rewinds := if s.hart.ctl.rewinds = 0xFFFF then 0xFFFF else s.hart.ctl.rewinds + 1 } ∧
        (∀ d, st.opener = some d → d ≠ 0 → t.x d = BitVec.ofNat 64 st.vl) ∧
        ((st.regs.map fun p => p.1).Nodup → ∀ p ∈ st.regs, p.1 ≠ 0 → st.opener ≠ some p.1 → t.x p.1 = p.2) ∧
        (∀ r, (∀ p ∈ st.regs, p.1 ≠ r) → st.opener ≠ some r → t.x r = s.x r) ∧
        (∀ r, (∀ p ∈ st.shadows, p.1 ≠ r) → regSlice t.hart.vrf r = regSlice s.hart.vrf r) ∧
        (∀ r m, st.shadows = [(r, regSlice m r)] → Memory.wf m = true → regSlice t.hart.vrf r = regSlice m r) ∧
        (∀ k : Fin 4, ∀ q, s.hart.streams[k] = some q → ∀ p, st.positions.getD k.val none = some p →
          t.hart.streams[k] = some { q with pos := p, fetched := [], again := true }) ∧
        t.hart.masks = s.hart.masks ∧ t.hart.v.fflags = s.hart.v.fflags ∧ t.hart.trap = s.hart.trap ∧
        t.others = s.others ∧ s.sameMemory t) ∧
    (∀ (st : Strip) (s3 : State), s.hart.strip = some st → st.sealed = false → 4 ≤ st.rewinds ∨ st.errGranule = some g →
      (s2.dropTransient g).canTrap s3 →
      ∃ t, exec i s = .next t ∧
        s.trapsTo t 0x18 (BitVec.ofNat 64 (s2.granuleSrc g * 2 ^ 60 + 2 ^ 58 + g * 32)) s.hart.scalar.pc ∧ s.intact t)

/-- R380, R381. An arithmetic instruction outside a strip that reads a scalar register that cannot be corrected, a gate
instruction on a gate with an error, and a QPUSH on a queue with one trap with cause 0x18, SRC 6 and SEALED, with
nothing done. -/
def Sys2Proof.Claims.StateErrors : Prop :=
  ∀ (i : Instr) (s s1 : State), s.hart.viq = [] → s.hart.orderly → s.canTrap s1 →
    (∃ rs d x r, aluResult s i = some (rs, d, x) ∧ s.mayUse 0 ∧ s.hart.strip = none ∧ r ∈ rs ∧ s.hart.badX r = true) ∨
    (∃ id u, gateForm s i = some (id, u) ∧ s.isReady 1 ∧ s.gateMisuse id s.hart.xctx.ctxid u = none ∧ s.badGate id = true) ∨
    (∃ o, i = .qpush o ∧ s.isReady 2 ∧ s.hart.sbuf = [] ∧ s.queueReason o.q true = none ∧ s.badQueue s.hart.core o.q = true) →
    ∃ t, exec i s = .next t ∧ s.trapsTo t 0x18 (BitVec.ofNat 64 (6 * 2 ^ 60 + 2 ^ 59)) s.hart.scalar.pc ∧ s.intact t ∧
      t.cores = s.cores

/-- R110. ERET at U is an illegal instruction: cause 0x01, reason 7, with its head word, TPC addresses it, and nothing is done. -/
def Sys2Proof.Claims.ExceptionReturnAtU : Prop :=
  ∀ (s s1 : State), s.hart.viq = [] → s.hart.scalar.level = .u → s.canTrap s1 →
    ∃ t, exec .eret s = .next t ∧ s.trapsTo t 0x01 0x74003 s.hart.scalar.pc ∧ s.intact t

/-- R113. A CSR number that is unassigned, written while read-only, or not permitted at the level is an illegal
instruction: cause 0x01, reason 11, and nothing is read or written. -/
def Sys2Proof.Claims.CsrForbidden : Prop :=
  ∀ (i : Instr) (s s1 : State) (o : CsrOps) (writes : Bool) (new : Word), csrForm s i = some (o, writes, new) →
    s.hart.viq = [] → csrPermitted s.hart.scalar.level o.csr.val writes = false → s.canTrap s1 →
    ∃ t, exec i s = .next t ∧ s.trapsTo t 0x01 (BitVec.ofNat 64 (11 * 65536 + (0x4300 + o.d.val))) s.hart.scalar.pc ∧
      s.intact t

/-- R101, R110, R113, R348, R349, R359, R380, R381, R385, R386. Where scalar accesses, ERET and CSR instructions trap, and what a
load or an instruction does that reads an uncorrectable error. -/
def Obligations.AccessTraps : Prop :=
  Sys2Proof.Claims.MisalignedTraps ∧ Sys2Proof.Claims.AccessFaults ∧ Sys2Proof.Claims.LoadErrors ∧ Sys2Proof.Claims.StateErrors ∧ Sys2Proof.Claims.ExceptionReturnAtU ∧ Sys2Proof.Claims.CsrForbidden

/-- R56, R196. At U an instruction of a class whose USE bit is clear traps with cause 0x04, and one whose class the core does
not have traps with cause 0x03; TVAL is the class, and no register changes. A launch is placed only on cores that have
every class of its stages' use masks. -/
def Obligations.ClassTraps : Prop :=
  (∀ (i : Instr) (s s1 : State) (c : Nat), s.issueClass i = some c → s.hart.viq = [] → s.canTrap s1 →
    (s.hart.scalar.level = .u → s.hart.ctl.usemask.getLsbD c = false →
      ∃ t, exec i s = .next t ∧ t.hart.trap.cause = 0x04 ∧ t.hart.trap.tval = BitVec.ofNat 64 c ∧
        t.hart.trap.tpc = s.hart.scalar.pc ∧ t.hart.scalar.pc = s.hart.trap.tvec ∧ s.sameX t ∧ t.hart.vrf = s.hart.vrf ∧
        t.hart.v = s.hart.v ∧ t.hart.ctl = s.hart.ctl) ∧
    (s.hart.scalar.level = .s ∨ s.hart.ctl.usemask.getLsbD c = true → s.capable c = false →
      ∃ t, exec i s = .next t ∧ t.hart.trap.cause = 0x03 ∧ t.hart.trap.tval = BitVec.ofNat 64 c ∧
        t.hart.trap.tpc = s.hart.scalar.pc ∧ t.hart.scalar.pc = s.hart.trap.tvec ∧ s.sameX t ∧ t.hart.vrf = s.hart.vrf ∧
        t.hart.v = s.hart.v ∧ t.hart.ctl = s.hart.ctl)) ∧
  ∀ (s : State) (l : Launch) (ids : List (List HartId)) (n j : Nat) (st : StageRec) (row : List HartId) (id : HartId),
    s.fitQueued (fun _ => false) l = some ids → l.record.stages[n]? = some st → ids[n]? = some row → row[j]? = some id →
    st.usemask &&& ~~~((s.core (id.val / 4)).cap.setWidth 32) = 0

/-! ### Acquires, atomics, gates, queues and tiles -/

/-- R222, R224, R248. LDAQ from an aligned, readable address completes with the value, sign-extended under SGN. Of scope .d it
drops the copies of other packages' lines that the core's L1 holds, of scope .p and .s those in the die's RDC too, all but the
unordered ones. -/
def Sys2Proof.Claims.AcquireLoads : Prop :=
  ∀ (o : LdaqOps) (s s1 s2 : State) (pa : Nat) (kind : PageKind) (bs : List Byte), s.isReady 1 →
    (s.x o.base + o.off.signExtend 64).toNat % o.size.bytes = 0 →
    s.locate .load (s.x o.base + o.off.signExtend 64) = (s1, .ok (pa, kind)) →
    (s1.ordered kind).readAt .load pa o.size.bytes kind s.hart.nextSeq = (s2, .ok bs) →
    ∃ t, exec (.ldaq o) s = .next t ∧
      s.onlyX t o.d (if o.sgn then sextBytes o.size.bytes (leNat bs) else BitVec.ofNat 64 (leNat bs)) ∧
      t.hart.scalar.pc = s.hart.nextPc ∧ s2.hart.sameButScalars t.hart ∧ (s1.ordered kind).sameMemory t ∧
      { t with hart := s2.hart, store := s2.store } = s2 ∧
      (o.scope = .h ∨ o.scope = .c → s2.samePackage t) ∧
      (o.scope = .d ∨ o.scope = .p ∨ o.scope = .s →
        ∀ c ∈ t.store.far.l1, c.unit = s.hart.core → c.kind = .un) ∧
      (o.scope = .p ∨ o.scope = .s → ∀ c ∈ t.store.far.rdc, c.unit = s.hart.core / 64 → c.kind = .un)

/-- R249. STRL to an aligned, accepted address completes. Of scope .c or wider it commits the strip and then stores past the
buffer; of scope .h it stores as a plain store does: inside an open strip into the buffer, and outside one, or to an SO page, to
memory. A store that reaches home memory reads back there, and every other byte is as before it. -/
def Sys2Proof.Claims.ReleaseStores : Prop :=
  ∀ (o : StrlOps) (s s1 s2 : State) (pa : Nat) (kind : PageKind), s.isReady 1 →
    (s.x o.base + o.off.signExtend 64).toNat % o.size.bytes = 0 →
    s.locate .store (s.x o.base + o.off.signExtend 64) = (s1, .ok (pa, kind)) →
    s1.checkAt .store pa = (s2, .ok ()) →
    ∃ t, exec (.strl o) s = .next t ∧ s.sameX t ∧ t.hart.scalar.pc = s.hart.nextPc ∧ t.hart.v.fflags = s.hart.v.fflags ∧
      t.hart.trap = s.hart.trap ∧ t.hart.ctl = s.hart.ctl ∧
      (o.scope ≠ .h ∨ kind = .so ∨ s.hart.strip = none →
        t.hart.strip = none ∧ t.hart.sbuf = [] ∧
        (s.homeMemory pa → Memory.wf s.store.mem = true →
          readBytes t.store.mem (paLocal pa) o.size.bytes = natBytes o.size.bytes (s.x o.src).toNat ∧
          s2.commit.sameMemoryOutside t (paLocal pa) o.size.bytes ∧ t.store.host = s2.commit.store.host ∧
          t.store.peers = s2.commit.store.peers)) ∧
      (o.scope = .h → kind ≠ .so → s.hart.strip ≠ none → s.hart.wouldOverflow o.size.bytes = false →
        t.hart.sbuf = s.hart.sbuf ++ [⟨pa, natBytes o.size.bytes (s.x o.src).toNat, kind, s.hart.newest, s.hart.stripId,
          s.hart.xctx.ctxid, (s.x o.base + o.off.signExtend 64).toNat⟩] ∧ t.hart.strip = s.hart.strip ∧ s.sameMemory t)

/-- R232, R248, R249. Acquire loads and release stores. -/
def Obligations.AcquireRelease : Prop :=
  Sys2Proof.Claims.AcquireLoads ∧ Sys2Proof.Claims.ReleaseStores

/-- R250, R251. An atomic of scope .c or wider on aligned home memory commits the strip, writes its operation of the old
value and x[S2] at its address and nowhere else, and x[D] receives the old value: zero-extended for AMOMINU and AMOMAXU,
sign-extended for the others. -/
def Sys2Proof.Claims.AtomicsShared : Prop :=
  ∀ (i : Instr) (op : AmoOp) (o : AmoOps) (s s1 s2 : State) (pa : Nat) (kind : PageKind) (bs : List Byte),
    amoForm i = some (op, o) → s.isReady 1 → o.scope ≠ .h → (s.x o.addr).toNat % amoBytes o.dbl = 0 →
    s.locate .atomic (s.x o.addr) = (s1, .ok (pa, kind)) →
    s1.commit.readAt .atomic pa (amoBytes o.dbl) .so s.hart.nextSeq = (s2, .ok bs) → s.homeMemory pa →
    Memory.wf s.store.mem = true →
    ∃ t, exec i s = .next t ∧
      readBytes t.store.mem (paLocal pa) (amoBytes o.dbl) =
        natBytes (amoBytes o.dbl) (amoValue op (8 * amoBytes o.dbl) (leNat bs)
          ((s.x o.src).toNat % 2 ^ (8 * amoBytes o.dbl))) ∧
      s1.commit.sameMemoryOutside t (paLocal pa) (amoBytes o.dbl) ∧
      s.onlyX t o.d (if op = .minu ∨ op = .maxu then BitVec.ofNat 64 (leNat bs) else sextBytes (amoBytes o.dbl) (leNat bs)) ∧
      t.hart.scalar.pc = s.hart.nextPc ∧ t.hart.strip = none ∧ t.hart.sbuf = []

/-- R251. An atomic of scope .h inside an open strip stays private to the hart: the new value waits in the strip store
buffer, no byte of memory changes, and x[D] receives the old value. -/
def Sys2Proof.Claims.AtomicsPrivate : Prop :=
  ∀ (i : Instr) (op : AmoOp) (o : AmoOps) (s s1 s2 : State) (pa : Nat) (kind : PageKind) (bs : List Byte),
    amoForm i = some (op, o) → s.isReady 1 → o.scope = .h → kind ≠ .so → (s.x o.addr).toNat % amoBytes o.dbl = 0 →
    s.locate .atomic (s.x o.addr) = (s1, .ok (pa, kind)) →
    s1.readAt .atomic pa (amoBytes o.dbl) kind s.hart.nextSeq = (s2, .ok bs) →
    s.hart.strip ≠ none → s.hart.wouldOverflow (amoBytes o.dbl) = false →
    ∃ t, exec i s = .next t ∧
      t.hart.sbuf = s.hart.sbuf ++ [⟨pa, natBytes (amoBytes o.dbl) (amoValue op (8 * amoBytes o.dbl) (leNat bs)
        ((s.x o.src).toNat % 2 ^ (8 * amoBytes o.dbl))), kind, s.hart.newest, s.hart.stripId, s.hart.xctx.ctxid,
        (s.x o.addr).toNat⟩] ∧
      s.sameMemory t ∧
      s.onlyX t o.d (if op = .minu ∨ op = .maxu then BitVec.ofNat 64 (leNat bs) else sextBytes (amoBytes o.dbl) (leNat bs)) ∧
      t.hart.scalar.pc = s.hart.nextPc

/-- R252. CAS of scope .c or wider writes its new value when the old one equals the expected one, and nothing otherwise;
x[D] receives the old value, sign-extended. -/
def Sys2Proof.Claims.CompareAndSwap : Prop :=
  ∀ (o : CasOps) (s s1 s2 : State) (pa : Nat) (kind : PageKind) (bs : List Byte),
    s.isReady 1 → o.scope ≠ .h → (s.x o.addr).toNat % amoBytes o.dbl = 0 →
    s.locate .atomic (s.x o.addr) = (s1, .ok (pa, kind)) →
    s1.commit.readAt .atomic pa (amoBytes o.dbl) .so s.hart.nextSeq = (s2, .ok bs) → s.homeMemory pa →
    Memory.wf s.store.mem = true →
    ∃ t, exec (.cas o) s = .next t ∧ s.onlyX t o.d (sextBytes (amoBytes o.dbl) (leNat bs)) ∧
      t.hart.scalar.pc = s.hart.nextPc ∧ t.hart.strip = none ∧ t.hart.sbuf = [] ∧
      (leNat bs = (s.x o.expect).toNat % 2 ^ (8 * amoBytes o.dbl) →
        readBytes t.store.mem (paLocal pa) (amoBytes o.dbl) =
          natBytes (amoBytes o.dbl) ((s.x o.new).toNat % 2 ^ (8 * amoBytes o.dbl)) ∧
        s1.commit.sameMemoryOutside t (paLocal pa) (amoBytes o.dbl)) ∧
      (leNat bs ≠ (s.x o.expect).toNat % 2 ^ (8 * amoBytes o.dbl) → s1.commit.sameMemory t)

/-- R250 to R252. Scalar atomics of a shared scope, atomics inside a strip, and CAS. -/
def Obligations.Atomics : Prop :=
  Sys2Proof.Claims.AtomicsShared ∧ Sys2Proof.Claims.AtomicsPrivate ∧ Sys2Proof.Claims.CompareAndSwap

/-- R24, R231, R254. A fence completes with an empty VIQ once the accesses of the hart's copies that it orders are performed, and
changes no register: an acquire, release or full fence of scope .c or wider commits the strip; the fences of one hart's two
sides change nothing else. -/
def Sys2Proof.Claims.Fences : Prop :=
  ∀ s : State, s.isReady 1 →
    (∀ i ∈ [Instr.fenceSv, .fenceVs, .fenceVv], i = .fenceSv ∨ s.hart.copiesDone true = true →
      ∃ t, exec i s = .next t ∧ t.hart.scalar.pc = s.hart.nextPc ∧ s.sameX t ∧ s.hart.sameButScalars t.hart ∧
        s.samePackage t) ∧
    (∀ (i : Instr) (sc : Scope), i ∈ [Instr.fenceAcq sc, .fenceRel sc, .fenceFull sc] →
      s.hart.copiesDone (decide (i ≠ .fenceAcq sc)) = true →
      ∃ t, exec i s = .next t ∧ t.hart.scalar.pc = s.hart.nextPc ∧ s.sameX t ∧ t.hart.v.fflags = s.hart.v.fflags ∧
        t.hart.ctl = s.hart.ctl ∧ t.hart.trap = s.hart.trap ∧
        (sc = .h → t.hart.strip = s.hart.strip ∧ t.hart.sbuf = s.hart.sbuf ∧ s.sameMemory t) ∧
        (sc ≠ .h → t.hart.strip = none ∧ t.hart.sbuf = [])) ∧
    (∀ i ∈ [Instr.fenceVs, .fenceVv], s.hart.copiesDone true = false →
      ∃ t, exec i s = .next t ∧ t.hart.scalar.pc = s.hart.scalar.pc ∧ s.sameX t ∧ s.sameMemory t)

/-- R256. The CACHE members complete and change no register and no byte of memory: WBL2 and PREF nothing at all, INVRDC and
INVL1 over more than 16 MiB drop every copy that the die's RDC or the core's L1 holds of other packages' lines. -/
def Sys2Proof.Claims.CacheMaintenance : Prop :=
  ∀ s : State, s.isReady 1 →
    (∀ i : Instr, (∃ o, i = .wbl2 o) ∨ (∃ o, i = .pref o) →
      ∃ t, exec i s = .next t ∧ t.hart.scalar.pc = s.hart.nextPc ∧ s.sameX t ∧ s.hart.sameButScalars t.hart ∧
        s.samePackage t) ∧
    (∀ o : RangeOps, ∃ t, exec (.invrdc o) s = .next t ∧ t.hart.scalar.pc = s.hart.nextPc ∧ s.sameX t ∧
      s.hart.sameButScalars t.hart ∧ s.sameMemory t ∧
      (0x1000000 < (s.x o.len).toNat → ∀ c ∈ t.store.far.rdc, c.unit ≠ s.hart.die)) ∧
    (∀ o : RangeOps, ∃ t, exec (.invl1 o) s = .next t ∧ t.hart.scalar.pc = s.hart.nextPc ∧ s.sameX t ∧
      s.hart.sameButScalars t.hart ∧ s.sameMemory t ∧
      (0x1000000 < (s.x o.len).toNat → ∀ c ∈ t.store.far.l1, c.unit ≠ s.hart.core))

/-- R243, R257, R350, R359. PUBLISH of one page whose copies have all landed and whose table words accept stores commits the
strip, exchanges the live and the shadow word, sets SHD in the new live word, and continues; no other byte of memory changes
after the commit. -/
def Sys2Proof.Claims.PublishExchanges : Prop :=
  ∀ (o : RangeOps) (s s1 s2 s3 : State) (live shadow old new : Nat), s.isReady 1 →
    (s.x o.base).toNat % 65536 = 0 → s.x o.len = 1 → s.hart.copies = [] →
    s.commit.shadowWords s.me s.hart.xctx (s.x o.base).toNat = (s1, .ok (live, shadow, old, new)) →
    s1.checkAt .store live = (s2, .ok ()) → s2.checkAt .store shadow = (s3, .ok ()) →
    s.homeMemory live → s.homeMemory shadow → paLocal live + 8 ≤ paLocal shadow → new < 2 ^ 64 → old < 2 ^ 64 →
    Memory.wf s.store.mem = true →
    ∃ t, exec (.publish o) s = .next t ∧ readNat t.store.mem (paLocal live) 8 = new ||| 256 ∧
      readNat t.store.mem (paLocal shadow) 8 = old ∧
      (∀ a, (a < paLocal live ∨ paLocal live + 8 ≤ a) → (a < paLocal shadow ∨ paLocal shadow + 8 ≤ a) →
        memRead t.store.mem a = memRead s3.store.mem a) ∧
      t.hart.strip = none ∧ t.hart.sbuf = [] ∧ s.sameX t ∧ t.hart.scalar.pc = s.hart.nextPc

/-- R24, R231, R243, R254, R256, R257, R350. Fences, the CACHE members, and PUBLISH. -/
def Obligations.FencesAndCaches : Prop :=
  Sys2Proof.Claims.Fences ∧ Sys2Proof.Claims.CacheMaintenance ∧ Sys2Proof.Claims.PublishExchanges

/-- R255. WAITM whose condition holds of an aligned, readable word completes with the word; one whose condition fails
leaves the hart asleep at the instruction, with no register and no byte of memory changed. -/
def Obligations.WaitOnMemory : Prop :=
  ∀ (o : WaitmOps) (s s1 s2 : State) (pa : Nat) (kind : PageKind) (bs : List Byte), s.isReady 1 →
    (s.x o.addr).toNat % amoBytes o.dbl = 0 → s.locate .load (s.x o.addr) = (s1, .ok (pa, kind)) → kind ≠ .so →
    s1.readAt .load pa (amoBytes o.dbl) kind s.hart.nextSeq = (s2, .ok bs) →
    (WaitCond.holds o.cond (leNat bs) ((s.x o.cmp).toNat % 2 ^ (8 * amoBytes o.dbl)) = true →
      ∃ t, exec (.waitm o) s = .next t ∧ s.onlyX t o.d (BitVec.ofNat 64 (leNat bs)) ∧
        t.hart.scalar.pc = s.hart.nextPc ∧ t.hart.marks.wait = .none ∧ s.sameMemory t) ∧
    (WaitCond.holds o.cond (leNat bs) ((s.x o.cmp).toNat % 2 ^ (8 * amoBytes o.dbl)) = false →
      ∃ t, exec (.waitm o) s = .next t ∧ s.sameX t ∧ t.hart.scalar.pc = s.hart.scalar.pc ∧
        t.hart.marks.wait = .waitm (s.x o.addr).toNat ∧ s.sameMemory t)

/-- R272, R274, R275. GINIT binds a legal gate of its own context with its expected count and no arrival; GARR adds its
count, flips the phase and clears the arrivals when they reach the expected count, and x[D] receives the phase read. -/
def Sys2Proof.Claims.GateArrivals : Prop :=
  ∀ s : State, s.isReady 1 →
    (∀ o : GinitOps, s.gateMisuse (s.x o.gate) s.hart.xctx.ctxid (.ginit (s.x o.count).toNat) = none →
      s.badGate (s.x o.gate) = false →
      ∃ t, exec (.ginit o) s = .next t ∧ (t.gateOf (s.x o.gate)).exp.toNat = (s.x o.count).toNat ∧
        (t.gateOf (s.x o.gate)).arr = 0 ∧ (t.gateOf (s.x o.gate)).ph = (s.gateOf (s.x o.gate)).ph ∧
        (t.gateOf (s.x o.gate)).owner = some s.hart.xctx.ctxid ∧ s.sameX t ∧ t.hart.scalar.pc = s.hart.nextPc ∧
        t.hart.strip = none) ∧
    (∀ o : GarrOps, s.gateMisuse (s.x o.gate) s.hart.xctx.ctxid (.arrive (s.arriveCount o)) = none →
      s.badGate (s.x o.gate) = false →
      ∃ t, exec (.garr o) s = .next t ∧ s.onlyX t o.d (if (s.gateOf (s.x o.gate)).ph then 1 else 0) ∧
        (s.arriveCount o ≠ 0 → (s.gateOf (s.x o.gate)).arr.toNat + s.arriveCount o = (s.gateOf (s.x o.gate)).exp.toNat →
          (t.gateOf (s.x o.gate)).arr = 0 ∧ (t.gateOf (s.x o.gate)).ph = !(s.gateOf (s.x o.gate)).ph) ∧
        ((s.gateOf (s.x o.gate)).arr.toNat + s.arriveCount o ≠ (s.gateOf (s.x o.gate)).exp.toNat →
          (t.gateOf (s.x o.gate)).arr.toNat = (s.gateOf (s.x o.gate)).arr.toNat + s.arriveCount o ∧
            (t.gateOf (s.x o.gate)).ph = (s.gateOf (s.x o.gate)).ph) ∧
        (t.gateOf (s.x o.gate)).exp = (s.gateOf (s.x o.gate)).exp ∧ t.hart.scalar.pc = s.hart.nextPc ∧ t.hart.strip = none)

/-- R274, R276. GWAIT completes when the gate's phase differs from bit 0 of x[S2], and blocks the hart otherwise; GARW
arrives once, writes the phase to x[D] then, and completes in the same step exactly when its own arrival flips the
phase; that a GARW run again after a wait is known by the recorded pc, gate and phase, and that the wait is a step
that leaves the pc, are the model's choices (log entries 34 and 25); GQRY reads phase, expected count and arrivals. -/
def Sys2Proof.Claims.GateWaits : Prop :=
  ∀ s : State, s.isReady 1 →
    (∀ o : GwaitOps, s.gateMisuse (s.x o.gate) s.hart.xctx.ctxid .look = none → s.badGate (s.x o.gate) = false →
      ((s.gateOf (s.x o.gate)).ph ≠ (s.x o.phase).getLsbD 0 →
        ∃ t, exec (.gwait o) s = .next t ∧ t.hart.scalar.pc = s.hart.nextPc ∧ s.sameX t ∧ s.sameMemory t) ∧
      ((s.gateOf (s.x o.gate)).ph = (s.x o.phase).getLsbD 0 →
        ∃ t, exec (.gwait o) s = .next t ∧ t.hart.scalar.pc = s.hart.scalar.pc ∧
          t.hart.marks.wait = .gate ((s.x o.gate).toNat % 2 ^ 19) ∧ s.sameX t ∧ s.sameMemory t)) ∧
    (∀ o : GarrOps, (∀ w ∈ s.hart.marks.garw, w.pc ≠ s.hart.scalar.pc) →
      s.gateMisuse (s.x o.gate) s.hart.xctx.ctxid (.arrive (s.arriveCount o)) = none → s.badGate (s.x o.gate) = false →
      s.arriveCount o ≠ 0 →
      ((s.gateOf (s.x o.gate)).arr.toNat + s.arriveCount o = (s.gateOf (s.x o.gate)).exp.toNat →
        ∃ t, exec (.garw o) s = .next t ∧ s.onlyX t o.d (if (s.gateOf (s.x o.gate)).ph then 1 else 0) ∧
          t.hart.scalar.pc = s.hart.nextPc ∧ (t.gateOf (s.x o.gate)).arr = 0) ∧
      ((s.gateOf (s.x o.gate)).arr.toNat + s.arriveCount o ≠ (s.gateOf (s.x o.gate)).exp.toNat →
        ∃ t, exec (.garw o) s = .next t ∧ s.onlyX t o.d (if (s.gateOf (s.x o.gate)).ph then 1 else 0) ∧
          t.hart.scalar.pc = s.hart.scalar.pc ∧ t.hart.marks.garw =
            ⟨s.hart.scalar.pc, (s.x o.gate).toNat % 2 ^ 19, (s.gateOf (s.x o.gate)).ph⟩ :: s.hart.marks.garw ∧
          (t.gateOf (s.x o.gate)).arr.toNat = (s.gateOf (s.x o.gate)).arr.toNat + s.arriveCount o)) ∧
    (∀ o : GqryOps, s.gateMisuse (s.x o.gate) s.hart.xctx.ctxid .look = none → s.badGate (s.x o.gate) = false →
      ∃ t, exec (.gqry o) s = .next t ∧ s.onlyX t o.d (BitVec.ofNat 64 ((if (s.gateOf (s.x o.gate)).ph then 2 ^ 32 else 0) +
        (s.gateOf (s.x o.gate)).exp.toNat * 65536 + (s.gateOf (s.x o.gate)).arr.toNat)) ∧
        t.hart.scalar.pc = s.hart.nextPc ∧ s.samePackage t)

/-- R272, R274 to R276. Gate arrivals and gate waits (log entries 25 and 34). -/
def Obligations.Gates : Prop :=
  Sys2Proof.Claims.GateArrivals ∧ Sys2Proof.Claims.GateWaits

/-- R275. A misuse of a gate by GINIT, GARR, GWAIT, GARW or GQRY traps with cause 0x13, the lowest reason and the gate's
identifier; the gates stand, and nothing else is done. -/
def Sys2Proof.Claims.GateMisuse : Prop :=
  ∀ (i : Instr) (s s1 : State) (id : Word) (u : GateUse) (r : Nat), gateForm s i = some (id, u) → s.isReady 1 →
    s.canTrap s1 → s.gateMisuse id s.hart.xctx.ctxid u = some r →
    ∃ t, exec i s = .next t ∧ s.trapsTo t 0x13 (BitVec.ofNat 64 (r * 2 ^ 20 + id.toNat % 2 ^ 19)) s.hart.scalar.pc ∧
      s.intact t ∧ t.cores = s.cores

/-- R326. QPUSH, QPOP or QTRYPOP on a queue that is not the hart's to use traps with cause 0x14, the reason and the queue number;
the queues stand, and nothing else is done. -/
def Sys2Proof.Claims.QueueErrors : Prop :=
  ∀ (i : Instr) (s s1 : State) (q : Fin 64) (push : Bool) (r : Nat), queueForm i = some (q, push) → s.isReady 2 →
    s.canTrap s1 → s.queueReason q push = some r →
    ∃ t, exec i s = .next t ∧ s.trapsTo t 0x14 (BitVec.ofNat 64 (q.val * 256 + r)) s.hart.scalar.pc ∧ s.intact t ∧
      t.cores = s.cores

/-- R269, R374. The first copy-class instruction after a copy has failed (CPY, CMWAIT, CMTEST, CMCLR, PUBLISH, HALT) traps
with cause 0x0B and has no effect: TVAL is the kind with the failing address, or the gate fields, and of several
failures that of the copy issued first is delivered. ERET from the trap lets the copy go on from its failing chunk;
one of kind 5 is complete. -/
def Sys2Proof.Claims.CopyFaults : Prop :=
  ∀ (s s1 : State) (before after : List CopyCtx) (c : CopyCtx) (f : CopyFail), s.hart.copies = before ++ c :: after →
    (∀ b ∈ before, b.copy.failure = none) → c.copy.failure = some f → f.ecc = none →
    (∀ i : Instr, c.copy.reported = false → s.canTrap s1 →
      (∃ v, posted i = some v ∧ s.vectorReady v ∧
        ((∃ sh o, v = .cpy sh o) ∨ (∃ o, v = .cmwait o) ∨ (∃ o, v = .cmtest o) ∨ ∃ o, v = .cmclr o)) ∨
      (∃ o, i = .publish o ∧ s.isReady 1 ∧ (s.x o.len).toNat ≤ 4096) ∨
      (i = .halt ∧ s.isReady 0 ∧ s.hart.marks.removed = false) → s.hart.sbuf = [] →
      ∃ t, exec i s = .next t ∧
        s.trapsTo t 0x0B (BitVec.ofNat 64 (f.kind * 2 ^ 60) ||| BitVec.ofNat 64 (f.addr.toNat % 2 ^ 57)) s.hart.scalar.pc ∧
        t.hart.copies = before ++ { c with copy := { c.copy with reported := true } } :: after ∧
        t.hart.trap.xlinfo = (f.xlinfo.map fun n => BitVec.ofNat 12 n).getD s.hart.trap.xlinfo ∧
        t.hart.chunks = s.hart.chunks ∧ t.hart.vrf = s.hart.vrf ∧ t.hart.masks = s.hart.masks ∧
        t.hart.v.fflags = s.hart.v.fflags ∧ t.hart.marks.halted = s.hart.marks.halted ∧ s.sameMemory t) ∧
    (c.copy.reported = true → (∀ b ∈ after, b.copy.reported = false) → s.isReady 0 → s.hart.scalar.level = .s →
      s.hart.trap.cause = 0x0B → s.targetIllegal (if s.hart.trap.spl then .s else .u) s.hart.trap.tpc = (s1, .ok false) →
      (∀ b ∈ before, b.copy.reported = false) →
      ∃ t, exec .eret s = .next t ∧ t.hart.scalar.pc = s.hart.trap.tpc ∧
        (f.kind ≠ 5 → t.hart.copies =
          before ++ { c with copy := { c.copy with failure := none, reported := false } } :: after) ∧
        (f.kind = 5 → t.hart.copies = before ++ after))

/-- R269, R275, R326, R374. Misused gates and queues, and the failure of a copy. -/
def Obligations.UnitMisuse : Prop :=
  Sys2Proof.Claims.GateMisuse ∧ Sys2Proof.Claims.QueueErrors ∧ Sys2Proof.Claims.CopyFaults

/-- R24, R320, R323 to R325. QPUSH puts its two words behind the entries of a queue with room. QPOP and QTRYPOP take the
head of the core's own queue with status 1, else the tail of the first queue with an entry on the die in ring order,
with status 3 and the victim; with none and the feeding stage ended they answer DRAINED, 4. QTRYPOP with none answers
0; QPOP with none answers SURPLUS, 8, where the stage scheduler chose it, and waits otherwise. QSTAT reads the queue.
Each commits the strip. -/
def Obligations.HardwareQueues : Prop :=
  ∀ s : State, s.isReady 2 →
    (∀ o : QpushOps, s.queueReason o.q true = none → s.badQueue s.hart.core o.q = false →
      (s.queue s.hart.core o.q.val).entries.length < (s.queue s.hart.core o.q.val).depth →
      ∃ t, exec (.qpush o) s = .next t ∧
        (t.queue s.hart.core o.q.val).entries = (s.queue s.hart.core o.q.val).entries ++ [(s.x o.w0, s.x o.w1)] ∧
        s.sameX t ∧ t.hart.scalar.pc = s.hart.nextPc ∧ t.hart.strip = none ∧ t.hart.sbuf = []) ∧
    (∀ (i : Instr) (o : QpopOps) (a b : Word) (rest : List (Word × Word)), i ∈ [Instr.qpop o, .qtrypop o] →
      o.wellFormed = true → o.st ≠ o.d → o.st ≠ o.d + 1 → s.queueReason o.q false = none →
      (s.badQueue s.hart.core o.q = false → (s.queue s.hart.core o.q.val).entries = (a, b) :: rest →
        ∃ t, exec i s = .next t ∧ t.x o.d = a ∧ t.x (o.d + 1) = b ∧ (o.st ≠ 0 → t.x o.st = 1) ∧
          (∀ r, r ≠ o.d → r ≠ o.d + 1 → r ≠ o.st → t.x r = s.x r) ∧
          (t.queue s.hart.core o.q.val).entries = rest ∧ t.hart.scalar.pc = s.hart.nextPc ∧ t.hart.strip = none ∧
          t.hart.sbuf = []) ∧
      (∀ n c : Nat, n < 63 → c = s.hart.core / 64 * 64 + (s.hart.core + 1 + n) % 64 → s.badQueue c o.q = false →
        (s.queue s.hart.core o.q.val).entries = [] →
        (∀ m, m < n → (s.queue (s.hart.core / 64 * 64 + (s.hart.core + 1 + m) % 64) o.q.val).entries = []) →
        (s.queue c o.q.val).entries = rest ++ [(a, b)] →
        ∃ t, exec i s = .next t ∧ t.x o.d = a ∧ t.x (o.d + 1) = b ∧
          (o.st ≠ 0 → t.x o.st = BitVec.ofNat 64 (3 + c % 64 * 256)) ∧
          (∀ r, r ≠ o.d → r ≠ o.d + 1 → r ≠ o.st → t.x r = s.x r) ∧ (t.queue c o.q.val).entries = rest ∧
          t.hart.scalar.pc = s.hart.nextPc ∧ t.hart.strip = none ∧ t.hart.sbuf = [])) ∧
    (∀ o : QpopOps, s.queueReason o.q false = none → s.popFrom o.q = none →
      (s.feedEnded = true → s.queueTotal o.q.val = 0 → ∀ i ∈ [Instr.qpop o, .qtrypop o],
        ∃ t, exec i s = .next t ∧ s.onlyX t o.st 4 ∧ t.hart.scalar.pc = s.hart.nextPc ∧ t.hart.strip = none ∧
          t.hart.sbuf = []) ∧
      (s.feedEnded = false ∨ s.queueTotal o.q.val ≠ 0 →
        (∃ t, exec (.qtrypop o) s = .next t ∧ s.onlyX t o.st 0 ∧ t.hart.scalar.pc = s.hart.nextPc ∧ t.hart.strip = none ∧
          t.hart.sbuf = []) ∧
        (∀ since, s.hart.marks.wait = .qpop o.q since true →
          ∃ t, exec (.qpop o) s = .next t ∧ s.onlyX t o.st 8 ∧ t.hart.scalar.pc = s.hart.nextPc ∧ t.hart.strip = none ∧
            t.hart.sbuf = []) ∧
        (s.hart.marks.wait = .none →
          ∃ t, exec (.qpop o) s = .next t ∧ s.sameX t ∧ t.hart.scalar.pc = s.hart.scalar.pc ∧
            t.hart.marks.wait = .qpop o.q s.cycle false ∧ t.hart.strip = none ∧ t.hart.sbuf = []))) ∧
    (∀ o : QstatOps, ∃ t, exec (.qstat o) s = .next t ∧ s.onlyX t o.d (s.qstatWord o.q) ∧
      t.hart.scalar.pc = s.hart.nextPc ∧ t.hart.strip = none)

/-- R311. LAUNCH commits the strip, hands its record address to the scheduler with the hart's context and waits; once the
launch is accepted it completes with the low 16 bits of the acceptance number. -/
def Obligations.LaunchHandsOver : Prop :=
  ∀ (d r : XReg) (s : State), s.isReady 2 →
    (s.hart.marks.launchAnswer = none → (s.x r).toNat % 256 = 0 → (s.x r).toNat < 2 ^ 57 → s.launching = false →
      ∃ t, exec (.launch d r) s = .next t ∧
        t.sched.fifo = s.commit.sched.fifo ++
          [⟨s.x r, s.hart.xctx.ctxid, 0, some s.hart.ident.id, s.commit.sched.arrivals⟩] ∧
        t.hart.marks.wait = .launch ∧ t.hart.scalar.pc = s.hart.scalar.pc ∧ s.sameX t ∧ t.hart.strip = none ∧
        t.hart.sbuf = []) ∧
    (∀ seq, s.hart.marks.launchAnswer = some (.inr seq) →
      ∃ t, exec (.launch d r) s = .next t ∧ s.onlyX t d (BitVec.ofNat 64 (seq % 65536)) ∧
        t.hart.scalar.pc = s.hart.nextPc ∧ t.hart.marks.launchAnswer = none ∧ t.hart.strip = none)

/-- R397 to R400. SEAL of a granted item with a legal length, its copies landed, records the length in the launch's
declaration and continues; inside a power-fail window it marks the hart sealed. SEALQ reads the restored item's word. -/
def Obligations.SealRecords : Prop :=
  ∀ s : State, s.isReady 3 →
    (∀ (a b : XReg) (l : Launch) (dc : HoldDecl), s.holdReason (s.x a) (some (s.x b)) = none → s.hart.copies = [] →
      s.launch s.hart.ident.seq = some l → l.hold = some dc →
      ∃ t, exec (.seal a b) s = .next t ∧ s.sameX t ∧ t.hart.scalar.pc = s.hart.nextPc ∧ t.hart.strip = none ∧
        t.hart.sbuf = [] ∧ t.hart.marks.sealed = (s.hart.marks.sealed || s.power.window) ∧
        ∃ k, t.launch s.hart.ident.seq = some k ∧ k.hold = some (dc.setLen (s.x a).toNat (s.x b).toNat)) ∧
    (∀ d a : XReg, s.holdReason (s.x a) none = none →
      ∃ t, exec (.sealq d a) s = .next t ∧ s.onlyX t d (s.sealqWord (s.x a).toNat) ∧ t.hart.scalar.pc = s.hart.nextPc ∧
        s.samePackage t)

/-- R8, R23, R24, R116 to R120. VCFG with a legal list outside a strip sets NV and the carried registers, VL = 0, VROWS = 1,
zeroes the vector registers and ends every stream. SETVL grants the largest row that fits, in VL and x[D], closes the open strip
and opens one that resumes after it, with the registers of SCHKMASK in its checkpoint. SETVR grants the most rows, at most
min(max(1, x[S1]), W), that fit at VL, in VROWS and x[D]; when not even one row of VL fits, it cuts VL to the longest row that does
and grants 1. Each is posted, and counts in INSTRET as it retires. -/
def Sys2Proof.Claims.TileSetting : Prop :=
  ∀ s : State,
    (∀ o : VcfgOps, s.vectorPosts (.vcfg o) →
      ∃ t, exec (.vcfg o) s = .next t ∧
        t.hart.v = { s.hart.vPast with nvCode := o.nv, carried := vcfgList (s.x o.list) o.c.val, vl := 0, vrows := 1 } ∧
        (∀ r bits row el, vget t.hart.vrf r bits row el = 0) ∧ (∀ i : Fin 4, t.hart.streams[i] = none) ∧ s.sameX t ∧
        t.hart.scalar.pc = s.hart.nextPc ∧ t.hart.scalar.vret = s.hart.scalar.vret + 1 ∧ t.hart.masks = s.hart.masks ∧
        t.hart.ctl = s.hart.ctl ∧ t.hart.viq = [] ∧ s.samePackage t) ∧
    (∀ o : SetvlOps, s.vectorPosts (.setvl o) →
      ∃ t, exec (.setvl o) s = .next t ∧ t.hart.v = { s.hart.vPast with vl := t.hart.v.vl } ∧
        t.hart.v.vl ≤ (s.x o.a).toNat ∧
        (t.hart.v.vl ≠ 0 → tileFits s.lw s.hart.v.words o.w.bits s.hart.v.vrows t.hart.v.vl = true) ∧
        (∀ n, n ≤ (s.x o.a).toNat → n ≤ vlLimit s.lw s.hart.v.words →
          tileFits s.lw s.hart.v.words o.w.bits s.hart.v.vrows n = true → n ≤ t.hart.v.vl) ∧
        s.onlyX t o.d (BitVec.ofNat 64 t.hart.v.vl) ∧
        (∃ st, t.hart.strip = some st ∧ st.resume = s.hart.nextPc ∧ st.vl = t.hart.v.vl ∧ st.vrows = s.hart.v.vrows ∧
          st.opener = some o.d ∧ st.regs = t.hart.checkpoint ∧ st.shadows = [] ∧ st.rewinds = 0 ∧ st.sealed = false) ∧
        t.hart.closing = [] ∧ t.hart.sbuf = [] ∧ t.hart.scalar.pc = s.hart.nextPc ∧
        t.hart.scalar.vret = s.hart.scalar.vret + 1 ∧ t.hart.vrf = s.hart.vrf ∧ t.hart.masks = s.hart.masks ∧
        t.hart.ctl = s.hart.ctl ∧ t.hart.viq = [] ∧ (s.hart.sbuf = [] → s.samePackage t)) ∧
    (∀ o : SetvlOps, s.vectorPosts (.setvr o) →
      ∃ t, exec (.setvr o) s = .next t ∧ t.hart.v = { s.hart.vPast with vl := t.hart.v.vl, vrows := t.hart.v.vrows } ∧
        (tileFits s.lw s.hart.v.words o.w.bits 1 s.hart.v.vl = true →
          t.hart.v.vl = s.hart.v.vl ∧ 1 ≤ t.hart.v.vrows ∧ t.hart.v.vrows ≤ min (max 1 (s.x o.a).toNat) s.hart.v.words ∧
          tileFits s.lw s.hart.v.words o.w.bits t.hart.v.vrows s.hart.v.vl = true ∧
          ∀ n, n ≤ min (max 1 (s.x o.a).toNat) s.hart.v.words →
            tileFits s.lw s.hart.v.words o.w.bits n s.hart.v.vl = true → n ≤ t.hart.v.vrows) ∧
        (tileFits s.lw s.hart.v.words o.w.bits 1 s.hart.v.vl = false →
          t.hart.v.vrows = 1 ∧ t.hart.v.vl < s.hart.v.vl ∧ tileFits s.lw s.hart.v.words o.w.bits 1 t.hart.v.vl = true ∧
          ∀ n, n ≤ s.hart.v.vl → tileFits s.lw s.hart.v.words o.w.bits 1 n = true → n ≤ t.hart.v.vl) ∧
        s.onlyX t o.d (BitVec.ofNat 64 t.hart.v.vrows) ∧ t.hart.strip = s.hart.strip ∧ t.hart.sbuf = s.hart.sbuf ∧
        t.hart.scalar.pc = s.hart.nextPc ∧ t.hart.scalar.vret = s.hart.scalar.vret + 1 ∧ t.hart.vrf = s.hart.vrf ∧
        t.hart.masks = s.hart.masks ∧ t.hart.viq = [] ∧ s.samePackage t)

/-- R45, R119, R121. SETVLB acts as SETVL does and, when the grant is 0, continues at its target; otherwise at the instruction
that follows. An illegal target that it would continue at traps with cause 0x02 and nothing done. -/
def Sys2Proof.Claims.SetvlbBranches : Prop :=
  ∀ (o : SetvlbOps) (s s1 : State), s.vectorPosts (.setvlb o) →
    (s.setvlGrant (s.x o.a) o.w ≠ 0 →
      ∃ t, exec (.setvlb o) s = .next t ∧ t.hart.v = { s.hart.vPast with vl := s.setvlGrant (s.x o.a) o.w } ∧
        s.onlyX t o.d (BitVec.ofNat 64 (s.setvlGrant (s.x o.a) o.w)) ∧ (∃ st, t.hart.strip = some st ∧
          st.resume = s.hart.nextPc ∧ st.vl = t.hart.v.vl ∧ st.opener = some o.d ∧ st.rewinds = 0) ∧
        t.hart.scalar.pc = s.hart.nextPc ∧ t.hart.sbuf = [] ∧ t.hart.viq = []) ∧
    (s.setvlGrant (s.x o.a) o.w = 0 →
      s.targetIllegal s.hart.scalar.level (relTarget s.hart.scalar.pc o.loff.toInt o.slot.val) = (s1, .ok false) →
      ∃ t, exec (.setvlb o) s = .next t ∧ t.hart.v = { s.hart.vPast with vl := 0 } ∧ s.onlyX t o.d 0 ∧
        (∃ st, t.hart.strip = some st ∧ st.resume = t.hart.scalar.pc ∧ st.vl = 0 ∧ st.opener = some o.d) ∧
        t.hart.scalar.pc = relTarget s.hart.scalar.pc o.loff.toInt o.slot.val ∧ t.hart.sbuf = [] ∧ t.hart.viq = []) ∧
    (∀ s2, s.setvlGrant (s.x o.a) o.w = 0 →
      s.targetIllegal s.hart.scalar.level (relTarget s.hart.scalar.pc o.loff.toInt o.slot.val) = (s1, .ok true) →
      s1.canTrap s2 →
      ∃ t, exec (.setvlb o) s = .next t ∧ t.hart.trap.cause = 0x02 ∧
        t.hart.trap.tval = relTarget s.hart.scalar.pc o.loff.toInt o.slot.val ∧ t.hart.trap.tpc = s.hart.scalar.pc ∧
        t.hart.scalar.pc = s.hart.trap.tvec ∧ s.sameX t ∧ t.hart.v = s.hart.v)

/-- R8, R165, R168, R169. MSETS of a legal shape sets MSHAPE and nothing else; MZERO of an aligned, nameable accumulator group
zeroes its registers and leaves every other register alone. Each is posted, and counts in INSTRET as it retires. -/
def Sys2Proof.Claims.MatrixSetting : Prop :=
  ∀ s : State,
    (∀ (a : XReg) (m : MShape), mshapeOf (s.x a) = some m → s.vectorPosts (.msets a) →
      ∃ t, exec (.msets a) s = .next t ∧ t.hart.v = { s.hart.vPast with mshape := m } ∧ t.hart.vrf = s.hart.vrf ∧
        t.hart.masks = s.hart.masks ∧ t.hart.strip = s.hart.strip ∧ t.hart.sbuf = s.hart.sbuf ∧ s.sameX t ∧
        t.hart.scalar.pc = s.hart.nextPc ∧ t.hart.scalar.vret = s.hart.scalar.vret + 1 ∧ t.hart.viq = [] ∧
        s.samePackage t) ∧
    (∀ o : MzeroOps, s.vectorPosts (.mzero o) →
      ∃ t, exec (.mzero o) s = .next t ∧
        (∀ r : VReg, o.d.val ≤ r.val → r.val < o.d.val + grpSize o.g → ∀ bits row el, row < 2 ^ 23 → el < 2 ^ 20 →
          vget t.hart.vrf r.val bits row el = 0) ∧
        (∀ r : VReg, r.val < o.d.val ∨ o.d.val + grpSize o.g ≤ r.val → regSlice t.hart.vrf r = regSlice s.hart.vrf r) ∧
        t.hart.v = s.hart.vPast ∧ t.hart.sbuf = s.hart.sbuf ∧ s.sameX t ∧ t.hart.scalar.pc = s.hart.nextPc ∧
        t.hart.scalar.vret = s.hart.scalar.vret + 1 ∧ t.hart.masks = s.hart.masks ∧ t.hart.viq = [] ∧ s.samePackage t)

/-- R23, R24, R116 to R121, R165, R168, R169. Vector shape, strips, and the matrix shape. -/
def Obligations.Tiles : Prop :=
  Sys2Proof.Claims.TileSetting ∧ Sys2Proof.Claims.SetvlbBranches ∧ Sys2Proof.Claims.MatrixSetting

/-! ### The vector class -/

/-- R122, R123. Every elementwise integer instruction completes: each executed element of its destination holds its result,
an inactive one keeps its value, and nothing else changes. -/
def Sys2Proof.Claims.VectorIntegers : Prop := familyDelivers integerOut

/-- R124 to R127. Every elementwise floating-point instruction and conversion completes with its results, and merges the
flags of its executed elements into FFLAGS (R78). -/
def Sys2Proof.Claims.VectorFloats : Prop := familyDelivers floatOut

/-- R128 to R131. Every compare, select and move completes with its results. -/
def Sys2Proof.Claims.VectorMoves : Prop := familyDelivers moveOut

/-- R78, R91, R122 to R131. Elementwise integer, floating-point and move instructions. -/
def Obligations.VectorElements : Prop :=
  Sys2Proof.Claims.VectorIntegers ∧ Sys2Proof.Claims.VectorFloats ∧ Sys2Proof.Claims.VectorMoves

/-- R146 to R150. Every reduction and scan completes with its results. -/
def Obligations.VectorReductions : Prop := familyDelivers reduceOut

/-- R152 to R155. Every permutation and mask instruction completes with its results; a count goes to its register and to
VSTAT.CNT (R142). -/
def Obligations.VectorPermutations : Prop := familyDelivers permuteOut

/-- R154. VTRANS of a tile with VL = VROWS moves v[S1][e][r] to each active position of v[D] and leaves every other one; any
other tile traps with cause 0x05 at issue. D may be S1. -/
def Obligations.Transposes : Prop :=
  ∀ (o : VpermOps) (s : State),
    (s.hart.v.vl = s.hart.v.vrows → s.vectorReady (.vtrans o) →
      ∃ t, exec (.vtrans o) s = .next t ∧
        (s.unchecked (.vtrans o) → s.delivers t (VectorOut.reg o.d o.w.bits fun row el =>
          if s.active o.m row el then some (s.elem o.a o.w.bits el row) else none)) ∧
        (¬ s.unchecked (.vtrans o) → s.awaits t (VectorOut.reg o.d o.w.bits fun row el =>
          if s.active o.m row el then some (s.elem o.a o.w.bits el row) else none))) ∧
    (∀ s1, s.hart.v.vl ≠ s.hart.v.vrows → s.hart.viq = [] → s.issueIllegal (.vtrans o) (s.entryOf (.vtrans o)) = none → s.canTrap s1 →
      ∃ t, exec (.vtrans o) s = .next t ∧ t.hart.trap.cause = 0x05 ∧ t.hart.trap.tpc = s.hart.scalar.pc ∧
        t.hart.scalar.pc = s.hart.trap.tvec ∧ t.hart.scalar.level = .s ∧ s.sameX t ∧ t.hart.vrf = s.hart.vrf ∧
        t.hart.masks = s.hart.masks ∧ t.hart.v = s.hart.v ∧ t.hart.viq = [] ∧ t.hart.ctl = s.hart.ctl)

/-- R157 to R164. Every sort, merge, set operation, selection and segment instruction completes with its results. -/
def Obligations.VectorSorts : Prop := familyDelivers sortOut

/-- R174, R175, R190, R191. Every MMA whose weights are in place and every MDRAIN completes with its results. -/
def Obligations.MatrixProducts : Prop := familyDelivers matrixOut

/-- R144. Under ORDTRAP an order violation traps with cause 0x0D after the instruction has delivered its results: TPC
addresses the next instruction, TVAL names the source and the position, and VSTAT records them. -/
def Obligations.OrderTraps : Prop :=
  ∀ (i : Instr) (s s1 : State) (v : VInstr) (out : VectorOut) (src : Bool) (pos : Nat), posted i = some v →
    i.wellFormed = true → sortOut s v = some out ∨ matrixOut s v = some out → s.vectorReady v → s.unchecked v →
    out.order = some (src, pos) → s.hart.trap.ordTrap = true → s.canTrap s1 →
    ∃ t, exec i s = .next t ∧ t.hart.trap.cause = 0x0D ∧ t.hart.trap.tval = orderTval src pos ∧
      t.hart.trap.tpc = s.hart.nextPc ∧ t.hart.scalar.pc = s.hart.trap.tvec ∧ t.hart.scalar.level = .s ∧
      t.hart.trap.inTrap = true ∧ t.hart.v.order = true ∧ t.hart.v.osrc = src ∧ t.hart.v.opos = pos % 2 ^ 19 ∧
      t.hart.v.fflags = s.hart.v.fflags ||| out.flags ∧ t.hart.strip = none ∧
      (∀ w ∈ out.regs, ∀ row el, row < 2 ^ 20 → el < 2 ^ 20 → vget t.hart.vrf w.1.val w.2.1 row el =
        ((w.2.2 row el).map fun x => x % 2 ^ w.2.1).getD (vget s.hart.vrf w.1.val w.2.1 row el)) ∧
      (∀ r, t.x r =
        match out.scalar with
        | some (d, x) => if r = d ∧ d ≠ 0 then x else s.x r
        | none => s.x r)

/-- R91, R132 to R135, R137. VLD, VLDS and VLDX load every element that they access and nothing else; VLDFF loads the active
elements below the first that faults, and m15 names those. -/
def Obligations.VectorLoads : Prop :=
  ∀ (i : Instr) (s : State) (v : VInstr) (val : Nat → Nat → Nat), posted i = some v → s.vectorReady v →
    (∀ (d : VReg) (w : Width) (m : MReg), vectorLoadForm v = some (d, w, m) → s.allAligned v m w.bytes →
      (∀ row el, s.accesses v m row el = true →
        s.readsAt .load (s.memAddr (s.entryOf v) v row el) w.bytes (val row el)) →
      ∃ t, exec i s = .next t ∧ s.delivers t
        (VectorOut.reg d w.bits fun row el => if s.accesses v m row el then some (val row el) else none)) ∧
    (∀ (o : VldOps) (n : Nat), v = .vldff o → s.allAligned v o.m o.w.bytes →
      (∀ row el, s.active o.m row el = true → row * s.hart.v.vl + el < n →
        s.readsAt .load (s.memAddr (s.entryOf v) v row el) o.w.bytes (val row el)) →
      (∀ row el, s.active o.m row el = true → n ≤ row * s.hart.v.vl + el →
        (row * s.hart.v.vl + el ≠ n ∧
          ∃ x, s.readsAt .load (s.memAddr (s.entryOf v) v row el) o.w.bytes x) ∨
        ∃ c r l, s.locate .load (s.memAddr (s.entryOf v) v row el) = (s, .error (.fault c r l))) →
      (s.hart.v.vrows * s.hart.v.vl ≤ n ∨
        (s.active o.m (n / s.hart.v.vl) (n % s.hart.v.vl) = true ∧
          ∃ row el, s.active o.m row el = true ∧ row * s.hart.v.vl + el < n)) →
      ∃ t, exec i s = .next t ∧ s.delivers t
        { VectorOut.reg o.d o.w.bits (fun row el =>
            if s.active o.m row el && decide (row * s.hart.v.vl + el < n) then some (val row el) else none) with
          mask := some (15, fun p =>
            if p < s.hart.v.vrows * s.hart.v.vl then
              some (s.active o.m (p / s.hart.v.vl) (p % s.hart.v.vl) && decide (p < n)) else none) })

/-- R91, R132 to R135, R138, R238. VST, VSTS, VSTX and VSTX.O store every element that they access, in order: inside an open
strip into its buffer behind what it holds, so that a read through it gives what the element stores one by one would, with no byte
of memory changed; and outside one to memory. No register changes. -/
def Sys2Proof.Claims.VectorStores : Prop :=
  ∀ (i : Instr) (s : State) (v : VInstr) (d : VReg) (w : Width) (m : MReg) (pl : Nat → Nat → Nat × PageKind),
    posted i = some v → vectorStoreForm v = some (d, w, m) → s.vectorReady v → s.allAligned v m w.bytes →
    (∀ row el, s.accesses v m row el = true → s.storesAt (s.memAddr (s.entryOf v) v row el) (pl row el)) →
    (s.hart.strip ≠ none →
      bufferedBytes s.hart.sbuf + w.bytes * (s.accessed v m).length ≤ 65536 →
      ∃ t new, exec i s = .next t ∧ t.hart.sbuf = s.hart.sbuf ++ new ∧
        (∀ e ∈ new, e.after = s.hart.nextSeq - 1 ∧ e.strip = s.hart.stripId ∧ e.ctx = s.hart.xctx.ctxid ∧ e.kind ≠ .so) ∧
        bufferedBytes new = w.bytes * (s.accessed v m).length ∧
        (∀ pa bs, overlay pa bs (new.map fun e => (e.pa, e.bytes)) = overlay pa bs ((s.accessed v m).map fun p =>
          ((pl p.1 p.2).1, natBytes w.bytes (s.elem d w.bits p.1 p.2)))) ∧
        s.delivers { t with hart := { t.hart with sbuf := s.hart.sbuf } } .nothing) ∧
    (s.hart.strip = none → (∀ row el, s.accesses v m row el = true → s.homeMemory (pl row el).1) →
      ∃ t, exec i s = .next t ∧ t.hart.sbuf = [] ∧ s.store.sameButMem t.store ∧
        t.store.mem = storedMem s.store.mem
          (fun p => ((pl p.1 p.2).1, natBytes w.bytes (s.elem d w.bits p.1 p.2))) (s.accessed v m) ∧
        s.delivers { t with store := s.store } .nothing)

/-- R136, R138, R374, R377. Under PFMODE = 0 a VLDX, VSTX or VSTX.O with active elements whose translation faults loads or stores
those that do not fault, VSTX.O only those below the lowest that does, and traps with cause 0x09: TVAL is the address of that
lowest one, m15 holds 1 at the elements left undone and 0 elsewhere in the tile, PMASK is set and VRESUME is 0. -/
def Sys2Proof.Claims.PartialFaults : Prop :=
  ∀ (i : Instr) (s s1 : State) (v : VInstr) (o : VldxOps) (k : AccessKind) (ok : Nat → Nat → Bool) (row el : Nat),
    posted i = some v → s.vectorReady v → s.hart.trap.pfGroup = false → s.hart.sbuf = [] → s.canTrap s1 →
    s.allAligned v o.m o.w.bytes → s.active (s.maskOf v o.m) row el = true → ok row el = false →
    (∀ r e, s.active (s.maskOf v o.m) r e = true → r * s.hart.v.vl + e < row * s.hart.v.vl + el → ok r e = true) →
    (∀ r e, s.active (s.maskOf v o.m) r e = true → ok r e = false →
      ∃ c x l, s.locate k (s.memAddr (s.entryOf v) v r e) = (s, .error (.fault c x l))) →
    (∀ val : Nat → Nat → Nat, v = .vldx o → k = .load →
      (∀ r e, s.active (s.maskOf v o.m) r e = true → ok r e = true →
        s.readsAt .load (s.memAddr (s.entryOf v) v r e) o.w.bytes (val r e)) →
      ∃ t, exec i s = .next t ∧ s.trapsTo t 0x09 (s.memAddr (s.entryOf v) v row el) s.hart.scalar.pc ∧
        t.hart.v.vresume = 0 ∧ s.sameMemory t ∧
        s.writesOut t { VectorOut.reg o.d o.w.bits (fun r e =>
            if s.active (s.maskOf v o.m) r e && ok r e then some (val r e) else none) with
          mask := some (15, fun p => if p < s.hart.v.vrows * s.hart.v.vl then
            some (s.active (s.maskOf v o.m) (p / s.hart.v.vl) (p % s.hart.v.vl) && !ok (p / s.hart.v.vl) (p % s.hart.v.vl))
            else none) }) ∧
    (∀ (ordered : Bool) (pl : Nat → Nat → Nat × PageKind), v = .vstx ordered o → k = .store →
      (∀ r e, s.active (s.maskOf v o.m) r e = true → ok r e = true →
        s.storesAt (s.memAddr (s.entryOf v) v r e) (pl r e) ∧ s.homeMemory (pl r e).1) →
      ∃ t, exec i s = .next t ∧ s.trapsTo t 0x09 (s.memAddr (s.entryOf v) v row el) s.hart.scalar.pc ∧
        t.hart.v.vresume = 0 ∧ t.hart.sbuf = [] ∧
        t.store.mem = storedMem s.store.mem (fun p => ((pl p.1 p.2).1, natBytes o.w.bytes (s.elem o.d o.w.bits p.1 p.2)))
          ((s.accessed v o.m).filter fun p => ok p.1 p.2 &&
            (!ordered || decide (p.1 * s.hart.v.vl + p.2 < row * s.hart.v.vl + el))) ∧
        s.writesOut t { VectorOut.nothing with
          mask := some (15, fun p => if p < s.hart.v.vrows * s.hart.v.vl then
            some (s.active (s.maskOf v o.m) (p / s.hart.v.vl) (p % s.hart.v.vl) &&
              (!ok (p / s.hart.v.vl) (p % s.hart.v.vl) ||
                (ordered && decide (row * s.hart.v.vl + el < p)))) else none) })

/-- R91, R132 to R136, R138, R238, R374, R377. Vector stores, and the partial faults of vector loads and stores. -/
def Obligations.VectorStores : Prop :=
  Sys2Proof.Claims.VectorStores ∧ Sys2Proof.Claims.PartialFaults

/-- R250, R251, R253. VAMO on disjoint places performs its operation once at each element that it accesses: of scope .c or
wider outside a strip at the memory itself, of scope .h inside one in the strip store buffer; with RET the register receives
the old values. -/
def Obligations.VectorAtomics : Prop :=
  ∀ (i : Instr) (s : State) (op : AmoOp) (o : VamoOps) (pl : Nat → Nat → Nat × PageKind) (old : Nat → Nat → Nat),
    posted i = some (.vamo op o) → s.vectorReady (.vamo op o) → s.allAligned (.vamo op o) o.m (amoBytes o.dbl) →
    (∀ row el, s.accesses (.vamo op o) o.m row el = true →
      s.locate .atomic (s.memAddr (s.entryOf (.vamo op o)) (.vamo op o) row el) = (s, .ok (pl row el)) ∧
      (pl row el).2 ≠ .so ∧ s.homeMemory (pl row el).1 ∧
      ∃ bs, s.readAt .atomic (pl row el).1 (amoBytes o.dbl) (pl row el).2 s.hart.nextSeq = (s, .ok bs) ∧
        s.readAt .atomic (pl row el).1 (amoBytes o.dbl) .so s.hart.nextSeq = (s, .ok bs) ∧ old row el = leNat bs) →
    (∀ r e r' e', s.accesses (.vamo op o) o.m r e = true → s.accesses (.vamo op o) o.m r' e' = true → (r, e) ≠ (r', e') →
      paLocal (pl r e).1 + amoBytes o.dbl ≤ paLocal (pl r' e').1 ∨
        paLocal (pl r' e').1 + amoBytes o.dbl ≤ paLocal (pl r e).1) →
    (o.scope ≠ .h → s.hart.strip = none → Memory.wf s.store.mem = true →
      ∃ t, exec i s = .next t ∧
        (∀ row el, s.accesses (.vamo op o) o.m row el = true →
          readBytes t.store.mem (paLocal (pl row el).1) (amoBytes o.dbl) = natBytes (amoBytes o.dbl)
            (amoValue op (8 * amoBytes o.dbl) (old row el) (s.elem o.d (8 * amoBytes o.dbl) row el))) ∧
        (∀ a, (∀ row el, s.accesses (.vamo op o) o.m row el = true →
            a < paLocal (pl row el).1 ∨ paLocal (pl row el).1 + amoBytes o.dbl ≤ a) →
          memRead t.store.mem a = memRead s.store.mem a) ∧
        t.store.host = s.store.host ∧ t.store.peers = s.store.peers ∧
        s.delivers { t with store := s.store }
          (if o.ret then VectorOut.reg o.d (8 * amoBytes o.dbl)
            (fun row el => if s.accesses (.vamo op o) o.m row el then some (old row el) else none) else .nothing)) ∧
    (o.scope = .h → s.hart.strip ≠ none →
      bufferedBytes s.hart.sbuf + amoBytes o.dbl * (s.accessed (.vamo op o) o.m).length ≤ 65536 →
      ∃ t, exec i s = .next t ∧
        t.hart.sbuf = (s.accessed (.vamo op o) o.m).foldl (fun b p => insertStore ⟨(pl p.1 p.2).1,
          natBytes (amoBytes o.dbl) (amoValue op (8 * amoBytes o.dbl) (old p.1 p.2)
            (s.elem o.d (8 * amoBytes o.dbl) p.1 p.2)), (pl p.1 p.2).2, s.hart.nextSeq - 1, s.hart.stripId,
          s.hart.xctx.ctxid, (s.memAddr (s.entryOf (.vamo op o)) (.vamo op o) p.1 p.2).toNat⟩ b) s.hart.sbuf ∧
        s.delivers { t with hart := { t.hart with sbuf := s.hart.sbuf } }
          (if o.ret then VectorOut.reg o.d (8 * amoBytes o.dbl)
            (fun row el => if s.accesses (.vamo op o) o.m row el then some (old row el) else none) else .nothing))

/-- R133. Every vector memory instruction checks the alignment of all its active elements first: a misaligned one traps
with cause 0x06 and TVAL the address of the lowest such position, precise, with VRESUME 0, no element accessed and no
register changed. -/
def Obligations.VectorAlignment : Prop :=
  ∀ (i : Instr) (s s1 : State) (v : VInstr) (m : MReg) (n row el : Nat), posted i = some v →
    vectorMemoryForm v = some (m, n) → s.vectorReady v → s.hart.sbuf = [] → s.canTrap s1 →
    s.active (s.maskOf v m) row el = true → (s.memAddr (s.entryOf v) v row el).toNat % n ≠ 0 →
    (∀ r e, s.active (s.maskOf v m) r e = true → r * s.hart.v.vl + e < row * s.hart.v.vl + el →
      (s.memAddr (s.entryOf v) v r e).toNat % n = 0) →
    ∃ t, exec i s = .next t ∧ t.hart.trap.cause = 0x06 ∧ t.hart.trap.tval = s.memAddr (s.entryOf v) v row el ∧
      t.hart.trap.tpc = s.hart.scalar.pc ∧ t.hart.v = { s.hart.v with vresume := 0, vresumeAt := none } ∧ t.hart.scalar.pc = s.hart.trap.tvec ∧
      t.hart.scalar.level = .s ∧ t.hart.trap.inTrap = true ∧ t.hart.viq = [] ∧ s.sameX t ∧ t.hart.vrf = s.hart.vrf ∧
      t.hart.masks = s.hart.masks ∧ t.hart.sbuf = [] ∧ s.sameMemory t ∧ t.hart.ctl = s.hart.ctl

/-- R258, R260, R261, R264. STRA and STRX of a legal descriptor set their slot and end an earlier stream on the register;
STROFF ends a stream, STRPOS reads a position, and a VMV whose source is a stream register with its tile fetched ahead pops that
tile first (log entry 23: an element that no refill has fetched is read at the pop). -/
def Sys2Proof.Claims.Streams : Prop :=
  ∀ (i : Instr) (s : State) (v : VInstr), posted i = some v → s.vectorPosts v →
    (∀ (o : StraOps) (base w1 w2 count : Nat), v = .stra false o → (s.x o.desc).toNat % 8 = 0 →
      s.readsAt .load (s.x o.desc) 8 base → s.readsAt .load (s.x o.desc + 8) 8 w1 →
      s.readsAt .load (s.x o.desc + 16) 8 w2 → s.readsAt .load (s.x o.desc + 24) 8 count → w1 / 2 ^ 32 ≠ 0 →
      ∃ t, exec i s = .next t ∧ t.hart.streams[o.slot] = some
          { reg := o.d, width := o.w, indirect := false, base := BitVec.ofNat 64 base
            estride := (BitVec.ofNat 32 w1).signExtend 64, rlen := w1 / 2 ^ 32, rpitch := BitVec.ofNat 64 w2, idx := 0
            count := count, pos := min (s.x o.start).toNat count, xctx := s.hart.xctx, level := s.hart.scalar.level
            fetched := [], again := false } ∧
        (∀ k : Fin 4, k ≠ o.slot → ((s.hart.streams[k]).map fun q => q.reg) ≠ some o.d →
          t.hart.streams[k] = s.hart.streams[k]) ∧
        (∀ k : Fin 4, k ≠ o.slot → ((s.hart.streams[k]).map fun q => q.reg) = some o.d → t.hart.streams[k] = none) ∧
        s.delivers { t with hart := { t.hart with streams := s.hart.streams } } .nothing) ∧
    (∀ (o : StraOps) (base idx count : Nat), v = .stra true o → (s.x o.desc).toNat % 8 = 0 →
      s.readsAt .load (s.x o.desc) 8 base → s.readsAt .load (s.x o.desc + 8) 8 idx →
      s.readsAt .load (s.x o.desc + 16) 8 0 → s.readsAt .load (s.x o.desc + 24) 8 count → idx % 4 = 0 →
      ∃ t, exec i s = .next t ∧ t.hart.streams[o.slot] = some
          { reg := o.d, width := o.w, indirect := true, base := BitVec.ofNat 64 base, estride := 0, rlen := 1, rpitch := 0
            idx := BitVec.ofNat 64 idx, count := count, pos := min (s.x o.start).toNat count, xctx := s.hart.xctx
            level := s.hart.scalar.level, fetched := [], again := false } ∧
        (∀ k : Fin 4, k ≠ o.slot → ((s.hart.streams[k]).map fun q => q.reg) ≠ some o.d →
          t.hart.streams[k] = s.hart.streams[k]) ∧
        (∀ k : Fin 4, k ≠ o.slot → ((s.hart.streams[k]).map fun q => q.reg) = some o.d → t.hart.streams[k] = none) ∧
        s.delivers { t with hart := { t.hart with streams := s.hart.streams } } .nothing) ∧
    (∀ o : StroffOps, v = .stroff o →
      ∃ t, exec i s = .next t ∧ t.hart.streams = s.hart.streams.set o.slot none ∧
        s.delivers { t with hart := { t.hart with streams := s.hart.streams } } .nothing) ∧
    (∀ o : StrposOps, v = .strpos o →
      ∃ t, exec i s = .next t ∧ s.delivers t (VectorOut.toX o.d
        (match s.hart.streams[o.slot] with
        | some q => BitVec.ofNat 64 q.pos
        | none => BitVec.allOnes 64))) ∧
    (∀ (o : VmvOps) (k : Fin 4) (q : StreamSlot) (val : List Word), v = .vmv o → s.unchecked v → s.hart.streamOn o.a = some k →
      s.hart.streams[k] = some q → q.width = o.w → 0 < s.hart.v.vl → q.fetched = val.map StreamElem.value →
      s.hart.v.vrows * s.hart.v.vl ≤ val.length → q.pos + s.hart.v.vrows * s.hart.v.vl ≤ q.count →
      ∃ t, exec i s = .next t ∧ t.hart.streams = s.hart.streams.set k (some { q with
          pos := q.pos + s.hart.v.vrows * s.hart.v.vl, fetched := q.fetched.drop (s.hart.v.vrows * s.hart.v.vl)
          again := false }) ∧
        s.delivers { t with hart := { t.hart with streams := s.hart.streams } }
          { VectorOut.nothing with
            regs := [(o.a, o.w.bits, fun row el => if row < s.hart.v.vrows ∧ el < s.hart.v.vl then
                (val[row * s.hart.v.vl + el]?).map fun x => x.toNat else none),
              (o.d, o.w.bits, fun row el => if s.executes o.m row el then
                (val[row * s.hart.v.vl + el]?).map fun x => x.toNat else none)] })

/-- R242, R262. An instruction that pops a tile of a stream in which an element fetched ahead failed traps with cause 0x0A before
any of its groups: TVAL is the kind and the address of the lowest failing element, POS stays at the tile, what was fetched is
dropped, and no register, mask or byte of memory changes. -/
def Sys2Proof.Claims.StreamFaults : Prop :=
  ∀ (i : Instr) (s s1 : State) (v : VInstr) (reg : VReg) (slot : Fin 4) (q : StreamSlot) (j : Nat) (kind : BitVec 4) (a : Word)
    (x : Option Nat), posted i = some v → s.vectorPosts v → s.hart.sbuf = [] → s.canTrap s1 → 0 < s.hart.v.vl →
    reg ∈ vreads v → s.hart.streamOn reg = some slot → s.hart.streams[slot] = some q →
    (∀ r ∈ vreads v, r ≠ reg → s.hart.streamOn r = none) → s.hart.v.vrows * s.hart.v.vl ≤ q.fetched.length →
    j < s.hart.v.vrows * s.hart.v.vl → q.pos + s.hart.v.vrows * s.hart.v.vl ≤ q.count →
    q.fetched[j]? = some (.fail kind a x) → (∀ n, n < j → ∃ w, q.fetched[n]? = some (.value w)) →
    ∃ t, exec i s = .next t ∧
      s.trapsTo t 0x0A (BitVec.ofNat 64 (kind.toNat * 2 ^ 60 + a.toNat % 2 ^ 57)) s.hart.scalar.pc ∧
      t.hart.streams = s.hart.streams.set slot (some { q with fetched := [], again := true }) ∧
      t.hart.trap.xlinfo = (x.map fun n => BitVec.ofNat 12 n).getD s.hart.trap.xlinfo ∧
      t.hart.vrf = s.hart.vrf ∧ t.hart.masks = s.hart.masks ∧ t.hart.v.fflags = s.hart.v.fflags ∧ s.sameMemory t

/-- R166, R184, R185. WBLD of an image of at most 64 KiB at aligned bases fills its slot with the shape, the present
positions, the values and the scales, and changes nothing else. -/
def Sys2Proof.Claims.WeightLoad : Prop :=
  ∀ (o : WbldOps) (s : State) (img : Word × Nat → List Byte) (c : Nat), (Instr.wbld o).wellFormed = true →
    s.vectorReady (.wbld o) → (s.x o.values).toNat % 64 = 0 → (s.x o.scales).toNat % 64 = 0 →
    c = (List.range (s.hart.v.mshape.k * s.hart.v.mshape.n)).countP (fun p => mget s.hart.masks o.m p) →
    let sizes := imageSizes o.fmt.val s.hart.v.mshape.k s.hart.v.mshape.n c
    let blocks := imageBlocks (s.x o.values) sizes.1 ++ imageBlocks (s.x o.scales) sizes.2
    sizes.1 + sizes.2 ≤ 65536 → (∀ b ∈ blocks, (img b).length = b.2 ∧ s.readsBytes b.1 b.2 (img b)) →
    ∃ t, exec (.wbld o) s = .next t ∧
      (t.weightSlot o.slot).valid = true ∧ (t.weightSlot o.slot).stale = false ∧
      (t.weightSlot o.slot).fmt = o.fmt.val ∧ (t.weightSlot o.slot).k = s.hart.v.mshape.k ∧
      (t.weightSlot o.slot).n = s.hart.v.mshape.n ∧
      (∀ p, p < s.hart.v.mshape.k * s.hart.v.mshape.n → slotPresent (t.weightSlot o.slot) p = mget s.hart.masks o.m p) ∧
      (t.weightSlot o.slot).values = ((blocks.map img).flatten).take sizes.1 ∧
      (t.weightSlot o.slot).scales = ((blocks.map img).flatten).drop sizes.1 ∧
      (∀ k, k ≠ o.slot → t.weightSlot k = s.weightSlot k) ∧
      s.delivers { t with hart := { t.hart with weights := s.hart.weights } } .nothing

/-- R166, R184, R185, R242, R258 to R264. Streams, their faults, and weight loads; an element read at its pop is log entry 23. -/
def Obligations.StreamsAndWeights : Prop :=
  Sys2Proof.Claims.Streams ∧ Sys2Proof.Claims.StreamFaults ∧ Sys2Proof.Claims.WeightLoad

/-- R296 to R298. XOPEN opens the roles it names in a live round, XCLOSE closes the sender, XFLOOR raises the sender's floor
or does nothing, and XSTAT reads the round; each seals the open strip. That XSTAT counts the free flits of the unicast lane, and
answers 1,024 to a hart that is no sender, is the model's choice (log entry 33). -/
def Obligations.ExchangeSteps : Prop :=
  ∀ (s : State) (r : Round), s.hart.sbuf = [] →
    (∀ (o : XopenOps) (i j : Nat), o.role ≠ 0 → s.vectorReady (.xopen o) → s.usesRound o.round r →
      (o.role.val % 2 = 1 → s.mySender r = some i ∧ (r.sender i).opened = false) →
      (2 ≤ o.role.val →
        s.myReceiver r = some j ∧ (r.receiver j).opened = false ∧ (s.x o.spill).toNat < 2 ^ 57) →
      ∃ t, exec (.xopen o) s = .next t ∧
        t.rounds = s.roundsWith (r.afterOpen (o.role.val % 2 == 1) (decide (2 ≤ o.role.val)) i j (s.x o.spill)
          s.hart.ident.serial) ∧
        s.sealedStrip.delivers { t with rounds := s.rounds } .nothing) ∧
    (∀ (a : XReg) (i : Nat), s.vectorReady (.xclose a) → s.usesRound a r → s.mySender r = some i →
      (r.sender i).opened = true → (r.sender i).closed = false → r.markRoom i = true →
      ∃ t q, exec (.xclose a) s = .next t ∧ t.rounds = s.roundsWith q ∧
        q.senders = r.senders.zipIdx.map (fun p => if p.2 = i then { p.1 with closed := true } else p.1) ∧
        q.receivers = r.receivers ∧ q.desc = r.desc ∧
        q.state = (if q.senders.all (fun k => k.closed) then .draining else r.state) ∧
        q.points = (r.arrive (r.injector i).1 (r.injector i).2 .close).points ∧
        s.sealedStrip.delivers { t with rounds := s.rounds } .nothing) ∧
    (∀ (o : XfloorOps) (i : Nat), s.vectorReady (.xfloor o) → s.usesRound o.round r → s.mySender r = some i →
      (r.sender i).opened = true → (r.sender i).closed = false → r.markRoom i = true →
      ∃ t, exec (.xfloor o) s = .next t ∧ s.sealedStrip.delivers { t with rounds := s.rounds } .nothing ∧
        ((s.x o.floor).toNat % 2 ^ 32 < (r.sender i).kept.getD 0 → t.rounds = s.rounds) ∧
        ((r.sender i).kept.getD 0 ≤ (s.x o.floor).toNat % 2 ^ 32 →
          ∃ q, t.rounds = s.roundsWith q ∧ q.receivers = r.receivers ∧ q.desc = r.desc ∧ q.state = r.state ∧
            q.senders = r.senders.zipIdx.map (fun p =>
              if p.2 = i then { p.1 with kept := some ((s.x o.floor).toNat % 2 ^ 32) } else p.1) ∧
            q.points = (r.arrive (r.injector i).1 (r.injector i).2
              (.floor ((s.x o.floor).toNat % 2 ^ 32) (XSender.last (r.sender i) i))).points)) ∧
    (∀ o : XstatOps, s.vectorReady (.xstat o) → (s.x o.round).toNat < 65536 →
      (s.round s.hart.xctx.ctxid ((s.x o.round).setWidth 16) = some r →
        ∃ t, exec (.xstat o) s = .next t ∧ s.sealedStrip.delivers t (VectorOut.toX o.d (BitVec.ofNat 64
          (RoundState.code r.state * 2 ^ 61 +
            (match s.mySender r with
            | some i => r.freeFlits i
            | none => laneRoom) * 2 ^ 32 +
            (match s.myReceiver r with
            | some j => (r.receiver j).popped
            | none => 0) % 2 ^ 32)))) ∧
      (s.round s.hart.xctx.ctxid ((s.x o.round).setWidth 16) = none →
        ∃ t, exec (.xstat o) s = .next t ∧ s.sealedStrip.delivers t (VectorOut.toX o.d
          (match s.completion s.hart.xctx.ctxid ((s.x o.round).setWidth 16) with
          | some c => if c.reachedDone then BitVec.ofNat 64 (4 * 2 ^ 61) else 0
          | none => 0))))

/-- R277, R279, R295, R299. XROUND of a valid descriptor and legal tables arms the round, with nothing opened, sent or
received; XSPLIT stores the proposal of a finished sampling round and returns its sample count. -/
def Obligations.ExchangeRounds : Prop :=
  ∀ s : State, s.hart.sbuf = [] →
    (∀ (a : XReg) (ws sends recvs splits groups : List Nat) (d : DescWords), s.vectorReady (.xround a) →
      (s.x a).toNat % 64 = 0 → ws = [d.w0, d.w1, d.sendList, d.recvList, d.splits, d.groups, d.endgate, d.reserved] →
      s.readsTable (s.x a) 8 ws → d.valid = true → d.misaligned = none → sends.length = d.nsend → recvs.length = d.nrecv →
      splits.length = d.nrecv - 1 → groups.length = d.ngrp → s.readsTable (BitVec.ofNat 64 d.sendList) 4 sends →
      s.readsTable (BitVec.ofNat 64 d.recvList) 4 recvs → s.readsTable (BitVec.ofNat 64 d.splits) 4 splits →
      s.readsTable (BitVec.ofNat 64 d.groups) 8 groups → rising sends = true → rising recvs = true →
      notFalling splits = true → (∀ g ∈ groups, (groupEntry d.nrecv g).isSome = true) →
      (∀ n ∈ sends ++ recvs, s.partyPresent s.hart.xctx.ctxid n = true) →
      (∀ r, s.round s.hart.xctx.ctxid (BitVec.ofNat 16 d.w0) = some r → r.state = .aborted) →
      (s.rounds.filter fun r => r.ctx == s.hart.xctx.ctxid && r.id != BitVec.ofNat 16 d.w0).length < 8 →
      ∃ t r, exec (.xround a) s = .next t ∧ r.ctx = s.hart.xctx.ctxid ∧ r.id = BitVec.ofNat 16 d.w0 ∧ r.state = .armed ∧
        r.senders = sends.map (fun n => ⟨n, false, false, 0, none, none⟩) ∧
        r.receivers = recvs.map (fun n => ⟨n, false, 0, [], false, [], false, 0, false, none⟩) ∧
        r.desc = d.desc splits (groups.filterMap (groupEntry d.nrecv)) ∧ r.samples = [] ∧
        t.rounds = (s.rounds.filter fun q => !(q.ctx == r.ctx && q.id == r.id)) ++ [r] ∧
        t.completions = s.completions.filter (fun c => !(c.ctx == r.ctx && c.id == r.id)) ∧
        s.sealedStrip.delivers { t with rounds := s.rounds, completions := s.completions } .nothing) ∧
    (∀ (o : XsplitOps) (c : Completion) (splits : Nat) (pl : Nat → Nat × PageKind), s.vectorReady (.xsplit o) →
      (s.x o.round).toNat < 65536 →
      (∀ r, s.round s.hart.xctx.ctxid ((s.x o.round).setWidth 16) = some r → r.state = .aborted) →
      s.completion s.hart.xctx.ctxid ((s.x o.round).setWidth 16) = some c → c.reachedDone = true → c.sampling = true →
      c.samples ≠ 0 → (s.x o.desc).toNat % 64 = 0 → s.readsAt .load (s.x o.desc + 0x0C) 4 c.nrecv →
      s.readsAt .load (s.x o.desc + 0x20) 8 splits → splits % 4 = 0 →
      (∀ k, k < c.proposal.length →
        s.storesAt (BitVec.ofNat 64 (splits + 4 * k)) (pl k) ∧ s.homeMemory (pl k).1) →
      ∃ t, exec (.xsplit o) s = .next t ∧ s.store.sameButMem t.store ∧
        t.store.mem = storedMem s.store.mem (fun p => ((pl p.2).1, natBytes 4 p.1)) c.proposal.zipIdx ∧
        s.sealedStrip.delivers { t with store := s.store } (VectorOut.toX o.d (BitVec.ofNat 64 c.samples)))

/-- R288, R289, R300 to R302. XSEND and XSEND.MC with room for their records send one record for every active element in
order, each with the next sequence number, and report a diverted record in XSTATUS; XRECV takes the records at hand up to
VL, and at END answers bit 63. -/
def Obligations.ExchangeRecords : Prop :=
  ∀ (s : State) (r : Round), s.hart.sbuf = [] →
    (∀ (i : Instr) (mc : Option (Fin 256)) (o : XsendOps) (n : Nat) (q : Round) (out : Bool),
      posted i = some (.xsend mc o) → s.vectorReady (.xsend mc o) → s.usesRound o.round r →
      s.mySender r = some n → (r.sender n).opened = true → (r.sender n).closed = false →
      (match o.pay with
      | some _ => 0 < r.desc.pwidth ∧ r.desc.pwidth ≤ s.hart.v.vrows
      | none => r.desc.pwidth = 0) →
      (∀ g, mc = some g → g.val < r.desc.groups.length) →
      (r.sender n).sent + ((List.range s.hart.v.vl).filter (mget s.hart.masks o.m)).length ≤ 2 ^ 32 →
      sendAll s.hart.vrf n mc o ((List.range s.hart.v.vl).filter (mget s.hart.masks o.m)) r false = (q, [], out) →
      ∃ t, exec i s = .next t ∧ t.rounds = s.roundsWith q ∧
        (n < r.senders.length →
          (q.sender n).sent = (r.sender n).sent + ((List.range s.hart.v.vl).filter (mget s.hart.masks o.m)).length) ∧
        (out = false → t.hart.ctl = s.hart.ctl) ∧
        (out = true → t.hart.ctl = { s.hart.ctl with xstatus := BitVec.ofNat 64 (r.id.toNat * 2 ^ 48) |||
          (s.hart.ctl.xstatus &&& 0xFFFFFFFFFFFF) ||| 2 }) ∧
        s.sealedStrip.delivers { t with rounds := s.rounds, hart := { t.hart with ctl := s.hart.ctl } } .nothing) ∧
    (∀ (o : XrecvOps) (j : Nat), (Instr.xrecv o).wellFormed = true → s.vectorReady (.xrecv o) → s.usesRound o.round r →
      s.myReceiver r = some j → (r.receiver j).opened = true → (r.receiver j).ended = false →
      (r.stream (r.receiver j) = [] → r.atEnd (r.receiver j) = false → o.nb = true →
        ∃ t, exec (.xrecv o) s = .next t ∧ s.sealedStrip.delivers t (VectorOut.toX o.cnt 0)) ∧
      (∀ got : List XRecord, got = takeFitting s.hart.v.vrows o.pay.isSome s.hart.v.vl (r.stream (r.receiver j)) →
        got ≠ [] →
        ∃ t, exec (.xrecv o) s = .next t ∧
          t.rounds = s.roundsWith { r with receivers := r.receivers.zipIdx.map (fun p =>
            if p.2 = j then XReceiver.pop p.1 got.length else p.1) } ∧
          s.sealedStrip.delivers { t with rounds := s.rounds, hart := { t.hart with ctl := s.hart.ctl } }
            { VectorOut.nothing with
              regs := ([o.d, oddMember o.d] ++ o.pay.toList).map fun reg =>
                (reg, 32, fun row el => (got[el]?).bind fun x => recvElem o x reg row)
              scalar := some (o.cnt, BitVec.ofNat 64 got.length) }) ∧
      (r.atEnd (r.receiver j) = true → r.desc.endgate = none →
        ∃ t, exec (.xrecv o) s = .next t ∧
          (o.cnt ≠ 0 → t.x o.cnt = BitVec.ofNat 64 (2 ^ 63)) ∧ t.hart.scalar.pc = s.hart.nextPc ∧
          t.hart.vrf = s.hart.vrf ∧
          ((∃ k, k ≠ j ∧ k < r.receivers.length ∧ (r.receiver k).ended = false) →
            t.rounds = s.roundsWith { r with receivers := r.receivers.zipIdx.map (fun p =>
              if p.2 = j then { p.1 with ended := true } else p.1) }) ∧
          ((∀ k, k ≠ j → k < r.receivers.length → (r.receiver k).ended = true) →
            t.round r.ctx r.id = none ∧ ∃ c, t.completion r.ctx r.id = some c ∧ c.reachedDone = true)))

/-- R265, R267, R268, R271. CPY and CPY.SH with fewer than eight copies outstanding start a copy and clear the bits of its
chunks; CMWAIT completes once its chunks have their bits, CMTEST reads them, and CMCLR sets the bits of chunks no copy uses. -/
def Obligations.Copies : Prop :=
  ∀ s : State, takeFailure s.hart.copies = none →
    (∀ (i : Instr) (sh : Bool) (o : CpyOps) (c : Copy), posted i = some (.cpy sh o) → s.vectorReady (.cpy sh o) →
      s.hart.sbuf = [] → s.hart.copies.length < 8 → c = copyOf (s.entryOf (.cpy sh o)) sh o →
      (c.rows * c.rowBytes ≠ 0 →
        ∃ t, exec i s = .next t ∧ t.hart.copies = s.hart.copies ++ [⟨c, s.hart.xctx, s.hart.scalar.level⟩] ∧
          (t.hart.chunks[o.map]).released = (s.hart.chunks[o.map]).released &&& ~~~c.cover ∧
          (t.hart.chunks[o.map]).landed = (s.hart.chunks[o.map]).landed &&& ~~~c.cover ∧
          (t.hart.chunks[o.map]).busy = (s.hart.chunks[o.map]).busy ||| c.cover ∧
          (∀ n, n < 64 → assocGet (t.hart.chunks[o.map]).scopes n =
            if c.c0 ≤ n ∧ n < c.c0 + c.chunks then some o.scope else assocGet (s.hart.chunks[o.map]).scopes n) ∧
          (t.hart.chunks[o.map]).sh =
            (if sh then (s.hart.chunks[o.map]).sh ||| c.cover else (s.hart.chunks[o.map]).sh &&& ~~~c.cover) ∧
          (∀ k, k ≠ o.map → t.hart.chunks[k] = s.hart.chunks[k]) ∧
          s.sealedStrip.delivers { t with hart := { t.hart with
            chunks := s.hart.chunks, copies := s.hart.copies, shChunks := s.hart.shChunks } } .nothing) ∧
      (c.rows * c.rowBytes = 0 → c.gate = none →
        ∃ t, exec i s = .next t ∧ s.sealedStrip.delivers t .nothing)) ∧
    (∀ o : CmwaitOps, s.vectorReady (.cmwait o) →
      s.x o.mask &&& ~~~(if o.plane then (s.hart.chunks[o.map]).released else (s.hart.chunks[o.map]).landed) = 0 →
      ∃ t, exec (.cmwait o) s = .next t ∧ s.sameMemory t ∧ s.delivers { t with store := s.store } .nothing) ∧
    (∀ o : CmtestOps, s.vectorReady (.cmtest o) →
      ∃ t, exec (.cmtest o) s = .next t ∧ s.sameMemory t ∧ s.delivers { t with store := s.store } (VectorOut.toX o.d
        (s.x o.mask &&& (if o.plane then (s.hart.chunks[o.map]).released else (s.hart.chunks[o.map]).landed)))) ∧
    (∀ o : CmclrOps, s.vectorReady (.cmclr o) → s.x o.mask &&& (s.hart.chunks[o.map]).busy = 0 →
      ∃ t, exec (.cmclr o) s = .next t ∧
        t.hart.chunks[o.map] = { s.hart.chunks[o.map] with
          released := (s.hart.chunks[o.map]).released ||| s.x o.mask, landed := (s.hart.chunks[o.map]).landed ||| s.x o.mask
          sh := (s.hart.chunks[o.map]).sh &&& ~~~s.x o.mask } ∧
        (∀ k, k ≠ o.map → t.hart.chunks[k] = s.hart.chunks[k]) ∧
        s.delivers { t with hart := { t.hart with chunks := s.hart.chunks, shChunks := s.hart.shChunks } } .nothing)

/-! ### Events -/

/-- R206, R255, R274, R323, R324, R365, R389. A wake or a time-out ends the wait of a WAITM, a GWAIT, a GARW or a QPUSH,
so that the hart looks again. A hart in a QPOP looks at its queue at each of its turns (log entries 4 and 25): its
wake changes nothing of any hart, and the QPOP executed next takes the entry that is there, or waits on from the same
start. The priority time-out marks the waiting recheck; the time-out of a removed hart stops it with its stores
discarded; a debug halt, step or release in INVASIVE sets its marks, registers are read and written there, and OBSERVE
reads CSRs; without debug nothing happens. No other hart and nothing else of the package changes. -/
def Sys2Proof.Claims.HartEvents : Prop :=
  ∀ (s : State) (h : HartId) (k : Hart), s.holds h k →
    (∀ a, k.marks.wait = .waitm a → ∀ i ∈ [Instr.waitmWake h, .waitmTimeout h],
      ∃ t, exec i s = .next t ∧ s.onlyHart t h { k with marks := { k.marks with wait := .none } }) ∧
    (∀ g, k.marks.wait = .gate g →
      ∃ t, exec (.gwaitWake h) s = .next t ∧ s.onlyHart t h { k with marks := { k.marks with wait := .none } }) ∧
    (∀ q, k.marks.wait = .qpush q →
      ∃ t, exec (.qpushWake h) s = .next t ∧ s.onlyHart t h { k with marks := { k.marks with wait := .none } }) ∧
    (∃ t, exec (.qpopWake h) s = .next t ∧ s.onlyHart t h k ∧
      ∀ (o : QpopOps) (since : Nat), s.isAt h → k.marks.wait = .qpop o.q since false → s.isReady 2 →
        s.queueReason o.q false = none → s.badQueue s.hart.core o.q = false →
        ((s.queue s.hart.core o.q.val).entries ≠ [] →
          ∃ u, exec (.qpop o) t = .next u ∧ u.hart.scalar.pc = s.hart.nextPc ∧ u.hart.marks.wait = .none) ∧
        (s.popFrom o.q = none → s.feedEnded = false →
          ∃ u, exec (.qpop o) t = .next u ∧ u.hart.scalar.pc = s.hart.scalar.pc ∧
            u.hart.marks.wait = .qpop o.q since false)) ∧
    (∀ q rest, k.viq = q :: rest → q.e.complete = true → q.r.phase = .held → k.marks.removed = false →
      ∃ t, exec (.recheckPriorityTimeout h) s = .next t ∧
        s.onlyHart t h { k with viq := { q with r := { q.r with waited := true } } :: rest }) ∧
    (k.marks.removed = true → s.power.endgame = false → k.quiet →
      ∃ t, exec (.removalHartTimeout h) s = .next t ∧ s.onlyHart t h { k with
        sbuf := [], strip := none, viq := [], hist := [], marks := { k.marks with stopped := true, wait := .none } }) ∧
    (s.debugInForce = .invasive →
      (∃ t, exec (.debugHalt h .halt) s = .next t ∧
        s.onlyHart t h { k with marks := { k.marks with debugHalted := true } }) ∧
      (∃ t, exec (.debugHalt h .release) s = .next t ∧
        s.onlyHart t h { k with marks := { k.marks with debugHalted := false, debugStep := false } }) ∧
      (k.marks.debugHalted = true → ∃ t, exec (.debugHalt h .step) s = .next t ∧
        s.onlyHart t h { k with marks := { k.marks with debugStep := true } }) ∧
      (∀ r, ∃ t, exec (.debugHalt h (.readScalar r)) s = .next t ∧
        t.lastAnswer = some (.data (natBytes 8 (k.readX r).toNat) false) ∧
        s.onlyHart { t with lastAnswer := s.lastAnswer } h k) ∧
      (∀ r v, ∃ t, exec (.debugHalt h (.writeScalar r v)) s = .next t ∧
        s.onlyHart { t with lastAnswer := s.lastAnswer } h (k.writeX r v))) ∧
    (s.debugInForce ≠ .none → ∀ n, ∃ t, exec (.debugHalt h (.readCsr n)) s = .next t ∧
      t.lastAnswer = some (.data (natBytes 8 ((s.focus h).csrNat n.val)) false) ∧
      s.onlyHart { t with lastAnswer := s.lastAnswer } h k) ∧
    (s.debugInForce = .none → ∀ a, ∃ t, exec (.debugHalt h a) s = .next t ∧ t = s)

/-- R24, R238, R240, R353, R383. A seal and an auto-close at its time close the open strip, for good; with nothing posted
the buffer is empty then. A commit completes when the entries of its strip have retired, and the stores that are due leave the
buffer. A TLB invalidation commits the strip and drops the matching entries. -/
def Sys2Proof.Claims.StripEvents : Prop :=
  ∀ (s : State) (h : HartId), s.isAt h → s.hart.orderly →
    (∃ t, exec .stripctlSeal s = .next t ∧ t.hart.strip = none ∧ (∀ k ∈ t.hart.closing, k.sealed = true) ∧
      (s.hart.viq = [] → t.hart.sbuf = [] ∧ t.hart.closing = []) ∧ s.sameX t ∧
      t.hart.scalar.pc = s.hart.scalar.pc) ∧
    (∀ st, s.hart.strip = some st → st.since + 65536 ≤ s.cycle →
      ∃ t, exec (.stripAutoClose h) s = .next t ∧ t.hart.strip = none ∧ (∀ k ∈ t.hart.closing, k.sealed = true) ∧
        (s.hart.viq = [] → t.hart.sbuf = [] ∧ t.hart.closing = []) ∧ s.sameX t) ∧
    (∃ t, exec (.stripCommitComplete h) s = .next t ∧ t.hart.strip = s.hart.strip ∧
      t.hart.closing = s.hart.closing.filter (fun k => decide (s.hart.oldest ≤ k.closedAt)) ∧
      (∀ e, e ∈ t.hart.sbuf ↔ e ∈ s.hart.sbuf ∧ t.hart.visible e = false) ∧ s.sameX t) ∧
    (s.hart.viq = [] →
      (s.tlbHeld (some h) 0 0 0 = false →
        ∃ t, exec .tlbinvAll s = .next t ∧ t.tlb = [] ∧ t.hart.strip = none ∧ t.hart.sbuf = [] ∧ s.sameX t) ∧
      (∀ ctx, s.tlbHeld (some h) 1 ctx 0 = false →
        ∃ t, exec (.tlbinvContext ctx) s = .next t ∧ (∀ e ∈ t.tlb, e.ctx ≠ ctx) ∧
          (s.hart.sbuf = [] → t.tlb = s.tlb.filter fun e => !(e.ctx == ctx)) ∧ t.hart.strip = none ∧ s.sameX t) ∧
      (∀ (ctx : BitVec 16) (vpn : BitVec 41), s.tlbHeld (some h) 2 ctx vpn.toNat = false →
        ∃ t, exec (.tlbinvPage ctx vpn) s = .next t ∧
          (∀ e ∈ t.tlb, e.ctx = ctx →
            (e.block = false → e.vpage ≠ vpn.toNat) ∧ (e.block = true → e.vpage ≠ vpn.toNat / 8192)) ∧
          (s.hart.sbuf = [] → ∀ e ∈ s.tlb, e.ctx ≠ ctx → e ∈ t.tlb) ∧ t.hart.strip = none ∧ s.sameX t))

/-- R24, R206, R255, R274, R323, R324, R353, R365, R383, R389. Events of a hart and of its strip (log entries 4 and 25 for the wake of a QPOP). -/
def Obligations.HartEvents : Prop :=
  Sys2Proof.Claims.HartEvents ∧ Sys2Proof.Claims.StripEvents

/-- R8, R20, R160, R178, R202 to R205, R207, R208. One element group of the oldest entry is computed; a complete entry
retires and delivers; the grid and the merge unit serve the first ready hart in rotation and remember it; runs that agree
confirm an entry; a minority counts a verdict against the lane group of the lowest element that differs, and one of the primary
is replaced by what the others delivered; the first no-majority of an instruction in a strip rewinds it. -/
def Obligations.VectorUnitEvents : Prop :=
  ∀ (s : State) (h : HartId) (q : VSlot) (rest : List VSlot), s.isAt h → s.hart.viq = q :: rest →
    s.hart.marks.removed = false → s.hart.marks.saving = false → (∀ p more, rest = p :: more → p.e.complete = false) →
    (∀ (op : ViaOp) (o : ViaOps), q.e.instr = .via op o → q.e.begun = true → q.e.complete = false →
      q.e.done < s.entryGroups q.e → q.e.vl ≤ 2 ^ 20 → q.e.vrows ≤ 2 ^ 20 → Memory.wf s.hart.vrf = true →
      ∃ t p, exec (.vectorGroupComplete h) s = .next t ∧ t.hart.viq = p :: rest ∧ p.e.done = q.e.done + 1 ∧
        (p.e.complete = true ↔ s.entryGroups q.e ≤ q.e.done + 1) ∧ s.sameX t ∧
        (∀ row el, (row, el) ∈ q.e.groupElems s.lw q.e.done →
          mget s.sources.2 (q.e.mask o.m) (row * q.e.vl + el) = true →
          vget t.hart.vrf o.d.val o.w.bits row el =
            viaValue op o.w.bits (vget s.sources.1 o.a.val o.w.bits row el) (vxGet s.sources.1 q.e o.b o.w.bits row el) %
              2 ^ o.w.bits) ∧
        (∀ row el, row < 2 ^ 20 → el < 2 ^ 20 → (row, el) ∉ q.e.groupElems s.lw q.e.done →
          vget t.hart.vrf o.d.val o.w.bits row el = vget s.hart.vrf o.d.val o.w.bits row el) ∧
        (∀ r : VReg, r ≠ o.d → regSlice t.hart.vrf r = regSlice s.hart.vrf r)) ∧
    (∀ i : Instr, q.e.complete = true → q.r.order = none →
      (i = .viqRetire h ∧ s.mayRetire q = true) ∨
        (∃ c d, i = .recheckResolution h ⟨c, d⟩ ∧ q.r.phase = .held ∧ s.runView q 1 c = s.runView q 0 ⟨[], [], none, none, none, none⟩) →
      ∃ t, exec i s = .next t ∧ t.hart.viq = rest ∧ t.hart.v.fflags = s.hart.v.fflags ||| q.r.fflags ∧
        t.hart.scalar.vret = s.hart.scalar.vret + 1 ∧ t.hart.scalar.pc = s.hart.scalar.pc ∧
        (∀ r, t.x r =
          match q.r.scalar with
          | some (d, v) => if r = d ∧ d ≠ 0 then v else s.x r
          | none => s.x r) ∧ t.others = s.others) ∧
    (∀ (c d : RunDiff) (v0 v1 v2 : RunView), q.e.complete = true → q.r.phase = .held →
      (s.core s.hart.core).verdicts = [] → v0 = s.runView q 0 ⟨[], [], none, none, none, none⟩ → v1 = s.runView q 1 c → v2 = s.runView q 2 d → v1 ≠ v0 →
      (v2 = v0 → q.r.order = none →
        ∃ t, exec (.recheckResolution h ⟨c, d⟩) s = .next t ∧ t.hart.viq = rest ∧
          (t.core s.hart.core).verdicts = [(classOf q.e, some (s.verdictGroup q 1 v1 v0), s.cycle)]) ∧
      (v2 = v1 → v1.order = none → s.hart.trap.inTrap = false → (∀ p ∈ rest, q.e.seq < p.e.seq) →
        ∃ t, exec (.recheckResolution h ⟨c, d⟩) s = .next t ∧ t.hart.viq = [] ∧ t.hart.vrf = v1.vrf ∧
          t.hart.masks = v1.masks ∧ t.hart.scalar.pc = q.e.next ∧ t.hart.v.fflags = s.hart.v.fflags ||| v1.fflags ∧
          (t.core s.hart.core).verdicts = [(classOf q.e, some (s.verdictGroup q 0 v0 v1), s.cycle)]) ∧
      (∀ st, v2 ≠ v0 → v2 ≠ v1 → s.hart.stripOf q.e.strip = some st → st.sealed = false → q.e.pc ∉ st.noMajority →
        st.rewinds < 4 → (∀ p ∈ q :: rest, st.id < p.e.seq) → (∀ e ∈ s.hart.sbuf, st.id ≤ e.after) →
        ∃ t st', exec (.recheckResolution h ⟨c, d⟩) s = .next t ∧ t.hart.viq = [] ∧ t.hart.sbuf = [] ∧
          t.hart.scalar.pc = st.resume ∧ t.hart.v.vl = st.vl ∧ t.hart.v.vrows = st.vrows ∧
          t.hart.ctl.rewinds = (if s.hart.ctl.rewinds = 0xFFFF then 0xFFFF else s.hart.ctl.rewinds + 1) ∧
          t.hart.strip = some st' ∧ st'.rewinds = st.rewinds + 1 ∧ st'.noMajority = st.noMajority ++ [q.e.pc] ∧
          (t.core s.hart.core).verdicts = [(classOf q.e, none, s.cycle)])) ∧
    (∀ (c : CoreId) (n : Nat), h.val / 4 = c.val → n < 4 → q.e.begun = true → q.e.complete = false →
      q.r.phase = .off → s.effectiveMode = 0 → s.hart.trap.ordTrap = false →
      (∀ (df : Dataflow) (o : MmaOps), q.e.instr = .mma df o → (MmaOps.kind o).isSome = true →
        (o.bsrc = true → (s.weightSlot o.wslot).stale = false) → (df = .rw → s.mergeFirst c.val = some h) →
        h.val % 4 = ((s.core c.val).gridLast.val + 1 + n) % 4 →
        (∀ m, m < n →
          s.readyFor usesGrid (Fin.ofNat 1024 (4 * c.val + ((s.core c.val).gridLast.val + 1 + m) % 4)) = false) →
        ∃ t, exec (.gridGrant c) s = .next t ∧ t.hart.viq = rest ∧ (t.core c.val).gridLast.val = h.val % 4) ∧
      (∀ o : VsortOps, q.e.instr = .vsort o → h.val % 4 = ((s.core c.val).mergeLast.val + 1 + n) % 4 →
        (∀ m, m < n →
          s.readyFor usesMerge (Fin.ofNat 1024 (4 * c.val + ((s.core c.val).mergeLast.val + 1 + m) % 4)) = false) →
        ∃ t, exec (.mergeUnitGrant c) s = .next t ∧ t.hart.viq = rest ∧ (t.core c.val).mergeLast.val = h.val % 4))

/-- R18, R197, R210, R212, R213, R215. A group marked on a core without harts leaves its LANEMAP at once, or the core goes
offline when fewer than 3 groups would be left (in the step of the marking: log entry 27); no other core changes. A
signed test kernel becomes a hart of context 0xFFFF at U, placed or waiting for a slot (its launch number and the
entry as its pc: log entry 40); its verdict ends the test, and one that passes for class mxf64 lifts the class's
fence. -/
def Obligations.CoreEvents : Prop :=
  ∀ (s : State) (c : CoreId),
    (∀ (g : Fin 8) (left : BitVec 8), (∀ k ∈ s.placed, k.core ≠ c.val) → (s.core c.val).lanemap.getLsbD g.val = true →
      left = (s.core c.val).lanemap &&& ~~~(s.core c.val).marked &&& ~~~(BitVec.ofNat 8 (2 ^ g.val)) →
      ∃ t, exec (.laneGroupRetirement c g) s = .next t ∧ (∀ d, d ≠ c.val → t.core d = s.core d) ∧
        (3 ≤ countOnes 8 left.toNat →
          (t.core c.val).lanemap = (s.core c.val).lanemap &&& ~~~((s.core c.val).marked ||| BitVec.ofNat 8 (2 ^ g.val)) ∧
          (t.core c.val).marked = 0 ∧ { t with cores := s.cores } = s) ∧
        (countOnes 8 left.toNat < 3 →
          (t.core c.val).cap = 0 ∧ { t with cores := s.cores, savedTests := s.savedTests } = s)) ∧
    (∀ (cls : Fin 23) (g : Fin 8) (image signature : List Byte) (entry : Word), s.placing = true →
      s.coreOnline c.val = true → (s.core c.val).lanemap.getLsbD g.val = true → (s.core c.val).testKernel = none →
      (∀ k ∈ s.savedTests, k.ident.seq ≠ testSeq c.val) →
      ∃ t, exec (.testKernelPlacement c cls g ⟨image, entry⟩ signature) s = .next t ∧
        (rsaVerify 0 (sha256 image) signature = true →
          (t.core c.val).testKernel = some (cls, g) ∧ (t.core c.val).testPending = true ∧
          ∃ k ∈ t.others ++ t.savedTests, k.marks.test = some (cls, g) ∧ k.ident.seq = testSeq c.val ∧
            k.scalar.pc = entry ∧ k.scalar.level = .u ∧ k.xctx.ctxid = 0xFFFF ∧ k.core = c.val) ∧
        (rsaVerify 0 (sha256 image) signature = false → t = s) ∧
        (∀ d, d ≠ c.val → t.core d = s.core d) ∧ s.sameMemory t ∧
        { t with cores := s.cores, savedTests := s.savedTests, hart := s.hart, others := s.others, store := s.store, tick := s.tick } = s) ∧
    (∀ (cls : Fin 23) (g : Fin 8) (output : List Byte), s.coresOn = true → (s.core c.val).testKernel = some (cls, g) →
      ∃ t, exec (.testKernelVerdict c cls g output (sha256 output)) s = .next t ∧ (t.core c.val).testKernel = none ∧
        (t.core c.val).testPending = false ∧ (∀ k ∈ t.placed ++ t.savedTests, k.core = c.val → k.marks.test = none) ∧
        (cls = 13 → (t.core c.val).testPassed = true ∧
          ((s.core c.val).fenced.getLsbD 13 = false → (t.core c.val).cap.getLsbD 13 = true)) ∧
        (cls ≠ 13 → (t.core c.val).cap = (s.core c.val).cap) ∧
        { t with cores := s.cores, savedTests := s.savedTests, hart := s.hart, others := s.others } = s)

/-- R222, R262, R267, R379, R380, R391. A copy reads its next chunk and sets RELEASED, and writes it and sets LANDED; a
stream fetches ahead at most what it is asked and moves no position, and nothing before the pop that resumes it (log
entry 23); a remote copy expires; a hart without a path receives its error; an error marks the place where it arises. -/
def Obligations.EngineEvents : Prop :=
  ∀ (s : State) (h : HartId), s.isAt h →
    (∀ (c : CopyCtx) (chunk : Fin 64) (ps : List CopyPiece), s.hart.copies = [c] → c.copy.c0 + c.copy.next = chunk.val →
      c.copy.next < c.copy.chunks → c.copy.failure = none → s.hart.marks.saving = false → s.hart.marks.removed = false →
      State.readPieces c false (c.copy.chunkPieces c.copy.next) s = (s, .ok ps) →
      ∃ t, exec (.chunkRead h c.copy.map chunk) s = .next t ∧
        t.hart.copies = [{ c with copy := { c.copy with
          next := c.copy.next + 1, inFlight := c.copy.inFlight ++ [(c.copy.next, ps)] } }] ∧
        (t.hart.chunks[c.copy.map]).released =
          (s.hart.chunks[c.copy.map]).released ||| BitVec.ofNat 64 (2 ^ chunk.val) ∧
        (t.hart.chunks[c.copy.map]).landed = (s.hart.chunks[c.copy.map]).landed ∧ { t with hart := s.hart } = s) ∧
    (∀ (c : CopyCtx) (chunk : Fin 64) (j : Nat) (ps : List CopyPiece), s.hart.copies = [c] →
      c.copy.inFlight = [(j, ps)] → c.copy.c0 + j = chunk.val →
      (∀ p ∈ ps, p.poison = false ∧ s.homeMemory p.pa) → c.copy.gate = none ∨ c.copy.next < c.copy.chunks →
      ∃ t, exec (.chunkLanded h c.copy.map chunk) s = .next t ∧
        t.hart.copies = (if c.copy.next = c.copy.chunks then [] else [{ c with copy := { c.copy with inFlight := [] } }]) ∧
        t.store.mem = storedMem s.store.mem (fun p => (p.pa, p.bytes)) ps ∧ s.store.sameButMem t.store ∧
        (t.hart.chunks[c.copy.map]).landed = (s.hart.chunks[c.copy.map]).landed ||| BitVec.ofNat 64 (2 ^ chunk.val) ∧
        (t.hart.chunks[c.copy.map]).busy = (s.hart.chunks[c.copy.map]).busy &&& ~~~(BitVec.ofNat 64 (2 ^ chunk.val)) ∧
        { t with hart := s.hart, store := s.store } = s) ∧
    (∀ (slot : Fin 4) (n : Nat) (q : StreamSlot), s.hart.streams[slot] = some q →
      ∃ t new, exec (.streamRefill h slot n) s = .next t ∧ new.length ≤ n ∧
        t.hart.streams = s.hart.streams.set slot (some { q with fetched := q.fetched ++ new }) ∧ s.sameX t ∧
        s.sameMemory t ∧ (n = 0 → t = s)) ∧
    (∀ (slot : Fin 4) (q : StreamSlot), s.hart.streams[slot] = some q → q.again = true →
      ∀ n, exec (.streamRefill h slot n) s = .next s) ∧
    (∀ (slot : Fin 4) (q : StreamSlot) (v : Nat), s.hart.streams[slot] = some q → q.again = false →
      q.fetched.length < 8 * (s.hart.v.vl * s.hart.v.vrows) → q.pos + q.fetched.length < q.count →
      s.streamElem q (s.hart.newest + 1) (q.pos + q.fetched.length) = (s, .value v) →
      ∃ t, exec (.streamRefill h slot 1) s = .next t ∧
        t.hart.streams = s.hart.streams.set slot (some { q with fetched := q.fetched ++ [.value (BitVec.ofNat 64 v)] }) ∧
        { t with hart := s.hart } = s) ∧
    (∀ unit line,
      (∃ t, exec (.remoteCopyExpiry false unit line) s = .next t ∧
        (∀ c, c ∈ t.store.far.rdc ↔ c ∈ s.store.far.rdc ∧ ¬(c.unit = unit ∧ c.line = line ∧ c.live s.cycle = false)) ∧
        t.store.far.l1 = s.store.far.l1 ∧ s.sameMemory t ∧ { t with store := s.store } = s) ∧
      (∃ t, exec (.remoteCopyExpiry true unit line) s = .next t ∧
        (∀ c, c ∈ t.store.far.l1 ↔ c ∈ s.store.far.l1 ∧ ¬(c.unit = unit ∧ c.line = line ∧ c.live s.cycle = false)) ∧
        t.store.far.rdc = s.store.far.rdc ∧ s.sameMemory t ∧ { t with store := s.store } = s)) ∧
    (∀ b, s.hart.marks.wait = .remote b → s.hart.copies = [] →
      ∃ t, exec (.remoteAccessTimeout h) s = .next t ∧
        t.hart = { s.hart with marks := { s.hart.marks with wait := .remote true } } ∧ { t with hart := s.hart } = s) ∧
    (∀ g, ∃ t, exec (.uncorrectableError (.home g)) s = .next t ∧ g ∈ t.store.poison ∧ s.sameMemory t ∧
      { t with store := s.store } = s) ∧
    (∀ g, ∃ t, exec (.uncorrectableError (.cached g)) s = .next t ∧ g ∈ t.store.transient ∧ s.sameMemory t ∧
      { t with store := s.store } = s) ∧
    (∀ (r : VReg) (w : Fin 2) (x : XReg) (m : MReg) (p : ErrorPlace),
      p ∈ [ErrorPlace.vectorRegister h r, .weightSlot h w, .scalarRegister h x, .maskRegister h m, .callStack h,
        .storeBuffer h] →
      ∃ t, exec (.uncorrectableError p) s = .next t ∧ p ∈ t.hart.marks.badRegs ∧
        (∀ b ∈ s.hart.marks.badRegs, b ∈ t.hart.marks.badRegs) ∧ s.sameX t ∧ s.sameMemory t) ∧
    (∀ (c : CoreId) (p : ErrorPlace), (∃ n, p = .queue c n) ∨ (∃ n, p = .gate c n) →
      ∃ t, exec (.uncorrectableError p) s = .next t ∧ p ∈ (t.core c.val).bad ∧ { t with cores := s.cores } = s)

/-- R284, R289, R291. A merge point whose port may emit changes only its round's points before the egress, and at an egress
without combining delivers its record; an ORDER record joins the exception stream; multicast copies move within a point. -/
def Obligations.ExchangeEvents : Prop :=
  ∀ (s : State) (r : Round), s.round r.ctx r.id = some r →
    (∀ (n q : Nat) (p : XPort) (x : XItem) (src : Option (Nat × Bool)), r.port n q = some p → r.ready n q = some (x, src) →
      (∀ m i, p.next = some (m, i) → ∃ t w, exec (.mergePointEmit r.ctx r.id n q) s = .next t ∧ t.rounds = s.roundsWith w ∧
        w.senders = r.senders ∧ w.receivers = r.receivers ∧ w.desc = r.desc ∧ w.state = r.state ∧
        w.samples = r.samples ∧ (n ≠ m → w.port n q = some (p.emit x src)) ∧
        { t with rounds := s.rounds } = s) ∧
      (∀ (y : XRecord) (k : XReceiver), p.next = none → x = .data y → r.desc.comb % 4 = 0 → r.receivers[p.lo]? = some k →
        k.flits + recFlits y ≤ 1024 →
        ∃ t w k', exec (.mergePointEmit r.ctx r.id n q) s = .next t ∧ t.rounds = s.roundsWith w ∧
          w.senders = r.senders ∧ w.receivers[p.lo]? = some k' ∧ k'.fifo = k.fifo ++ [y] ∧
          (∀ j, j ≠ p.lo → w.receivers[j]? = r.receivers[j]?) ∧ { t with rounds := s.rounds } = s)) ∧
    (∀ (j : Nat) (k : XReceiver) (x : XRecord), x.kind = 3 → r.state ≠ .aborted → r.receivers[j]? = some k →
      ∃ t w k', exec (.exceptionRecordArrival r.ctx r.id j x) s = .next t ∧ t.rounds = s.roundsWith w ∧
        w.receivers[j]? = some k' ∧ k'.fifo = k.fifo ∧
        ((k.exceptions.map recFlits).sum + recFlits x ≤ 2048 →
          x ∈ k'.exceptions ∧ (∀ y ∈ k.exceptions, y ∈ k'.exceptions) ∧ k'.exLost = k.exLost) ∧
        (∀ i, i ≠ j → w.receivers[i]? = r.receivers[i]?) ∧ w.senders = r.senders ∧ w.points = r.points ∧
        { t with rounds := s.rounds } = s) ∧
    (∀ (n i : Nat) (p : XPoint), n < r.points.length →
      ((r.point n).copyNext r.desc i = some p →
        ∃ t w, exec (.multicastIngressCopy r.ctx r.id n i) s = .next t ∧ t.rounds = s.roundsWith w ∧ w.point n = p ∧
          p.ingress.length + 1 = (r.point n).ingress.length ∧ w.receivers = r.receivers ∧ w.senders = r.senders ∧
          { t with rounds := s.rounds } = s) ∧
      ((r.point n).releaseNext i = some p →
        ∃ t w, exec (.multicastHoldRelease r.ctx r.id n i) s = .next t ∧ t.rounds = s.roundsWith w ∧ w.point n = p ∧
          p.hold.length + 1 = (r.point n).hold.length ∧ w.receivers = r.receivers ∧ w.senders = r.senders ∧
          { t with rounds := s.rounds } = s))

/-- R33 to R35, R353, R415, R419, R422. A host write that the MGMT tables permit has the effect of its register and is
answered; a reserved bit set leaves the register; nothing else changes. An invalidation by TLBINVR starts beside those under way,
each ends once no copy is writing a chunk and no buffered store was translated with an entry that it drops (log entries 39 and 59),
and TLBINVR reads 1 until all are complete. -/
def Obligations.HostRegisters : Prop :=
  ∀ s : State,
    (∀ (p : Fin 8) (v : Word), s.hostReaches (0xF000000000 + 8 * p.val) → s.sched.lpEn = true → v.toNat % 256 = 0 →
      v.toNat < 2 ^ 57 → (s.portFifo p.val).length < 16 →
      ∃ t, exec (.launchportWrite p v) s = .next t ∧ t.lastAnswer = some .ok ∧
        t.sched = { s.sched with
          fifo := s.sched.fifo ++ [⟨v, s.sched.lpCtx, p, none, s.sched.arrivals⟩], arrivals := s.sched.arrivals + 1 } ∧
        { t with sched := s.sched, lastAnswer := s.lastAnswer } = s) ∧
    (∀ m : BitVec 8, s.hostReaches 0xF000000040 →
      ∃ t, exec (.lpstatErrClear m) s = .next t ∧ t.lastAnswer = some .ok ∧
        t.sched = { s.sched with lpErr := s.sched.lpErr &&& ~~~m } ∧
        { t with sched := s.sched, lastAnswer := s.lastAnswer } = s) ∧
    (∀ (off : Nat) (v : Word), s.hostReaches (0xF000001000 + off) →
      (off = 0x000 → v.toNat < 2 ^ 57 → v.toNat % 2 ^ 21 / 2 = 0 →
        ∃ t, exec (.registerWrite off v) s = .next t ∧ t.fdie = { s.fdie with ctxtab := v } ∧
          { t with fdie := s.fdie, lastAnswer := s.lastAnswer } = s) ∧
      (off = 0x008 → ∃ t, exec (.registerWrite off v) s = .next t ∧ t.fdie = { s.fdie with rtvec := v } ∧
        { t with fdie := s.fdie, lastAnswer := s.lastAnswer } = s) ∧
      (off = 0x020 → v.toNat < 2 ^ 57 → v.toNat % 4096 / 16 = 0 → v.toNat % 16 ≤ 8 →
        ∃ t, exec (.registerWrite off v) s = .next t ∧ t.fdie = { s.fdie with evring := v } ∧
          { t with fdie := s.fdie, lastAnswer := s.lastAnswer } = s) ∧
      (off = 0x030 → v.toNat < 2 ^ 40 → v.toNat % 2 ^ 35 = 0 →
        ∃ t, exec (.registerWrite off v) s = .next t ∧ t.fdie = { s.fdie with hwin := v } ∧
          { t with fdie := s.fdie, lastAnswer := s.lastAnswer } = s) ∧
      (off ∈ [0x000, 0x020, 0x030] → 2 ^ 57 ≤ v.toNat →
        ∃ t, exec (.registerWrite off v) s = .next t ∧ { t with lastAnswer := s.lastAnswer } = s)) ∧
    (s.hostReaches 0xF000001038 →
      (∃ t, exec .pwrctlP0 s = .next t ∧ t.power = { s.power with req := .p0, target := some .p0 } ∧
        { t with power := s.power, lastAnswer := s.lastAnswer } = s) ∧
      (s.power.state ≠ .ret →
        ∃ t, exec .pwrctlP1 s = .next t ∧ t.power = { s.power with req := .p1, target := some .p1 } ∧
          { t with power := s.power, lastAnswer := s.lastAnswer } = s) ∧
      (s.anyHart = false →
        (∃ t, exec .pwrctlRet s = .next t ∧ t.power = { s.power with req := .ret, target := some .ret } ∧
          { t with power := s.power, lastAnswer := s.lastAnswer } = s) ∧
        (∃ t, exec .pwrctlOff s = .next t ∧ t.power = { s.power with req := .off, target := some .off } ∧
          { t with power := s.power, lastAnswer := s.lastAnswer } = s)) ∧
      (s.anyHart = true → ∀ i ∈ [Instr.pwrctlRet, .pwrctlOff],
        ∃ t, exec i s = .next t ∧ t.power = { s.power with err := true } ∧
          { t with power := s.power, lastAnswer := s.lastAnswer } = s)) ∧
    (s.hostReaches 0xF000001040 →
      ∃ t, exec .pwrstatErrClear s = .next t ∧ t.power = { s.power with err := false } ∧
        { t with power := s.power, lastAnswer := s.lastAnswer } = s) ∧
    (∀ m : BitVec 2, s.hostReaches 0xF000010008 →
      ∃ t, exec (.mbstatClear m) s = .next t ∧ t.mgmt = { s.mgmt with
        done := s.mgmt.done && !m.getLsbD 0, ovr := s.mgmt.ovr && !m.getLsbD 1 } ∧
        { t with mgmt := s.mgmt, lastAnswer := s.lastAnswer } = s) ∧
    (s.hostReaches 0xF000001010 →
      (∃ t, exec .tlbinvrAll s = .next t ∧ t.tlb = [] ∧ t.fdie = { s.fdie with tlbInv := s.fdie.tlbInv ++ [(0, 0, 0)] } ∧
        { t with tlb := s.tlb, fdie := s.fdie, lastAnswer := s.lastAnswer } = s) ∧
      (∀ ctx, ∃ t, exec (.tlbinvrContext ctx) s = .next t ∧ t.tlb = s.tlb.filter (fun e => !(e.ctx == ctx)) ∧
        t.fdie = { s.fdie with tlbInv := s.fdie.tlbInv ++ [(1, ctx, 0)] } ∧
        { t with tlb := s.tlb, fdie := s.fdie, lastAnswer := s.lastAnswer } = s) ∧
      (∀ (ctx : BitVec 16) (vpn : BitVec 41), ∃ t, exec (.tlbinvrPage ctx vpn) s = .next t ∧
        (∀ e, e ∈ t.tlb ↔ e ∈ s.tlb ∧
          ¬(e.ctx = ctx ∧ e.vpage = if e.block then vpn.toNat / 8192 else vpn.toNat)) ∧
        t.fdie = { s.fdie with tlbInv := s.fdie.tlbInv ++ [(2, ctx, vpn.toNat)] } ∧
        { t with tlb := s.tlb, fdie := s.fdie, lastAnswer := s.lastAnswer } = s)) ∧
    (∃ t, exec .tlbInvalidationComplete s = .next t ∧ { t with fdie := s.fdie } = s ∧
      t.fdie = { s.fdie with tlbInv := s.fdie.tlbInv.filter fun i => s.tlbHeld none i.1 i.2.1 i.2.2 }) ∧
    leNat (s.deviceRead 0xF000001010 8) = (if s.fdie.tlbInv = [] then 0 else 1)

/-- R221, R359, R360, R413, R422. A permitted host read or write of device memory answers with the bytes, or writes them
and nothing else; one of MBCMD makes the mailbox BUSY with its command, or sets OVR while it is BUSY; a refused one
answers poisoned data, or is dropped; a permitted remote load, store or atomic acts at the home memory; a log is
cleared. -/
def Obligations.HostAccesses : Prop :=
  ∀ s : State,
    (∀ (addr : Nat) (n : Fin 65), s.hostReachesMemory .load addr n.val → s.store.transient = [] →
      ∃ t, exec (.hostMemRead addr n) s = .next t ∧
        t.lastAnswer = some (.data (readBytes s.store.mem addr n.val) (s.poisoned (s.pkg.toNat * 2 ^ 40 + addr) n.val)) ∧
        { t with lastAnswer := s.lastAnswer } = s) ∧
    (∀ (addr : Nat) (n : Fin 65) (s1 : State), s.attached = true → addr % 64 + n.val ≤ 64 → addr < 0x9000000000 →
      s.checkLocal s.hostParty .load (s.pkg.toNat * 2 ^ 40 + addr) = (s1, false) →
      ∃ t, exec (.hostMemRead addr n) s = .next t ∧ t.lastAnswer = some (.data [] true) ∧ s.sameMemory t) ∧
    (∀ (addr : Nat) (bs : List Byte), s.hostReachesMemory .store addr bs.length →
      ∃ t, exec (.hostMemWrite addr bs) s = .next t ∧ t.lastAnswer = some .ok ∧
        t.store.mem = writeBytes s.store.mem addr bs ∧ s.store.sameButMem t.store ∧
        { t with store := s.store, lastAnswer := s.lastAnswer } = s) ∧
    (∀ (addr : Nat) (bs : List Byte) (s1 : State), s.attached = true → addr % 64 + bs.length ≤ 64 →
      addr < 0x9000000000 → s.checkLocal s.hostParty .store (s.pkg.toNat * 2 ^ 40 + addr) = (s1, false) →
      ∃ t, exec (.hostMemWrite addr bs) s = .next t ∧ t.lastAnswer = some .dropped ∧ s.sameMemory t) ∧
    (∀ v : Word, s.hostReaches 0xF000010000 →
      ∃ t, exec (.hostMemWrite 0xF000010000 (natBytes 8 v.toNat)) s = .next t ∧ t.lastAnswer = some .ok ∧
        (s.mgmt.busy = false → t.mgmt = { s.mgmt with
          busy := true, command := some (v.toNat % 256, v.toNat / 65536 % 4096) }) ∧
        (s.mgmt.busy = true → t.mgmt = { s.mgmt with ovr := true }) ∧
        { t with mgmt := s.mgmt, lastAnswer := s.lastAnswer } = s) ∧
    (∀ r : RemoteReq, r.addr < 2 ^ 40 → s.serving = true → s.homeMemory (s.pkg.toNat * 2 ^ 40 + r.addr) → s.store.transient = [] →
      s.permits 9 2 (remoteKind r.op) r.addr = true →
      s.checkLocal (RemoteReq.party r) (remoteKind r.op) (s.pkg.toNat * 2 ^ 40 + r.addr) = (s, true) →
      ∃ t, exec (.remoteAccessIngress r) s = .next t ∧
        (∀ sz, r.op = .load sz →
          t.lastAnswer = some (.data (readBytes s.store.mem r.addr sz.bytes) (s.poisoned (s.pkg.toNat * 2 ^ 40 + r.addr) sz.bytes)) ∧
          { t with lastAnswer := s.lastAnswer } = s) ∧
        (∀ bs, r.op = .store bs → t.lastAnswer = some .ok ∧ t.store.mem = writeBytes s.store.mem r.addr bs ∧
          s.store.sameButMem t.store ∧ { t with store := s.store, lastAnswer := s.lastAnswer } = s) ∧
        (∀ op dbl b, r.op = .atomic op dbl b →
          t.lastAnswer = some (.data (readBytes s.store.mem r.addr (amoBytes dbl))
            (s.poisoned (s.pkg.toNat * 2 ^ 40 + r.addr) (amoBytes dbl))) ∧
          t.store.mem = writeBytes s.store.mem r.addr (natBytes (amoBytes dbl)
            (amoValue (amoOfNum op) (8 * amoBytes dbl) (readNat s.store.mem r.addr (amoBytes dbl))
              (b.toNat % 2 ^ (8 * amoBytes dbl)))) ∧
          s.store.sameButMem t.store ∧ { t with store := s.store, lastAnswer := s.lastAnswer } = s)) ∧
    (∀ g : Fin 11, ∃ t, exec (.violationLogClear g) s = .next t ∧ t.vlog g = ⟨[], 0, 0⟩ ∧
      (∀ j, j ≠ g → t.vlog j = s.vlog j) ∧ { t with vlogs := s.vlogs } = s)

/-- R306, R391, R394, R415, R416, R419, R420. Bring-up and power events set their bits and states in a package with power:
a die enters full service and the package P0 only under their conditions, RET is entered with no hart, a throttle runs
in P1, and a release returns; a link that loses every lane aborts the rounds whose traffic it carries, and a boot that
a failed signature stopped goes no further. That a port trains once a die of the package has passed, and that nothing
of the bring-up goes on after a boot failure, is log entry 45. Nothing else changes. -/
def Sys2Proof.Claims.PowerEvents : Prop :=
  ∀ s : State, s.powered →
    (∀ port : Fin 32, port.val < s.power.lanes.length →
      (∃ t, exec (.linkLaneLoss port false) s = .next t ∧
        t.power.lanes.getD port.val 0 = min 2 (s.power.lanes.getD port.val 0) ∧
        (∀ q, q ≠ port.val → t.power.lanes.getD q 0 = s.power.lanes.getD q 0) ∧ s.onlyPower t) ∧
      (∃ t, exec (.linkLaneLoss port true) s = .next t ∧ t.power.lanes.getD port.val 0 = 0 ∧
        (∀ q, q ≠ port.val → t.power.lanes.getD q 0 = s.power.lanes.getD q 0) ∧ s.sameMemory t ∧
        ((∀ r ∈ s.rounds, port.val ∉ r.links) → s.onlyPower t) ∧
        (∀ r, s.rounds = [r] → port.val ∈ r.links → ∃ w, t.rounds = [w] ∧ w.ctx = r.ctx ∧ w.id = r.id ∧ w.state = .aborted))) ∧
    (∀ port : Fin 32, port.val < s.power.lanes.length → s.power.lanes.getD port.val 0 ≠ 0 →
      ∃ t, exec (.linkRetrainComplete port) s = .next t ∧ t.power.lanes.getD port.val 0 = 2 ∧
        (port.val < s.power.retrains.length →
          t.power.retrains.getD port.val 0 = s.power.retrains.getD port.val 0 + 1) ∧ s.onlyPower t) ∧
    (∀ d : Fin 4,
      (s.power.bootOk = true → s.power.cxlUp = true → ∃ t, exec (.sdieSelfTestPass d) s = .next t ∧
        t.power = { s.power with sdOk := s.power.sdOk ||| BitVec.ofNat 4 (2 ^ d.val) } ∧ s.onlyPower t) ∧
      (s.power.bootOk = true → s.power.sdOk.getLsbD d.val = true → ∃ t, exec (.bulkTrainingComplete d) s = .next t ∧
        t.power = { s.power with bulkOk := s.power.bulkOk ||| BitVec.ofNat 4 (2 ^ d.val) } ∧ s.onlyPower t) ∧
      (s.power.sdOk.getLsbD d.val = true → s.power.bulkOk.getLsbD d.val = true → s.power.throttled = false →
        (∀ i, i < 64 → (s.core (64 * d.val + i)).testPassed = true ∨ (s.core (64 * d.val + i)).cap = 0) →
        ∃ t, exec (.dieFullService d) s = .next t ∧
          t.power = { s.power with full := s.power.full ||| BitVec.ofNat 4 (2 ^ d.val) } ∧ s.onlyPower t) ∧
      (∃ t, exec (.thermalThrottle d) s = .next t ∧ t.power = { s.power with
        throttled := true, state := if s.power.state = .p0 then .p1 else s.power.state } ∧ s.onlyPower t)) ∧
    (s.power.cxlUp = false → ∀ d : Fin 4, exec (.sdieSelfTestPass d) s = .next s) ∧
    (s.power.bootOk = false → ∀ (d : Fin 4) (p : Fin 32),
      ∀ i ∈ [Instr.sdieSelfTestPass d, .bulkTrainingComplete d, .portTrained p], exec i s = .next s) ∧
    (∀ p : Fin 32, s.power.bootOk = true → s.power.sdOk ≠ 0 → ∃ t, exec (.portTrained p) s = .next t ∧
      t.power = { s.power with portUp := s.power.portUp ||| BitVec.ofNat 32 (2 ^ p.val) } ∧ s.onlyPower t) ∧
    (∃ t, exec .cxlLinkUp s = .next t ∧ t.power = { s.power with cxlUp := true } ∧ s.onlyPower t) ∧
    (s.power.full = 0xF → s.power.throttled = false →
      (s.power.target = some .p0 →
        ∃ t, exec .powerTransitionComplete s = .next t ∧ t.power = { s.power with state := .p0, target := none } ∧
          s.onlyPower t) ∧
      (s.power.state = .p1 → s.power.req = .p0 →
        ∃ t, exec .autoP0Entry s = .next t ∧ t.power = { s.power with state := .p0, target := none } ∧ s.onlyPower t)) ∧
    (s.power.target = some .p1 →
      ∃ t, exec .powerTransitionComplete s = .next t ∧ t.power = { s.power with state := .p1, target := none } ∧
        s.onlyPower t) ∧
    (∀ p : PowerState, p = .ret ∨ p = .off → s.power.target = some p → s.anyHart = false →
      ∃ t, exec .powerTransitionComplete s = .next t ∧ t.power = { s.power with state := p, target := none } ∧
        t.sched.lpEn = false ∧ t.store.far.l1 = [] ∧ t.store.far.rdc = [] ∧ s.sameMemory t) ∧
    (∃ t, exec .throttleRelease s = .next t ∧ t.power.throttled = false ∧ s.onlyPower t ∧
      (s.power.full = 0xF → s.power.state = .p1 → s.power.req = .p0 → t.power.state = .p0) ∧
      (s.power.full ≠ 0xF ∨ s.power.state ≠ .p1 ∨ s.power.req ≠ .p0 → t.power.state = s.power.state)) ∧
    (∃ t, exec .rechargeComplete s = .next t ∧ t.holdup = { s.holdup with charging := false } ∧
      { t with holdup := s.holdup } = s)

/-- R367, R393, R406, R416, R419. A reset leaves no hart, no launch and no round, P1, every cached and transient copy
gone, the links, dies and ports down, and the memory, host memory and lifecycle as they were; a cold boot measures the
reserve and the five stages, each by its digest, and stops in SECURE at one whose signature fails. What a warm reset
keeps is log entry 50, the debug state NONE log entry 51, and what a stage signs log entry 18. -/
def Sys2Proof.Claims.PackageReset : Prop :=
  ∀ (s : State) (cold : Bool) (e : Nat) (stages : List BootStage),
    ∃ t, exec (.packageReset cold ⟨e, stages⟩) s = .next t ∧ t.placed = [] ∧ t.sched = State.reset.sched ∧ t.rounds = [] ∧
      t.completions = [] ∧ t.tlb = [] ∧ t.power.state = .p1 ∧ t.power.endgame = false ∧ t.power.poweredOff = false ∧
      t.power.portUp = 0 ∧ t.power.full = 0 ∧ t.power.bulkOk = 0 ∧ t.power.sdOk = 0 ∧ t.power.cxlUp = false ∧
      t.fdie = State.reset.fdie ∧ t.store.transient = [] ∧ t.store.far = ⟨[], [], []⟩ ∧ t.store.host = s.store.host ∧
      t.mgmt.lifecycle = s.mgmt.lifecycle ∧ t.mgmt.busy = false ∧ t.mgmt.debugReq = .none ∧
      (cold = false → t.store.mem = s.store.mem ∧ t.store.poison = s.store.poison ∧ t.mgmt.mrs = s.mgmt.mrs ∧
        t.holdup.emj = s.holdup.emj) ∧
      (cold = true → t.holdup.emj = e ∧ t.holdup.charging = true ∧
        t.holdup.capunits = min 7168 ((e - 440) * 1000 / 273) ∧
        ((∀ b ∈ fiveStages stages, stageSigned b = true) → t.power.bootOk = true ∧
          ∀ i, i < 5 → t.mgmt.mrs.getD i [] =
            sha256 (List.replicate 32 0 ++ sha256 ((fiveStages stages).getD i ⟨[], []⟩).image)) ∧
        (s.mgmt.lifecycle = .secure → (∃ b ∈ fiveStages stages, stageSigned b = false) → t.power.bootOk = false)) ∧
      (∀ n h, assocGet s.holdup.slots n = some h → h.state = 1 →
        ∃ k, assocGet t.holdup.slots n = some k ∧ k.state = 2 ∧ k.begun = 0 ∧ k.epoch = h.epoch) ∧
      (∀ c, (s.cores.map fun p => p.1).contains c = true → (t.core c).fenced = (s.core c).fenced)

/-- R306, R367, R391, R393, R394, R406, R415, R416, R419, R420. Bring-up, power and reset (log entries 18, 45, 50 and 51). -/
def Obligations.PowerEvents : Prop :=
  Sys2Proof.Claims.PowerEvents ∧ Sys2Proof.Claims.PackageReset

/-- R401 to R404, R420. The detector marks every hart with a grant and stops every other with its launch; the end of the
window stops the cores; the hold-up engine opens slots, begins items, writes data and seal records, and powers the
package off after the last. That the detector withdraws a request for P3 is log entry 52, and the 273 bytes of reserve
per write log entry 20. -/
def Obligations.PowerFailure : Prop :=
  ∀ s : State,
    (s.powered → s.power.state ≠ .off → ∀ i ∈ [Instr.undervoltageDetect, .thermalTrip],
      ∃ t, exec i s = .next t ∧ t.power.endgame = true ∧ t.power.window = true ∧
        (∀ k ∈ t.placed, k.granted = true ∧ k.marks.powerFail = true ∧ k.ctl.preqReq = false ∧
          k.marks.debugHalted = false) ∧
        (∀ k ∈ s.placed, k.granted = false → t.launch k.ident.seq = none) ∧
        ((s.placed.map fun k => k.ident.id).Nodup → ∀ k ∈ s.placed, k.granted = true →
          ∃ k' ∈ t.placed, k'.ident = k.ident ∧ k'.scalar = k.scalar)) ∧
    (s.power.window = true → ∀ i ∈ [Instr.powerFailWindowEnd, .supplyOutOfSpec],
      ∃ t, exec i s = .next t ∧ t.power.window = false ∧ t.power.endgame = s.power.endgame ∧ t.placed = [] ∧
        t.sched.launches = [] ∧ t.rounds = []) ∧
    (s.power.endgame = true → s.power.window = false →
      (s.holdup.plan = [] →
        ∃ t, exec .holdupEngineWrite s = .next t ∧ t.power.poweredOff = true ∧ t.power.endgame = false) ∧
      (∀ (n : Fin 64) (i : Nat) (w : HoldWrite) (rest : List HoldWrite) (u : Holdup) (k : HoldSlot),
        s.holdup.plan = w :: rest → s.slot n = some k →
        (s.holdup.pay w = none → ∃ t, exec .holdupEngineWrite s = .next t ∧ t.power.poweredOff = true) ∧
        (s.holdup.pay w = some u →
          (w = .slot n → ∃ t, exec .holdupEngineWrite s = .next t ∧ t.holdup.plan = rest ∧
            t.slot n = some { k with
              epoch := k.epoch + 1, begun := 0, state := 2, second := s.holdup.second, derated := s.holdup.derated } ∧
            t.holdup.mdie = writeDirectory s.holdup.mdie n (k.opened s.holdup.second s.holdup.derated)) ∧
          (w = .item n i → ∃ t, exec .holdupEngineWrite s = .next t ∧ t.holdup.plan = rest ∧
            t.slot n = some { k with begun := k.begun ||| BitVec.ofNat 64 (2 ^ i) } ∧ t.holdup.fault = false ∧
            t.holdup.poison = false) ∧
          (∀ (off : Nat) (bs : List Byte) (f p : Bool), w = .block n i off →
            ({ s with holdup := { u with plan := rest } }).readItem ⟨k.ctxid, k.ptroot, k.strbase⟩
                ((k.items.getD i ⟨0, 0, 0, 0⟩).vaddr.toNat + off) =
              ({ s with holdup := { u with plan := rest } }, bs, f, p) →
            ∃ t, exec .holdupEngineWrite s = .next t ∧ t.holdup.plan = rest ∧
              t.holdup.mdie = writeBytes s.holdup.mdie (k.bases.getD i 0 + off) bs ∧
              t.holdup.reserve + 273 = s.holdup.reserve ∧ t.holdup.fault = (s.holdup.fault || f) ∧
              t.holdup.poison = (s.holdup.poison || p)) ∧
          (w = .sealRecord n i → ∃ t, exec .holdupEngineWrite s = .next t ∧ t.holdup.plan = rest ∧
            t.holdup.mdie = writeBytes s.holdup.mdie (k.bases.getD i 0 + (k.items.getD i ⟨0, 0, 0, 0⟩).maxlen)
              (sealBytes k i (k.items.getD i ⟨0, 0, 0, 0⟩) s.holdup.fault s.holdup.poison
                (readBytes s.holdup.mdie (k.bases.getD i 0) (k.items.getD i ⟨0, 0, 0, 0⟩).len))))))

/-- R357, R358, R364, R365, R367, R368, R389, R407, R422. Each mailbox service answers and has its effect: a report, an
extended MR5 to MR7, an access entry, a removal, a discarded slot, a debug state, RMA; a wrong operand or state only
answers. MANUFACTURE becomes SECURE with debug access ended (log entry 73). What a token and an RMA request sign is
log entry 18. -/
def Obligations.MailboxServices : Prop :=
  ∀ s : State,
    (s.mailboxTakes →
      (∀ nonce : List Byte, nonce.length = 32 → s.mgmt.lifecycle ≠ .rma →
        ∃ t, exec (.mbAttestation nonce) s = .next t ∧ t.mailboxAnswers 0 ∧
          (∀ i, i < (s.reportBody nonce).length → t.mgmt.payload.getD i 0 = (s.reportBody nonce).getD i 0)) ∧
      (∀ (n : Fin 8) (digest : List Byte), 5 ≤ n.val → digest.length = 32 → n.val < s.mgmt.mrs.length →
        ∃ t, exec (.mbExtendMr n digest) s = .next t ∧ t.mailboxAnswers 0 ∧
          t.mgmt.mrs.getD n.val [] = sha256 (s.mgmt.mrs.getD n.val [] ++ digest) ∧
          (∀ j, j ≠ n.val → t.mgmt.mrs.getD j [] = s.mgmt.mrs.getD j [])) ∧
      (∀ (n : Fin 8) (digest : List Byte), n.val < 5 →
        ∃ t, exec (.mbExtendMr n digest) s = .next t ∧ t.mailboxAnswers 3 ∧ t.mgmt.mrs = s.mgmt.mrs) ∧
      (∀ (g : Fin 11) (c : Fin 5) (e : Fin 64) (w0 w1 : Word), accessReserved w0 w1 = false →
        ∃ t, exec (.mbWriteAccessEntry g c e w0 w1) s = .next t ∧ t.mailboxAnswers 0 ∧
          t.accessEntry g c e = ⟨g, c, e, w0, w1⟩ ∧
          (∀ g' c' e', (g', c', e') ≠ (g, c, e) → t.accessEntry g' c' e' = s.accessEntry g' c' e')) ∧
      (∀ (q : BitVec 16) (l : Launch), (s.sched.launches.find? fun l => l.seq % 65536 == q.toNat) = some l →
        l.removal = none → s.power.window = false → s.launch l.seq = some l →
        ∃ t k, exec (.mbRemoveLaunch q) s = .next t ∧ t.mgmt.busy = true ∧ t.mgmt.removing = some l.seq ∧
          t.launch l.seq = some k ∧ k.phase = .removing ∧ k.removal = some (0x1B, none)) ∧
      (∀ (n : Fin 64) (k : HoldSlot), s.slot n = some k → k.state = 2 ∨ k.state = 3 →
        ∃ t, exec (.mbDiscardSlot n) s = .next t ∧ t.mailboxAnswers 0 ∧ t.slot n = some { k with state := 0 } ∧
          (∀ m, m ≠ n → t.slot m = s.slot m)) ∧
      (s.mgmt.lifecycle = .secure → ∀ token : List Byte,
        (∃ t, exec (.mbDebugRequest .none token) s = .next t ∧ t.mailboxAnswers 0 ∧ t.mgmt.debugReq = .none) ∧
        (s.unlocks .observe token = false →
          ∃ t, exec (.mbDebugRequest .observe token) s = .next t ∧ t.mailboxAnswers 2 ∧
            t.mgmt.debugReq = s.mgmt.debugReq) ∧
        (s.unlocks .observe token = true →
          ∃ t, exec (.mbDebugRequest .observe token) s = .next t ∧ t.mailboxAnswers 0 ∧ t.mgmt.debugReq = .observe) ∧
        (s.unlocks .invasive token = true → s.refusesInvasive = false → s.mgmt.debugReq ≠ .invasive →
          ∃ t, exec (.mbDebugRequest .invasive token) s = .next t ∧ t.mailboxAnswers 0 ∧ t.mgmt.debugReq = .invasive ∧
            t.store.mem = [] ∧ t.holdup.mdie = [] ∧ t.placed = [])) ∧
      (s.mgmt.lifecycle ≠ .secure → ∀ (d : DebugState) (token : List Byte),
        ∃ t, exec (.mbDebugRequest d token) s = .next t ∧ t.mailboxAnswers 0 ∧ t.mgmt.debugReq = d) ∧
      (∀ command : List Byte,
        (s.mgmt.lifecycle = .rma → ∃ t, exec (.mbEnterRma command) s = .next t ∧ t.mailboxAnswers 1) ∧
        (s.mgmt.lifecycle = .secure →
          ∃ t, exec (.mbEnterRma command) s = .next t ∧
            (rsaVerify 2 rmaDigest command = false → t.mailboxAnswers 2 ∧ t.mgmt.lifecycle = .secure) ∧
            (rsaVerify 2 rmaDigest command = true → t.mailboxAnswers 0 ∧ t.mgmt.lifecycle = .rma ∧ t.store.mem = [] ∧
              t.holdup.mdie = [] ∧ t.placed = [])) ∧
        (s.mgmt.lifecycle = .manufacture →
          ∃ t, exec (.mbEnterRma command) s = .next t ∧ t.mailboxAnswers 0 ∧ t.mgmt.lifecycle = .rma ∧
            t.store.mem = [] ∧ t.holdup.mdie = [] ∧ t.placed = []))) ∧
    (s.mgmt.lifecycle = .manufacture →
      ∃ t, exec .manufactureToSecure s = .next t ∧ t.mgmt.lifecycle = .secure ∧ t.mgmt.debugReq = .none ∧
        t.mgmt.unlocked = false)

/-- R28, R29, R313, R331. The scheduler rejects a record with its code, or accepts it as the next launch in order; the launch
at the head that fits is placed whole, each hart with its record's entry point, arguments, use mask and share; the launches
chosen for pre-emption have REQ set on every hart. -/
def Obligations.SchedulerPlaces : Prop :=
  ∀ s : State,
    (s.nextRecord = none → exec .schedulerTakeRecord s = .next s) ∧
    (∀ (r : LaunchReq) (s1 s2 : State), s.nextRecord = some r →
      s1 = { s with sched := { s.sched with fifo := s.sched.fifo.filter fun q => q.arrival ≠ r.arrival } } →
      (∀ c, s1.judge r = (s2, .error c) → r.hart = none →
        ∃ t, exec .schedulerTakeRecord s = .next t ∧ t.sched = { s1.sched with
          lpErr := s.sched.lpErr ||| BitVec.ofNat 8 (2 ^ r.prio.val), lpCode := BitVec.ofNat 8 c } ∧ s.sameMemory t) ∧
      (∀ q d xc, s1.judge r = (s2, .ok (q, d, xc)) →
        ∃ t l, exec .schedulerTakeRecord s = .next t ∧ t.sched = { s1.sched with
            launches := s.sched.launches ++ [l], nextSeq := s.sched.nextSeq + 1 } ∧
          l.seq = s.sched.nextSeq ∧ l.ctxid = xc.ctxid ∧ l.record = q ∧ l.hold = d ∧ l.phase = .queued ∧
          l.removal = none ∧ l.savedHarts = [] ∧ s.sameMemory t)) ∧
    (s.placeHead = none → exec .launchPlacement s = .next s) ∧
    (∀ (l : Launch) (ids : List (List HartId)), s.headLaunch = some l → s.launch l.seq = some l → l.phase = .queued →
      s.placing = true → s.fitQueued (fun _ => false) l = some ids → l.record.stages.length ≤ 8 →
      ∃ t k, exec .launchPlacement s = .next t ∧ t.launch l.seq = some k ∧ k.phase = .running ∧
        ∀ (n j : Nat) (st : StageRec) (row : List HartId) (id : HartId), l.record.stages[n]? = some st →
          ids[n]? = some row → row[j]? = some id →
          ∃ g ∈ t.others, g.ident.id = id ∧ g.ident.seq = l.seq ∧ g.ident.stage = Fin.ofNat 8 n ∧
            g.ident.index = j ∧ g.scalar.pc = st.entry ∧ g.scalar.level = .u ∧
            g.readX 1 = l.record.argptr ∧ g.readX 2 = BitVec.ofNat 64 n ∧ g.readX 3 = BitVec.ofNat 64 j ∧
            g.ctl.usemask = st.usemask ∧ g.ctl.prio = l.record.prio ∧ g.v.share = st.share ∧ g.xctx = l.xctx ∧
            g.trap.tvec = s.fdie.rtvec ∧ g.marks.halted = false) ∧
    ((s.placed.map fun k => k.ident.id).Nodup →
      (∀ k ∈ s.placed, k.marks.halted = false ∧ k.viq = [] ∧ k.scalarWait = false) →
      ∃ t, exec .preemptRequest s = .next t ∧ { t with hart := s.hart, others := s.others } = s ∧
        ∀ h k, s.findHart h = some k →
          t.findHart h = some (if k.ident.seq ∈ s.chosen then { k with ctl := { k.ctl with
            preqReq := true, preqLeft := k.ctl.pdeadline, preqSince := s.cycle } } else k))

/-- R319, R331, R334, R336, R337. A hart whose time is over is saved by force; a complete save leaves the slot and is held
by its launch, and a forced one is recorded; a saved launch at the head is restored with its harts as they were; and
the stage scheduler ends the longest-indexed idle QPOP with SURPLUS. -/
def Obligations.SavesAndRestores : Prop :=
  ∀ (s : State) (h : HartId),
    (s.isAt h → s.hart.marks.saving = false → s.hart.ctl.preqReq = true → s.preqLeft s.hart = 0 → s.hart.viq = [] →
      ∃ t, exec (.forcedSave h) s = .next t ∧ t.hart.marks.saving = true ∧
        t.hart.marks.savedLive = some (BitVec.allOnes 64) ∧ t.hart.marks.forced = true ∧ t.fdie = s.fdie ∧ s.sameX t ∧
        t.hart.vrf = s.hart.vrf) ∧
    (∀ l : Launch, s.isAt h → s.hart.marks.test = none → s.hart.saveReady = true → s.launch s.hart.ident.seq = some l → l.phase = .running →
      (s.placed.map fun k => k.ident.id).Nodup →
      ∃ t l' k, exec (.saveCompletion h) s = .next t ∧ t.findHart h = none ∧ t.launch s.hart.ident.seq = some l' ∧
        l'.savedHarts = l.savedHarts ++ [k] ∧ k.ident = s.hart.ident ∧ k.scalar = s.hart.scalar ∧
        k.masks = s.hart.masks ∧ k.sbuf = s.hart.sbuf ∧ k.ctl.preqReq = false ∧
        t.fdie.evNext = (if s.hart.marks.forced then (s.fdie.evNext + 1) % 2 ^ 32 else s.fdie.evNext) ∧
        ((∀ j ∈ s.others, j.ident.seq ≠ s.hart.ident.seq) → l'.phase = .saved) ∧
        ((∃ j ∈ s.others, j.ident.seq = s.hart.ident.seq) → l'.phase = .running)) ∧
    (s.nextRestore = none → exec .launchRestore s = .next s) ∧
    (∀ (l : Launch) (ps : List (Hart × HartId)), s.rounds = [] → s.headLaunch = some l → s.launch l.seq = some l →
      l.phase = .saved → s.placing = true → s.fitSaved (fun _ => false) l = some ps → (∀ p ∈ ps, p.1.marks.test = none) →
      ∃ t l', exec .launchRestore s = .next t ∧ t.launch l.seq = some l' ∧ l'.phase = .running ∧ l'.savedHarts = [] ∧
        ∀ p ∈ ps, ∃ k ∈ t.others, k.ident = { p.1.ident with id := p.2 } ∧ k.scalar = p.1.scalar ∧ k.vrf = p.1.vrf ∧
          k.masks = p.1.masks ∧ k.ctl = p.1.ctl ∧ k.sbuf = p.1.sbuf ∧ k.copies = p.1.copies) ∧
    (∀ (die : Fin 4) (l : Launch) (st0 st1 : StageRec) (q q' : Fin 64) (since : Nat), s.isAt h →
      (s.sched.launches.filter fun k => k.phase == .running && k.removal.isNone) = [l] → l.record.stages = [st0, st1] →
      st0.outq = some q → s.placing = true → s.queueDie die.val q.val = 0 →
      st1.hmin < (s.stageHarts l 1).length → s.hart.ident.seq = l.seq → s.hart.ident.stage = 1 → s.hart.die = die.val →
      s.hart.marks.wait = .qpop q' since false → since + 65536 ≤ s.cycle →
      (∀ k ∈ s.others, k.ident.id ≠ h ∧ (k.ident.seq = l.seq → k.ident.index < s.hart.ident.index)) →
      ∃ t, exec (.stageSchedulerEvaluation die) s = .next t ∧ t.hart = { s.hart with
          marks := { s.hart.marks with wait := .qpop q' since true } } ∧ { t with hart := s.hart } = s)

/-- R31, R320, R388 to R390, R422. VLGCAP of a hart written with EN = 0 begins the removal of its launch and sends cause 0x1B to
its other harts; a removal whose harts have stopped ends with its record; a launch whose stages have ended completes with
its two words at DONEPTR, and its slot of the hold-up region is free. -/
def Obligations.LaunchesEnd : Prop :=
  ∀ (s : State) (l : Launch), s.launch l.seq = some l →
    (∀ (h : HartId) (k : Hart) (byMc : Bool) (cause : BitVec 8), s.holds h k → k.ident.seq = l.seq → l.removal = none →
      s.power.window = false →
      ∃ t l', exec (.vlgcapWrite h byMc cause) s = .next t ∧ t.launch l.seq = some l' ∧ l'.phase = .removing ∧
        l'.removal = some (if byMc ∨ cause = 0 then 0x1B else cause, if byMc then none else some h) ∧
        ∀ j g, s.findHart j = some g → g.ident.seq = l.seq → g.marks.halted = false → g.marks.removed = false →
          g.trap.inTrap = false → byMc = true ∨ j ≠ h →
          ∃ g', t.findHart j = some g' ∧ g'.marks.removed = true ∧
            g'.marks.kill = some (if byMc ∨ cause = 0 then 0x1B else cause) ∧ g'.scalar = g.scalar) ∧
    (s.allEnded l = true →
      (l.record.doneptr = 0 →
        ∃ t, exec (.launchCompletion l.seq) s = .next t ∧ t.launch l.seq = none ∧ s.sameMemory t ∧ t.others = s.others ∧
          ∀ n k, l.slot = some n → s.slot n = some k → t.slot n = some { k with state := 0 }) ∧
      (∀ pa kind, l.record.doneptr ≠ 0 →
        s.translate (s.unit l.ctxid) l.xctx .u .store l.record.doneptr.toNat = (s, .ok (pa, kind)) →
        s.physCheck (s.unit l.ctxid) .store pa = (s, .bytes [] none) → s.homeMemory pa → Memory.wf s.store.mem = true →
        ∃ t, exec (.launchCompletion l.seq) s = .next t ∧ t.launch l.seq = none ∧
          readBytes t.store.mem (paLocal pa) 16 = natBytes 8 l.record.doneval.toNat ++ natBytes 8 (s.leftEntries l) ∧
          s.sameMemoryOutside t (paLocal pa) 16)) ∧
    (s.removalReady l = true → l.record.doneptr = 0 →
      ∃ t, exec (.removalComplete l.seq) s = .next t ∧ t.launch l.seq = none ∧ (∀ k ∈ t.placed, k.ident.seq ≠ l.seq) ∧
        t.fdie.evNext = (s.fdie.evNext + 1) % 2 ^ 32 ∧
        (s.mgmt.removing = some l.seq → t.mgmt.busy = false ∧ t.mgmt.done = true ∧ t.mgmt.result = 0))

/-! ### Encodings, the step and invariants -/

/-- R37 to R39, R46, R50, R54, R55, R62. The worked line of the encoding chapter decodes to LI, ADDI, BNE and HALT, and with a gap
word that is not zero it fails its check; worked words of SETVLB, VADD and the fences, and words with a reserved field (the scope of FENCE.SV), a
wrong tail length, an unassigned function or an unassigned major. -/
def Obligations.DecodeWords : Prop :=
  let line : Nat → List Nat := fun gap => [0x2000, 0x1105, 0x0505, 0x3100, 0x4002] ++ List.replicate 15 0 ++ [gap] ++
    List.replicate 5 0 ++ [0x8001, 0x0A00, 0xFFFF, 0x0BFF, 0x0040, 0x0000]
  (line 0).length = 32 ∧
    decodeSlot (line 0) 0 = .instr (.li ⟨5, 64⟩) ∧ decodeSlot (line 0) 1 = .instr (.addi ⟨5, 5, -1⟩) ∧
    decodeSlot (line 0) 2 = .instr (.bne ⟨5, 0, 0, 1⟩) ∧ decodeSlot (line 0) 3 = .instr .halt ∧
    decodeSlot (line 0) 4 = .noSlot ∧ decodeSlot (line 1) 0 = .badLine .gapWord 0x2000 ∧
    decodeInstr 0x6705 0x08010021 = .ok (.setvlb ⟨5, 4, .w32, 1, 1⟩) ∧
    decodeInstr 0x8142 0x8104C080 = .ok (.vadd ⟨2, 0, .v 1, .w32, 3⟩) ∧
    decodeInstr 0x4400 0 = .ok .fenceSv ∧ decodeInstr 0x441A 0 = .ok (.fenceAcq .d) ∧
    decodeInstr 0x442C 0 = .ok (.fenceFull .s) ∧ decodeInstr 0x4102 0 = .error .tailLength ∧
    decodeInstr 0x4401 0 = .error .reserved ∧ decodeInstr 0x4005 0 = .error .function ∧ decodeInstr 0x1405 1 = .error .tailLength ∧
    decodeInstr 0xFE00 0 = .error .major

/-- R37, R38, R46 to R62. Every well-formed instruction encodes to a head of 16 bits and a tail of its length, and both the
decoder and a line that carries the two words give the instruction back. -/
def Obligations.EncodeDecode : Prop :=
  ∀ (i : Instr) (p : Nat × Nat), i.wellFormed = true → encode i = some p →
    p.1 < 65536 ∧ p.2 < 2 ^ (16 * tailWords p.1) ∧ decodeInstr p.1 p.2 = .ok i ∧ decodeSlot (layLine [p]) 0 = .instr i

/-- R46 to R62. A head and a tail that decode to an instruction are its own encoding: the instruction is well formed and
encodes to these words, so no two words stand for one instruction. -/
def Obligations.DecodeEncode : Prop :=
  ∀ (head t : Nat) (i : Instr), head < 65536 → t < 2 ^ (16 * tailWords head) → decodeInstr head t = .ok i →
    i.wellFormed = true ∧ encode i = some (head, t)

/-- R41, R45, R56. With nothing due, the step of a hart that may run fetches the line at its program counter and executes
the instruction in its slot; a bad line or slot executes as an illegal instruction, and a slot that the line does not
have traps with cause 0x02. A due input is executed first. That the line is read again at each slot, that an input
comes first and the next hart moves, and the trap of a missing slot in sequential flow are the model's choices (log
entries 31, 4 and 48). A hart's turn ends its single step, the next hart moves, and the clock ticks. -/
def Obligations.StepRunsDecoded : Prop :=
  (∀ (s s1 : State) (words : List Nat), s.due = none → s.internal = none → s.runnable = true → s.asyncDue = none →
    s.hart.owesWork = false → s.hart.viq.length < 64 → pcReserved s.hart.scalar.pc = false →
    s.fetchLine s.hart.scalar.level (pcLine s.hart.scalar.pc) = (s1, .ok words) →
    (∀ i, decodeSlot words (pcSlot s.hart.scalar.pc) = .instr i → step s = finishStep true (exec i (s1.fetched words))) ∧
    (∀ r w, decodeSlot words (pcSlot s.hart.scalar.pc) = .badLine r w ∨
        decodeSlot words (pcSlot s.hart.scalar.pc) = .badInstr r w →
      step s = finishStep true (exec (.illegalInstruction r (BitVec.ofNat 16 w)) (s1.fetched words))) ∧
    (decodeSlot words (pcSlot s.hart.scalar.pc) = .noSlot →
      step s = finishStep true (.next ((s1.fetched words).trap 0x02 s.hart.scalar.pc)))) ∧
  (∀ (s t : State) (i : Instr), s.due = some (.event i, t) → isInput i = true → step s = finishStep false (exec i t)) ∧
  (∀ (s t : State) (i : Input), s.due = some (i, t) → step s = finishStep false (t.input i)) ∧
  (∀ t : State, t.turns = [] →
    (∀ k rest, t.others = k :: rest → t.hart.marks.halted = false →
      ∃ u, finishStep true (.next t) = .next u ∧ u.hart = k ∧ u.others = rest ++ [t.hart.stepDone] ∧ u.tick = t.tick + 1 ∧
        u.store = t.store ∧ u.cores = t.cores) ∧
    (t.others = [] →
      ∃ u, finishStep true (.next t) = .next u ∧ u.hart = t.hart.stepDone ∧ u.others = [] ∧ u.tick = t.tick + 1 ∧
        u.store = t.store ∧ u.cores = t.cores))

/-- R33 to R35, R415, R416. At reset the registers that the host reads hold the values that the spec gives: every launch port
register 0, ARCHR 1, PWRSTAT.STATE P1 and every other register of the block 0; nothing is placed, accepted or open; and every
memory is in canonical form, as every hart is. -/
def Obligations.ResetValues : Prop :=
  (∀ off ∈ [0x40, 0x48, 0x1000, 0x1008, 0x1010, 0x1020, 0x1028, 0x1030, 0x1038, 0x1048],
    leNat (State.reset.deviceRead (0xF000000000 + off) 8) = 0) ∧
  leNat (State.reset.deviceRead 0xF000001040 8) = 1 ∧ leNat (State.reset.deviceRead 0xF000001050 8) = 1 ∧
  State.reset.placed = [] ∧ State.reset.sched.launches = [] ∧ State.reset.sched.fifo = [] ∧ State.reset.rounds = [] ∧
  State.reset.memoriesOk ∧ State.reset.hartsOk

/-- R218, R379. Every step keeps every memory of the package in canonical form: home memory, host memory, the M-die data
region and other packages' memories. -/
def Obligations.StepKeepsMemories : Prop :=
  ∀ s t : State, s.memoriesOk → step s = .next t → t.memoriesOk

/-- R8, R9, R23, R24, R141, R238. Every step keeps every hart orderly: its vector registers, masks, prior contents and shadows
in canonical form, its history behind posted instructions, its numbers in order, and, when nothing is posted, no commit under
way and only the stores of its open strip in its buffer. -/
def Obligations.StepKeepsHarts : Prop :=
  ∀ s t : State, s.hartsOk → step s = .next t → t.hartsOk
end

