-- ==== Sys2Proof/Laws/Memory.lean ====
section
/-! SUPPORT. Memory: what a write does to every byte, and the canonical form that every operation keeps. -/

namespace Sys2Proof.Machine

/-! ### Reading after one byte written -/

theorem memRead_memWrite (m : Mem) (a b : Nat) (v : Byte) (h : Memory.wf m = true) :
    memRead (memWrite m a v) b = if b = a then v else memRead m b := by
  suffices hs : ∀ (m : Mem) (lo : Nat), memWfFrom lo m = true →
      memRead (memWrite m a v) b = if b = a then v else memRead m b from hs m 0 h
  intro m
  induction m with
  | nil =>
    intro lo _
    unfold memWrite
    by_cases hv : v = 0#8 <;> by_cases hb : b = a <;> simp [hv, hb, memRead]
  | cons c rest ih =>
    obtain ⟨x, w⟩ := c
    intro lo hw
    simp only [memWfFrom, Bool.and_eq_true, decide_eq_true_eq] at hw
    have below : ∀ (r : Mem) (lo k : Nat), memWfFrom lo r = true → k < lo → memRead r k = 0 := by
      intro r
      induction r with
      | nil => intro _ _ _ _; rfl
      | cons c r ihr =>
        obtain ⟨y, u⟩ := c
        intro lo k hr hk
        simp only [memWfFrom, Bool.and_eq_true, decide_eq_true_eq] at hr
        have : k ≠ y := by omega
        simp only [memRead, this, if_false]
        exact ihr (y + 1) k hr.2 (by omega)
    unfold memWrite
    by_cases h1 : a < x
    · have hax : a ≠ x := by omega
      have h0 : memRead rest a = 0 := below rest (x + 1) a hw.2 (by omega)
      by_cases hv : v = 0#8 <;> by_cases hb : b = a <;> simp [h1, hv, hb, memRead, hax, h0]
    · by_cases h2 : a = x
      · subst h2
        have h0 : memRead rest a = 0 := below rest (a + 1) a hw.2 (by omega)
        by_cases hv : v = 0#8 <;> by_cases hb : b = a <;> simp [hv, hb, memRead, h0]
      · have := ih (x + 1) hw.2
        by_cases hb : b = x
        · have hba : b ≠ a := by omega
          subst hb
          simp [h1, h2, memRead, hba]
        · simp [h1, h2, memRead, hb, this]

/-! ### The canonical form -/

theorem memWfFrom_mono {m : Mem} {lo hi : Nat} (h : memWfFrom hi m = true) (hl : lo ≤ hi) : memWfFrom lo m = true := by
  cases m with
  | nil => rfl
  | cons c rest =>
    obtain ⟨x, w⟩ := c
    simp only [memWfFrom, Bool.and_eq_true, decide_eq_true_eq] at h ⊢
    exact ⟨⟨by omega, h.1.2⟩, h.2⟩

theorem memWrite_wfFrom {m : Mem} {lo a : Nat} (v : Byte) (h : memWfFrom lo m = true) (ha : lo ≤ a) :
    memWfFrom lo (memWrite m a v) = true := by
  induction m generalizing lo with
  | nil =>
    unfold memWrite
    by_cases hv : v = 0#8 <;> simp [hv, memWfFrom, ha]
  | cons c rest ih =>
    obtain ⟨x, w⟩ := c
    have hw := h
    simp only [memWfFrom, Bool.and_eq_true, decide_eq_true_eq] at hw
    unfold memWrite
    by_cases h1 : a < x
    · by_cases hv : v = 0#8
      · simpa [h1, hv] using h
      · have h3 : a + 1 ≤ x := by omega
        rw [if_pos h1, if_neg (show ¬v = 0 from hv)]
        simp only [memWfFrom, Bool.and_eq_true, decide_eq_true_eq]
        exact ⟨⟨ha, hv⟩, ⟨h3, hw.1.2⟩, hw.2⟩
    · by_cases h2 : a = x
      · subst h2
        by_cases hv : v = 0#8
        · simpa [hv] using memWfFrom_mono hw.2 (by omega : lo ≤ a + 1)
        · rw [if_neg (Nat.lt_irrefl a), if_pos rfl, if_neg (show ¬v = 0 from hv)]
          simp only [memWfFrom, Bool.and_eq_true, decide_eq_true_eq]
          exact ⟨⟨ha, hv⟩, hw.2⟩
      · simp only [h1, h2, if_false, memWfFrom, Bool.and_eq_true, decide_eq_true_eq]
        exact ⟨hw.1, ih hw.2 (by omega)⟩

theorem memWrite_wf {m : Mem} (a : Nat) (v : Byte) (h : Memory.wf m = true) : Memory.wf (memWrite m a v) = true :=
  memWrite_wfFrom v h (Nat.zero_le a)

theorem writeBytes_wf {m : Mem} (a : Nat) (bs : List Byte) (h : Memory.wf m = true) :
    Memory.wf (writeBytes m a bs) = true := by
  induction bs generalizing m a with
  | nil => exact h
  | cons b rest ih => exact ih (a + 1) (memWrite_wf a b h)

theorem writeNat_wf {m : Mem} (a n v : Nat) (h : Memory.wf m = true) : Memory.wf (writeNat m a n v) = true :=
  writeBytes_wf a (natBytes n v) h

theorem filter_wfFrom {m : Mem} {lo : Nat} (p : Host.Cell → Bool) (h : memWfFrom lo m = true) :
    memWfFrom lo (m.filter p) = true := by
  induction m generalizing lo with
  | nil => rfl
  | cons c rest ih =>
    obtain ⟨x, w⟩ := c
    simp only [memWfFrom, Bool.and_eq_true, decide_eq_true_eq] at h
    simp only [List.filter_cons]
    split
    · simp only [memWfFrom, Bool.and_eq_true, decide_eq_true_eq]
      exact ⟨h.1, ih h.2⟩
    · exact memWfFrom_mono (ih h.2) (by omega)

theorem memSlice_wf {m : Mem} (lo hi : Nat) (h : Memory.wf m = true) : Memory.wf (memSlice m lo hi) = true :=
  filter_wfFrom _ h

theorem memDrop_wf {m : Mem} (lo hi : Nat) (h : Memory.wf m = true) : Memory.wf (memDrop m lo hi) = true :=
  filter_wfFrom _ h

/-- The canonical form of a sequence of memories, each above the one before it. -/
theorem append_wfFrom {a b : Mem} {lo : Nat} (mid : Nat) (ha : memWfFrom lo a = true) (hb : memWfFrom mid b = true)
    (hl : lo ≤ mid) (hc : ∀ c ∈ a, c.1 < mid) : memWfFrom lo (a ++ b) = true := by
  induction a generalizing lo with
  | nil => exact memWfFrom_mono hb hl
  | cons c rest ih =>
    obtain ⟨x, w⟩ := c
    have hx : x < mid := hc (x, w) (by simp)
    simp only [memWfFrom, Bool.and_eq_true, decide_eq_true_eq] at ha
    simp only [List.cons_append, memWfFrom, Bool.and_eq_true, decide_eq_true_eq]
    exact ⟨ha.1, ih ha.2 (by omega) fun d hd => hc d (by simp [hd])⟩

theorem wfFrom_of_ge {m : Mem} {lo k : Nat} (h : memWfFrom lo m = true) (hk : ∀ c ∈ m, k ≤ c.1) :
    memWfFrom k m = true := by
  cases m with
  | nil => rfl
  | cons c rest =>
    obtain ⟨x, w⟩ := c
    have hx : k ≤ x := hk (x, w) (by simp)
    simp only [memWfFrom, Bool.and_eq_true, decide_eq_true_eq] at h ⊢
    exact ⟨⟨hx, h.1.2⟩, h.2⟩

theorem memRestore_wf {m src : Mem} {lo hi : Nat} (hm : Memory.wf m = true) (hs : Memory.wf src = true) (hl : lo ≤ hi) :
    Memory.wf (memRestore m src lo hi) = true := by
  have h1 : memWfFrom 0 (m.filter fun c => decide (c.1 < lo)) = true := filter_wfFrom _ hm
  have h2 : memWfFrom lo (memSlice src lo hi) = true :=
    wfFrom_of_ge (filter_wfFrom _ hs) fun c hc => by simp [memSlice] at hc; omega
  have h3 : memWfFrom hi (m.filter fun c => decide (hi ≤ c.1)) = true :=
    wfFrom_of_ge (filter_wfFrom _ hm) fun c hc => by simp at hc; omega
  refine append_wfFrom hi (append_wfFrom lo h1 h2 (Nat.zero_le lo) fun c hc => by simp at hc; omega) h3 (Nat.zero_le hi) ?_
  intro c hc
  rcases List.mem_append.mp hc with h | h
  · simp at h; omega
  · simp [memSlice] at h; omega

theorem restoreShadow_wf {vrf : Mem} (p : VReg × Mem) (h : Memory.wf vrf = true) (hp : Memory.wf p.2 = true) :
    Memory.wf (restoreShadow vrf p) = true :=
  memRestore_wf h hp (by simp only [vkey]; omega)

/-! ### Reading after bytes written -/

theorem memRead_writeBytes (m : Mem) (a b : Nat) (bs : List Byte) (h : Memory.wf m = true) :
    memRead (writeBytes m a bs) b = if a ≤ b ∧ b < a + bs.length then bs.getD (b - a) 0 else memRead m b := by
  induction bs generalizing m a with
  | nil => simp only [writeBytes, List.length_nil]; rw [if_neg (by omega)]
  | cons v rest ih =>
    rw [writeBytes, ih _ _ (memWrite_wf a v h), memRead_memWrite m a b v h, List.length_cons]
    by_cases hb : b = a
    · subst hb
      rw [if_neg (by omega), if_pos rfl, if_pos (by omega)]
      simp
    · by_cases hin : a + 1 ≤ b ∧ b < a + 1 + rest.length
      · rw [if_pos hin, if_pos (by omega)]
        obtain ⟨k, rfl⟩ : ∃ k, b = a + 1 + k := ⟨b - (a + 1), by omega⟩
        simp [show a + 1 + k - (a + 1) = k by omega, show a + 1 + k - a = k + 1 by omega]
      · rw [if_neg hin, if_neg hb, if_neg (by omega)]

theorem readBytes_congr {m k : Mem} {a n : Nat} (h : ∀ b, a ≤ b → b < a + n → memRead m b = memRead k b) :
    readBytes m a n = readBytes k a n := by
  induction n generalizing a with
  | zero => rfl
  | succ n ih =>
    simp only [readBytes]
    rw [h a (by omega) (by omega), ih fun b h1 h2 => h b (by omega) (by omega)]

theorem readBytes_writeBytes (m : Mem) (a : Nat) (bs : List Byte) (h : Memory.wf m = true) :
    readBytes (writeBytes m a bs) a bs.length = bs := by
  have key : ∀ (k : Mem) (a : Nat) (l : List Byte), (∀ i, i < l.length → memRead k (a + i) = l.getD i 0) →
      readBytes k a l.length = l := by
    intro k a l
    induction l generalizing a with
    | nil => intro _; rfl
    | cons v rest ih =>
      intro hk
      simp only [List.length_cons, readBytes]
      have h0 := hk 0 (by simp)
      simp at h0
      rw [h0, ih (a + 1) fun i hi => by
        have := hk (i + 1) (by simpa using hi)
        simpa [Nat.add_assoc, Nat.add_comm 1 i] using this]
  exact key _ _ _ fun i hi => by
    rw [memRead_writeBytes m a (a + i) bs h, if_pos (by omega)]
    simp [show a + i - a = i by omega]

/-- Bytes read outside the bytes written are as before. -/
theorem readBytes_writeBytes_of_disjoint (m : Mem) (a b n : Nat) (bs : List Byte) (h : Memory.wf m = true)
    (hd : b + n ≤ a ∨ a + bs.length ≤ b) : readBytes (writeBytes m a bs) b n = readBytes m b n :=
  readBytes_congr fun c h1 h2 => by rw [memRead_writeBytes m a c bs h, if_neg (by omega)]

/-! ### Little-endian numbers -/

theorem natBytes_length (n v : Nat) : (natBytes n v).length = n := by
  induction n generalizing v with
  | zero => rfl
  | succ n ih => simp [natBytes, ih]

theorem leNat_natBytes (n v : Nat) : leNat (natBytes n v) = v % 256 ^ n := by
  induction n generalizing v with
  | zero => simp [natBytes, leNat, Nat.mod_one]
  | succ n ih =>
    simp only [natBytes, leNat, ih, BitVec.toNat_ofNat]
    rw [show 256 ^ (n + 1) = 256 * 256 ^ n by ring, Nat.mod_mul]

theorem readNat_writeNat (m : Mem) (a n v : Nat) (h : Memory.wf m = true) : readNat (writeNat m a n v) a n = v % 256 ^ n := by
  have hr := readBytes_writeBytes m a (natBytes n v) h
  rw [natBytes_length] at hr
  rw [readNat, writeNat, hr, leNat_natBytes]

/-! ### Reset -/

/-- The memory of the package right after reset has the canonical form. -/
theorem wf_reset : Memory.wf State.reset.store.mem = true := rfl

end Sys2Proof.Machine
end

