-- ==== Sys2Proof/Laws/State.lean ====
section
/-! SUPPORT. What each update of a state or of a hart leaves in each field. -/

noncomputable section

namespace Sys2Proof.Machine

@[simp] theorem State.withHart_hart (s : State) (f : Hart → Hart) : (s.withHart f).hart = f s.hart := rfl
@[simp] theorem State.withHart_others (s : State) (f : Hart → Hart) : (s.withHart f).others = s.others := rfl
@[simp] theorem State.withHart_agenda (s : State) (f : Hart → Hart) : (s.withHart f).agenda = s.agenda := rfl
@[simp] theorem State.withHart_turns (s : State) (f : Hart → Hart) : (s.withHart f).turns = s.turns := rfl
@[simp] theorem State.withHart_tick (s : State) (f : Hart → Hart) : (s.withHart f).tick = s.tick := rfl
@[simp] theorem State.withHart_cycle (s : State) (f : Hart → Hart) : (s.withHart f).cycle = s.cycle := rfl
@[simp] theorem State.withHart_pkg (s : State) (f : Hart → Hart) : (s.withHart f).pkg = s.pkg := rfl
@[simp] theorem State.withHart_store (s : State) (f : Hart → Hart) : (s.withHart f).store = s.store := rfl
@[simp] theorem State.withHart_tlb (s : State) (f : Hart → Hart) : (s.withHart f).tlb = s.tlb := rfl
@[simp] theorem State.withHart_access (s : State) (f : Hart → Hart) : (s.withHart f).access = s.access := rfl
@[simp] theorem State.withHart_vlogs (s : State) (f : Hart → Hart) : (s.withHart f).vlogs = s.vlogs := rfl
@[simp] theorem State.withHart_cores (s : State) (f : Hart → Hart) : (s.withHart f).cores = s.cores := rfl
@[simp] theorem State.withHart_sched (s : State) (f : Hart → Hart) : (s.withHart f).sched = s.sched := rfl
@[simp] theorem State.withHart_savedTests (s : State) (f : Hart → Hart) : (s.withHart f).savedTests = s.savedTests := rfl
@[simp] theorem State.withHart_rounds (s : State) (f : Hart → Hart) : (s.withHart f).rounds = s.rounds := rfl
@[simp] theorem State.withHart_completions (s : State) (f : Hart → Hart) : (s.withHart f).completions = s.completions := rfl
@[simp] theorem State.withHart_fdie (s : State) (f : Hart → Hart) : (s.withHart f).fdie = s.fdie := rfl
@[simp] theorem State.withHart_power (s : State) (f : Hart → Hart) : (s.withHart f).power = s.power := rfl
@[simp] theorem State.withHart_holdup (s : State) (f : Hart → Hart) : (s.withHart f).holdup = s.holdup := rfl
@[simp] theorem State.withHart_mgmt (s : State) (f : Hart → Hart) : (s.withHart f).mgmt = s.mgmt := rfl
@[simp] theorem State.withHart_lastAnswer (s : State) (f : Hart → Hart) : (s.withHart f).lastAnswer = s.lastAnswer := rfl

@[simp] theorem State.setCore_hart (s : State) (c : Nat) (k : Core) : (s.setCore c k).hart = s.hart := rfl
@[simp] theorem State.setCore_others (s : State) (c : Nat) (k : Core) : (s.setCore c k).others = s.others := rfl
@[simp] theorem State.setCore_agenda (s : State) (c : Nat) (k : Core) : (s.setCore c k).agenda = s.agenda := rfl
@[simp] theorem State.setCore_turns (s : State) (c : Nat) (k : Core) : (s.setCore c k).turns = s.turns := rfl
@[simp] theorem State.setCore_tick (s : State) (c : Nat) (k : Core) : (s.setCore c k).tick = s.tick := rfl
@[simp] theorem State.setCore_cycle (s : State) (c : Nat) (k : Core) : (s.setCore c k).cycle = s.cycle := rfl
@[simp] theorem State.setCore_pkg (s : State) (c : Nat) (k : Core) : (s.setCore c k).pkg = s.pkg := rfl
@[simp] theorem State.setCore_store (s : State) (c : Nat) (k : Core) : (s.setCore c k).store = s.store := rfl
@[simp] theorem State.setCore_tlb (s : State) (c : Nat) (k : Core) : (s.setCore c k).tlb = s.tlb := rfl
@[simp] theorem State.setCore_access (s : State) (c : Nat) (k : Core) : (s.setCore c k).access = s.access := rfl
@[simp] theorem State.setCore_vlogs (s : State) (c : Nat) (k : Core) : (s.setCore c k).vlogs = s.vlogs := rfl
@[simp] theorem State.setCore_cores (s : State) (c : Nat) (k : Core) : (s.setCore c k).cores = assocSet s.cores c k := rfl
@[simp] theorem State.setCore_sched (s : State) (c : Nat) (k : Core) : (s.setCore c k).sched = s.sched := rfl
@[simp] theorem State.setCore_savedTests (s : State) (c : Nat) (k : Core) : (s.setCore c k).savedTests = s.savedTests := rfl
@[simp] theorem State.setCore_rounds (s : State) (c : Nat) (k : Core) : (s.setCore c k).rounds = s.rounds := rfl
@[simp] theorem State.setCore_completions (s : State) (c : Nat) (k : Core) : (s.setCore c k).completions = s.completions := rfl
@[simp] theorem State.setCore_fdie (s : State) (c : Nat) (k : Core) : (s.setCore c k).fdie = s.fdie := rfl
@[simp] theorem State.setCore_power (s : State) (c : Nat) (k : Core) : (s.setCore c k).power = s.power := rfl
@[simp] theorem State.setCore_holdup (s : State) (c : Nat) (k : Core) : (s.setCore c k).holdup = s.holdup := rfl
@[simp] theorem State.setCore_mgmt (s : State) (c : Nat) (k : Core) : (s.setCore c k).mgmt = s.mgmt := rfl
@[simp] theorem State.setCore_lastAnswer (s : State) (c : Nat) (k : Core) : (s.setCore c k).lastAnswer = s.lastAnswer := rfl

@[simp] theorem State.fresh_hart (s : State) : (s.fresh).hart = s.hart := rfl
@[simp] theorem State.fresh_others (s : State) : (s.fresh).others = s.others := rfl
@[simp] theorem State.fresh_agenda (s : State) : (s.fresh).agenda = s.agenda := rfl
@[simp] theorem State.fresh_turns (s : State) : (s.fresh).turns = s.turns := rfl
@[simp] theorem State.fresh_tick (s : State) : (s.fresh).tick = s.tick + 1 := rfl
@[simp] theorem State.fresh_cycle (s : State) : (s.fresh).cycle = s.cycle := rfl
@[simp] theorem State.fresh_pkg (s : State) : (s.fresh).pkg = s.pkg := rfl
@[simp] theorem State.fresh_store (s : State) : (s.fresh).store = s.store := rfl
@[simp] theorem State.fresh_tlb (s : State) : (s.fresh).tlb = s.tlb := rfl
@[simp] theorem State.fresh_access (s : State) : (s.fresh).access = s.access := rfl
@[simp] theorem State.fresh_vlogs (s : State) : (s.fresh).vlogs = s.vlogs := rfl
@[simp] theorem State.fresh_cores (s : State) : (s.fresh).cores = s.cores := rfl
@[simp] theorem State.fresh_sched (s : State) : (s.fresh).sched = s.sched := rfl
@[simp] theorem State.fresh_savedTests (s : State) : (s.fresh).savedTests = s.savedTests := rfl
@[simp] theorem State.fresh_rounds (s : State) : (s.fresh).rounds = s.rounds := rfl
@[simp] theorem State.fresh_completions (s : State) : (s.fresh).completions = s.completions := rfl
@[simp] theorem State.fresh_fdie (s : State) : (s.fresh).fdie = s.fdie := rfl
@[simp] theorem State.fresh_power (s : State) : (s.fresh).power = s.power := rfl
@[simp] theorem State.fresh_holdup (s : State) : (s.fresh).holdup = s.holdup := rfl
@[simp] theorem State.fresh_mgmt (s : State) : (s.fresh).mgmt = s.mgmt := rfl
@[simp] theorem State.fresh_lastAnswer (s : State) : (s.fresh).lastAnswer = s.lastAnswer := rfl

@[simp] theorem State.ticked_hart (s : State) : (s.ticked).hart = s.hart := rfl
@[simp] theorem State.ticked_others (s : State) : (s.ticked).others = s.others := rfl
@[simp] theorem State.ticked_agenda (s : State) : (s.ticked).agenda = s.agenda := rfl
@[simp] theorem State.ticked_turns (s : State) : (s.ticked).turns = s.turns := rfl
@[simp] theorem State.ticked_tick (s : State) : (s.ticked).tick = s.tick + 1 := rfl
@[simp] theorem State.ticked_cycle (s : State) : (s.ticked).cycle = s.cycle + Config.stepCycles s.tick := rfl
@[simp] theorem State.ticked_pkg (s : State) : (s.ticked).pkg = s.pkg := rfl
@[simp] theorem State.ticked_store (s : State) : (s.ticked).store = s.store := rfl
@[simp] theorem State.ticked_tlb (s : State) : (s.ticked).tlb = s.tlb := rfl
@[simp] theorem State.ticked_access (s : State) : (s.ticked).access = s.access := rfl
@[simp] theorem State.ticked_vlogs (s : State) : (s.ticked).vlogs = s.vlogs := rfl
@[simp] theorem State.ticked_cores (s : State) : (s.ticked).cores = s.cores := rfl
@[simp] theorem State.ticked_sched (s : State) : (s.ticked).sched = s.sched := rfl
@[simp] theorem State.ticked_savedTests (s : State) : (s.ticked).savedTests = s.savedTests := rfl
@[simp] theorem State.ticked_rounds (s : State) : (s.ticked).rounds = s.rounds := rfl
@[simp] theorem State.ticked_completions (s : State) : (s.ticked).completions = s.completions := rfl
@[simp] theorem State.ticked_fdie (s : State) : (s.ticked).fdie = s.fdie := rfl
@[simp] theorem State.ticked_power (s : State) : (s.ticked).power = s.power := rfl
@[simp] theorem State.ticked_holdup (s : State) : (s.ticked).holdup = s.holdup := rfl
@[simp] theorem State.ticked_mgmt (s : State) : (s.ticked).mgmt = s.mgmt := rfl
@[simp] theorem State.ticked_lastAnswer (s : State) : (s.ticked).lastAnswer = s.lastAnswer := rfl

@[simp] theorem State.say_hart (s : State) (a : Answer) : (s.say a).hart = s.hart := rfl
@[simp] theorem State.say_others (s : State) (a : Answer) : (s.say a).others = s.others := rfl
@[simp] theorem State.say_agenda (s : State) (a : Answer) : (s.say a).agenda = s.agenda := rfl
@[simp] theorem State.say_turns (s : State) (a : Answer) : (s.say a).turns = s.turns := rfl
@[simp] theorem State.say_tick (s : State) (a : Answer) : (s.say a).tick = s.tick := rfl
@[simp] theorem State.say_cycle (s : State) (a : Answer) : (s.say a).cycle = s.cycle := rfl
@[simp] theorem State.say_pkg (s : State) (a : Answer) : (s.say a).pkg = s.pkg := rfl
@[simp] theorem State.say_store (s : State) (a : Answer) : (s.say a).store = s.store := rfl
@[simp] theorem State.say_tlb (s : State) (a : Answer) : (s.say a).tlb = s.tlb := rfl
@[simp] theorem State.say_access (s : State) (a : Answer) : (s.say a).access = s.access := rfl
@[simp] theorem State.say_vlogs (s : State) (a : Answer) : (s.say a).vlogs = s.vlogs := rfl
@[simp] theorem State.say_cores (s : State) (a : Answer) : (s.say a).cores = s.cores := rfl
@[simp] theorem State.say_sched (s : State) (a : Answer) : (s.say a).sched = s.sched := rfl
@[simp] theorem State.say_savedTests (s : State) (a : Answer) : (s.say a).savedTests = s.savedTests := rfl
@[simp] theorem State.say_rounds (s : State) (a : Answer) : (s.say a).rounds = s.rounds := rfl
@[simp] theorem State.say_completions (s : State) (a : Answer) : (s.say a).completions = s.completions := rfl
@[simp] theorem State.say_fdie (s : State) (a : Answer) : (s.say a).fdie = s.fdie := rfl
@[simp] theorem State.say_power (s : State) (a : Answer) : (s.say a).power = s.power := rfl
@[simp] theorem State.say_holdup (s : State) (a : Answer) : (s.say a).holdup = s.holdup := rfl
@[simp] theorem State.say_mgmt (s : State) (a : Answer) : (s.say a).mgmt = s.mgmt := rfl
@[simp] theorem State.say_lastAnswer (s : State) (a : Answer) : (s.say a).lastAnswer = some a := rfl

@[simp] theorem State.setSlot_hart (s : State) (n : Fin 64) (h : HoldSlot) : (s.setSlot n h).hart = s.hart := rfl
@[simp] theorem State.setSlot_others (s : State) (n : Fin 64) (h : HoldSlot) : (s.setSlot n h).others = s.others := rfl
@[simp] theorem State.setSlot_agenda (s : State) (n : Fin 64) (h : HoldSlot) : (s.setSlot n h).agenda = s.agenda := rfl
@[simp] theorem State.setSlot_turns (s : State) (n : Fin 64) (h : HoldSlot) : (s.setSlot n h).turns = s.turns := rfl
@[simp] theorem State.setSlot_tick (s : State) (n : Fin 64) (h : HoldSlot) : (s.setSlot n h).tick = s.tick := rfl
@[simp] theorem State.setSlot_cycle (s : State) (n : Fin 64) (h : HoldSlot) : (s.setSlot n h).cycle = s.cycle := rfl
@[simp] theorem State.setSlot_pkg (s : State) (n : Fin 64) (h : HoldSlot) : (s.setSlot n h).pkg = s.pkg := rfl
@[simp] theorem State.setSlot_store (s : State) (n : Fin 64) (h : HoldSlot) : (s.setSlot n h).store = s.store := rfl
@[simp] theorem State.setSlot_tlb (s : State) (n : Fin 64) (h : HoldSlot) : (s.setSlot n h).tlb = s.tlb := rfl
@[simp] theorem State.setSlot_access (s : State) (n : Fin 64) (h : HoldSlot) : (s.setSlot n h).access = s.access := rfl
@[simp] theorem State.setSlot_vlogs (s : State) (n : Fin 64) (h : HoldSlot) : (s.setSlot n h).vlogs = s.vlogs := rfl
@[simp] theorem State.setSlot_cores (s : State) (n : Fin 64) (h : HoldSlot) : (s.setSlot n h).cores = s.cores := rfl
@[simp] theorem State.setSlot_sched (s : State) (n : Fin 64) (h : HoldSlot) : (s.setSlot n h).sched = s.sched := rfl
@[simp] theorem State.setSlot_savedTests (s : State) (n : Fin 64) (h : HoldSlot) : (s.setSlot n h).savedTests = s.savedTests := rfl
@[simp] theorem State.setSlot_rounds (s : State) (n : Fin 64) (h : HoldSlot) : (s.setSlot n h).rounds = s.rounds := rfl
@[simp] theorem State.setSlot_completions (s : State) (n : Fin 64) (h : HoldSlot) : (s.setSlot n h).completions = s.completions := rfl
@[simp] theorem State.setSlot_fdie (s : State) (n : Fin 64) (h : HoldSlot) : (s.setSlot n h).fdie = s.fdie := rfl
@[simp] theorem State.setSlot_power (s : State) (n : Fin 64) (h : HoldSlot) : (s.setSlot n h).power = s.power := rfl
@[simp] theorem State.setSlot_holdup (s : State) (n : Fin 64) (h : HoldSlot) : (s.setSlot n h).holdup = { s.holdup with slots := assocSet s.holdup.slots n h, mdie := writeDirectory s.holdup.mdie n h } := rfl
@[simp] theorem State.setSlot_mgmt (s : State) (n : Fin 64) (h : HoldSlot) : (s.setSlot n h).mgmt = s.mgmt := rfl
@[simp] theorem State.setSlot_lastAnswer (s : State) (n : Fin 64) (h : HoldSlot) : (s.setSlot n h).lastAnswer = s.lastAnswer := rfl

@[simp] theorem Hart.goto_ident (h : Hart) (pc : Word) : (h.goto pc).ident = h.ident := rfl
@[simp] theorem Hart.goto_scalar (h : Hart) (pc : Word) : (h.goto pc).scalar = { h.scalar with pc := pc } := rfl
@[simp] theorem Hart.goto_xctx (h : Hart) (pc : Word) : (h.goto pc).xctx = h.xctx := rfl
@[simp] theorem Hart.goto_trap (h : Hart) (pc : Word) : (h.goto pc).trap = h.trap := rfl
@[simp] theorem Hart.goto_ctl (h : Hart) (pc : Word) : (h.goto pc).ctl = h.ctl := rfl
@[simp] theorem Hart.goto_v (h : Hart) (pc : Word) : (h.goto pc).v = { h.v with vresume := if h.marks.resuming then 0 else h.v.vresume, vresumeAt := if h.marks.resuming then none else h.v.vresumeAt } := rfl
@[simp] theorem Hart.goto_vrf (h : Hart) (pc : Word) : (h.goto pc).vrf = h.vrf := rfl
@[simp] theorem Hart.goto_masks (h : Hart) (pc : Word) : (h.goto pc).masks = h.masks := rfl
@[simp] theorem Hart.goto_strip (h : Hart) (pc : Word) : (h.goto pc).strip = h.strip := rfl
@[simp] theorem Hart.goto_closing (h : Hart) (pc : Word) : (h.goto pc).closing = h.closing := rfl
@[simp] theorem Hart.goto_sbuf (h : Hart) (pc : Word) : (h.goto pc).sbuf = h.sbuf := rfl
@[simp] theorem Hart.goto_streams (h : Hart) (pc : Word) : (h.goto pc).streams = h.streams := rfl
@[simp] theorem Hart.goto_chunks (h : Hart) (pc : Word) : (h.goto pc).chunks = h.chunks := rfl
@[simp] theorem Hart.goto_copies (h : Hart) (pc : Word) : (h.goto pc).copies = h.copies := rfl
@[simp] theorem Hart.goto_shChunks (h : Hart) (pc : Word) : (h.goto pc).shChunks = h.shChunks := rfl
@[simp] theorem Hart.goto_weights (h : Hart) (pc : Word) : (h.goto pc).weights = h.weights := rfl
@[simp] theorem Hart.goto_viq (h : Hart) (pc : Word) : (h.goto pc).viq = h.viq := rfl
@[simp] theorem Hart.goto_hist (h : Hart) (pc : Word) : (h.goto pc).hist = h.hist := rfl
@[simp] theorem Hart.goto_nextSeq (h : Hart) (pc : Word) : (h.goto pc).nextSeq = h.nextSeq := rfl
@[simp] theorem Hart.goto_lead (h : Hart) (pc : Word) : (h.goto pc).lead = h.lead := rfl
@[simp] theorem Hart.goto_marks (h : Hart) (pc : Word) : (h.goto pc).marks = { h.marks with wait := .none, resuming := false, pmaskLive := false } := rfl

@[simp] theorem Hart.discardStores_ident (h : Hart) : (h.discardStores).ident = h.ident := rfl
@[simp] theorem Hart.discardStores_scalar (h : Hart) : (h.discardStores).scalar = h.scalar := rfl
@[simp] theorem Hart.discardStores_xctx (h : Hart) : (h.discardStores).xctx = h.xctx := rfl
@[simp] theorem Hart.discardStores_trap (h : Hart) : (h.discardStores).trap = h.trap := rfl
@[simp] theorem Hart.discardStores_ctl (h : Hart) : (h.discardStores).ctl = h.ctl := rfl
@[simp] theorem Hart.discardStores_v (h : Hart) : (h.discardStores).v = h.v := rfl
@[simp] theorem Hart.discardStores_vrf (h : Hart) : (h.discardStores).vrf = h.vrf := rfl
@[simp] theorem Hart.discardStores_masks (h : Hart) : (h.discardStores).masks = h.masks := rfl
@[simp] theorem Hart.discardStores_strip (h : Hart) : (h.discardStores).strip = none := rfl
@[simp] theorem Hart.discardStores_closing (h : Hart) : (h.discardStores).closing = [] := rfl
@[simp] theorem Hart.discardStores_sbuf (h : Hart) : (h.discardStores).sbuf = h.sbuf.filter fun e => (h.stripOf e.strip).isNone := rfl
@[simp] theorem Hart.discardStores_streams (h : Hart) : (h.discardStores).streams = h.streams := rfl
@[simp] theorem Hart.discardStores_chunks (h : Hart) : (h.discardStores).chunks = h.chunks := rfl
@[simp] theorem Hart.discardStores_copies (h : Hart) : (h.discardStores).copies = h.copies := rfl
@[simp] theorem Hart.discardStores_shChunks (h : Hart) : (h.discardStores).shChunks = h.shChunks := rfl
@[simp] theorem Hart.discardStores_weights (h : Hart) : (h.discardStores).weights = h.weights := rfl
@[simp] theorem Hart.discardStores_viq (h : Hart) : (h.discardStores).viq = h.viq := rfl
@[simp] theorem Hart.discardStores_hist (h : Hart) : (h.discardStores).hist = h.hist := rfl
@[simp] theorem Hart.discardStores_nextSeq (h : Hart) : (h.discardStores).nextSeq = h.nextSeq := rfl
@[simp] theorem Hart.discardStores_lead (h : Hart) : (h.discardStores).lead = h.lead := rfl
@[simp] theorem Hart.discardStores_marks (h : Hart) : (h.discardStores).marks = h.marks := rfl

@[simp] theorem Hart.sealStrips_ident (h : Hart) : (h.sealStrips).ident = h.ident := rfl
@[simp] theorem Hart.sealStrips_scalar (h : Hart) : (h.sealStrips).scalar = h.scalar := rfl
@[simp] theorem Hart.sealStrips_xctx (h : Hart) : (h.sealStrips).xctx = h.xctx := rfl
@[simp] theorem Hart.sealStrips_trap (h : Hart) : (h.sealStrips).trap = h.trap := rfl
@[simp] theorem Hart.sealStrips_ctl (h : Hart) : (h.sealStrips).ctl = h.ctl := rfl
@[simp] theorem Hart.sealStrips_v (h : Hart) : (h.sealStrips).v = h.v := rfl
@[simp] theorem Hart.sealStrips_vrf (h : Hart) : (h.sealStrips).vrf = h.vrf := rfl
@[simp] theorem Hart.sealStrips_masks (h : Hart) : (h.sealStrips).masks = h.masks := rfl
@[simp] theorem Hart.sealStrips_strip (h : Hart) : (h.sealStrips).strip = h.strip := rfl
@[simp] theorem Hart.sealStrips_closing (h : Hart) : (h.sealStrips).closing = h.closing.map fun t => { t with sealed := true } := rfl
@[simp] theorem Hart.sealStrips_sbuf (h : Hart) : (h.sealStrips).sbuf = h.sbuf := rfl
@[simp] theorem Hart.sealStrips_streams (h : Hart) : (h.sealStrips).streams = h.streams := rfl
@[simp] theorem Hart.sealStrips_chunks (h : Hart) : (h.sealStrips).chunks = h.chunks := rfl
@[simp] theorem Hart.sealStrips_copies (h : Hart) : (h.sealStrips).copies = h.copies := rfl
@[simp] theorem Hart.sealStrips_shChunks (h : Hart) : (h.sealStrips).shChunks = h.shChunks := rfl
@[simp] theorem Hart.sealStrips_weights (h : Hart) : (h.sealStrips).weights = h.weights := rfl
@[simp] theorem Hart.sealStrips_viq (h : Hart) : (h.sealStrips).viq = h.viq := rfl
@[simp] theorem Hart.sealStrips_hist (h : Hart) : (h.sealStrips).hist = h.hist := rfl
@[simp] theorem Hart.sealStrips_nextSeq (h : Hart) : (h.sealStrips).nextSeq = h.nextSeq := rfl
@[simp] theorem Hart.sealStrips_lead (h : Hart) : (h.sealStrips).lead = h.lead := rfl
@[simp] theorem Hart.sealStrips_marks (h : Hart) : (h.sealStrips).marks = h.marks := rfl

@[simp] theorem Hart.enterHandler_ident (h : Hart) (t : Trap) : (h.enterHandler t).ident = h.ident := rfl
@[simp] theorem Hart.enterHandler_scalar (h : Hart) (t : Trap) : (h.enterHandler t).scalar = { h.scalar with pc := h.trap.tvec, level := .s } := rfl
@[simp] theorem Hart.enterHandler_xctx (h : Hart) (t : Trap) : (h.enterHandler t).xctx = h.xctx := rfl
@[simp] theorem Hart.enterHandler_trap (h : Hart) (t : Trap) : (h.enterHandler t).trap = h.trap.take h.scalar.level t := rfl
@[simp] theorem Hart.enterHandler_ctl (h : Hart) (t : Trap) : (h.enterHandler t).ctl = h.ctl := rfl
@[simp] theorem Hart.enterHandler_v (h : Hart) (t : Trap) : (h.enterHandler t).v = { h.v with vresume := t.vresume.getD h.v.vresume } := rfl
@[simp] theorem Hart.enterHandler_vrf (h : Hart) (t : Trap) : (h.enterHandler t).vrf = h.vrf := rfl
@[simp] theorem Hart.enterHandler_masks (h : Hart) (t : Trap) : (h.enterHandler t).masks = h.masks := rfl
@[simp] theorem Hart.enterHandler_strip (h : Hart) (t : Trap) : (h.enterHandler t).strip = h.strip := rfl
@[simp] theorem Hart.enterHandler_closing (h : Hart) (t : Trap) : (h.enterHandler t).closing = h.closing := rfl
@[simp] theorem Hart.enterHandler_sbuf (h : Hart) (t : Trap) : (h.enterHandler t).sbuf = h.sbuf := rfl
@[simp] theorem Hart.enterHandler_streams (h : Hart) (t : Trap) : (h.enterHandler t).streams = h.streams := rfl
@[simp] theorem Hart.enterHandler_chunks (h : Hart) (t : Trap) : (h.enterHandler t).chunks = h.chunks := rfl
@[simp] theorem Hart.enterHandler_copies (h : Hart) (t : Trap) : (h.enterHandler t).copies = h.copies := rfl
@[simp] theorem Hart.enterHandler_shChunks (h : Hart) (t : Trap) : (h.enterHandler t).shChunks = h.shChunks := rfl
@[simp] theorem Hart.enterHandler_weights (h : Hart) (t : Trap) : (h.enterHandler t).weights = h.weights := rfl
@[simp] theorem Hart.enterHandler_viq (h : Hart) (t : Trap) : (h.enterHandler t).viq = h.viq := rfl
@[simp] theorem Hart.enterHandler_hist (h : Hart) (t : Trap) : (h.enterHandler t).hist = h.hist := rfl
@[simp] theorem Hart.enterHandler_nextSeq (h : Hart) (t : Trap) : (h.enterHandler t).nextSeq = h.nextSeq := rfl
@[simp] theorem Hart.enterHandler_lead (h : Hart) (t : Trap) : (h.enterHandler t).lead = h.lead := rfl
@[simp] theorem Hart.enterHandler_marks (h : Hart) (t : Trap) : (h.enterHandler t).marks = { h.marks with wait := .none, resuming := false, pmaskLive := false } := rfl

@[simp] theorem Hart.mergeFlags_ident (h : Hart) (f : Flags) : (h.mergeFlags f).ident = h.ident := rfl
@[simp] theorem Hart.mergeFlags_scalar (h : Hart) (f : Flags) : (h.mergeFlags f).scalar = h.scalar := rfl
@[simp] theorem Hart.mergeFlags_xctx (h : Hart) (f : Flags) : (h.mergeFlags f).xctx = h.xctx := rfl
@[simp] theorem Hart.mergeFlags_trap (h : Hart) (f : Flags) : (h.mergeFlags f).trap = h.trap := rfl
@[simp] theorem Hart.mergeFlags_ctl (h : Hart) (f : Flags) : (h.mergeFlags f).ctl = h.ctl := rfl
@[simp] theorem Hart.mergeFlags_v (h : Hart) (f : Flags) : (h.mergeFlags f).v = { h.v with fflags := h.v.fflags ||| f } := rfl
@[simp] theorem Hart.mergeFlags_vrf (h : Hart) (f : Flags) : (h.mergeFlags f).vrf = h.vrf := rfl
@[simp] theorem Hart.mergeFlags_masks (h : Hart) (f : Flags) : (h.mergeFlags f).masks = h.masks := rfl
@[simp] theorem Hart.mergeFlags_strip (h : Hart) (f : Flags) : (h.mergeFlags f).strip = h.strip := rfl
@[simp] theorem Hart.mergeFlags_closing (h : Hart) (f : Flags) : (h.mergeFlags f).closing = h.closing := rfl
@[simp] theorem Hart.mergeFlags_sbuf (h : Hart) (f : Flags) : (h.mergeFlags f).sbuf = h.sbuf := rfl
@[simp] theorem Hart.mergeFlags_streams (h : Hart) (f : Flags) : (h.mergeFlags f).streams = h.streams := rfl
@[simp] theorem Hart.mergeFlags_chunks (h : Hart) (f : Flags) : (h.mergeFlags f).chunks = h.chunks := rfl
@[simp] theorem Hart.mergeFlags_copies (h : Hart) (f : Flags) : (h.mergeFlags f).copies = h.copies := rfl
@[simp] theorem Hart.mergeFlags_shChunks (h : Hart) (f : Flags) : (h.mergeFlags f).shChunks = h.shChunks := rfl
@[simp] theorem Hart.mergeFlags_weights (h : Hart) (f : Flags) : (h.mergeFlags f).weights = h.weights := rfl
@[simp] theorem Hart.mergeFlags_viq (h : Hart) (f : Flags) : (h.mergeFlags f).viq = h.viq := rfl
@[simp] theorem Hart.mergeFlags_hist (h : Hart) (f : Flags) : (h.mergeFlags f).hist = h.hist := rfl
@[simp] theorem Hart.mergeFlags_nextSeq (h : Hart) (f : Flags) : (h.mergeFlags f).nextSeq = h.nextSeq := rfl
@[simp] theorem Hart.mergeFlags_lead (h : Hart) (f : Flags) : (h.mergeFlags f).lead = h.lead := rfl
@[simp] theorem Hart.mergeFlags_marks (h : Hart) (f : Flags) : (h.mergeFlags f).marks = h.marks := rfl

@[simp] theorem Hart.setStream_ident (h : Hart) (i : Fin 4) (q : Option StreamSlot) : (h.setStream i q).ident = h.ident := rfl
@[simp] theorem Hart.setStream_scalar (h : Hart) (i : Fin 4) (q : Option StreamSlot) : (h.setStream i q).scalar = h.scalar := rfl
@[simp] theorem Hart.setStream_xctx (h : Hart) (i : Fin 4) (q : Option StreamSlot) : (h.setStream i q).xctx = h.xctx := rfl
@[simp] theorem Hart.setStream_trap (h : Hart) (i : Fin 4) (q : Option StreamSlot) : (h.setStream i q).trap = h.trap := rfl
@[simp] theorem Hart.setStream_ctl (h : Hart) (i : Fin 4) (q : Option StreamSlot) : (h.setStream i q).ctl = h.ctl := rfl
@[simp] theorem Hart.setStream_v (h : Hart) (i : Fin 4) (q : Option StreamSlot) : (h.setStream i q).v = h.v := rfl
@[simp] theorem Hart.setStream_vrf (h : Hart) (i : Fin 4) (q : Option StreamSlot) : (h.setStream i q).vrf = h.vrf := rfl
@[simp] theorem Hart.setStream_masks (h : Hart) (i : Fin 4) (q : Option StreamSlot) : (h.setStream i q).masks = h.masks := rfl
@[simp] theorem Hart.setStream_strip (h : Hart) (i : Fin 4) (q : Option StreamSlot) : (h.setStream i q).strip = h.strip := rfl
@[simp] theorem Hart.setStream_closing (h : Hart) (i : Fin 4) (q : Option StreamSlot) : (h.setStream i q).closing = h.closing := rfl
@[simp] theorem Hart.setStream_sbuf (h : Hart) (i : Fin 4) (q : Option StreamSlot) : (h.setStream i q).sbuf = h.sbuf := rfl
@[simp] theorem Hart.setStream_streams (h : Hart) (i : Fin 4) (q : Option StreamSlot) : (h.setStream i q).streams = h.streams.set i q := rfl
@[simp] theorem Hart.setStream_chunks (h : Hart) (i : Fin 4) (q : Option StreamSlot) : (h.setStream i q).chunks = h.chunks := rfl
@[simp] theorem Hart.setStream_copies (h : Hart) (i : Fin 4) (q : Option StreamSlot) : (h.setStream i q).copies = h.copies := rfl
@[simp] theorem Hart.setStream_shChunks (h : Hart) (i : Fin 4) (q : Option StreamSlot) : (h.setStream i q).shChunks = h.shChunks := rfl
@[simp] theorem Hart.setStream_weights (h : Hart) (i : Fin 4) (q : Option StreamSlot) : (h.setStream i q).weights = h.weights := rfl
@[simp] theorem Hart.setStream_viq (h : Hart) (i : Fin 4) (q : Option StreamSlot) : (h.setStream i q).viq = h.viq := rfl
@[simp] theorem Hart.setStream_hist (h : Hart) (i : Fin 4) (q : Option StreamSlot) : (h.setStream i q).hist = h.hist := rfl
@[simp] theorem Hart.setStream_nextSeq (h : Hart) (i : Fin 4) (q : Option StreamSlot) : (h.setStream i q).nextSeq = h.nextSeq := rfl
@[simp] theorem Hart.setStream_lead (h : Hart) (i : Fin 4) (q : Option StreamSlot) : (h.setStream i q).lead = h.lead := rfl
@[simp] theorem Hart.setStream_marks (h : Hart) (i : Fin 4) (q : Option StreamSlot) : (h.setStream i q).marks = h.marks := rfl

@[simp] theorem Hart.setChunks_ident (h : Hart) (m : Fin 64) (c : ChunkMap) : (h.setChunks m c).ident = h.ident := rfl
@[simp] theorem Hart.setChunks_scalar (h : Hart) (m : Fin 64) (c : ChunkMap) : (h.setChunks m c).scalar = h.scalar := rfl
@[simp] theorem Hart.setChunks_xctx (h : Hart) (m : Fin 64) (c : ChunkMap) : (h.setChunks m c).xctx = h.xctx := rfl
@[simp] theorem Hart.setChunks_trap (h : Hart) (m : Fin 64) (c : ChunkMap) : (h.setChunks m c).trap = h.trap := rfl
@[simp] theorem Hart.setChunks_ctl (h : Hart) (m : Fin 64) (c : ChunkMap) : (h.setChunks m c).ctl = h.ctl := rfl
@[simp] theorem Hart.setChunks_v (h : Hart) (m : Fin 64) (c : ChunkMap) : (h.setChunks m c).v = h.v := rfl
@[simp] theorem Hart.setChunks_vrf (h : Hart) (m : Fin 64) (c : ChunkMap) : (h.setChunks m c).vrf = h.vrf := rfl
@[simp] theorem Hart.setChunks_masks (h : Hart) (m : Fin 64) (c : ChunkMap) : (h.setChunks m c).masks = h.masks := rfl
@[simp] theorem Hart.setChunks_strip (h : Hart) (m : Fin 64) (c : ChunkMap) : (h.setChunks m c).strip = h.strip := rfl
@[simp] theorem Hart.setChunks_closing (h : Hart) (m : Fin 64) (c : ChunkMap) : (h.setChunks m c).closing = h.closing := rfl
@[simp] theorem Hart.setChunks_sbuf (h : Hart) (m : Fin 64) (c : ChunkMap) : (h.setChunks m c).sbuf = h.sbuf := rfl
@[simp] theorem Hart.setChunks_streams (h : Hart) (m : Fin 64) (c : ChunkMap) : (h.setChunks m c).streams = h.streams := rfl
@[simp] theorem Hart.setChunks_chunks (h : Hart) (m : Fin 64) (c : ChunkMap) : (h.setChunks m c).chunks = h.chunks.set m c := rfl
@[simp] theorem Hart.setChunks_copies (h : Hart) (m : Fin 64) (c : ChunkMap) : (h.setChunks m c).copies = h.copies := rfl
@[simp] theorem Hart.setChunks_shChunks (h : Hart) (m : Fin 64) (c : ChunkMap) : (h.setChunks m c).shChunks = h.shChunks := rfl
@[simp] theorem Hart.setChunks_weights (h : Hart) (m : Fin 64) (c : ChunkMap) : (h.setChunks m c).weights = h.weights := rfl
@[simp] theorem Hart.setChunks_viq (h : Hart) (m : Fin 64) (c : ChunkMap) : (h.setChunks m c).viq = h.viq := rfl
@[simp] theorem Hart.setChunks_hist (h : Hart) (m : Fin 64) (c : ChunkMap) : (h.setChunks m c).hist = h.hist := rfl
@[simp] theorem Hart.setChunks_nextSeq (h : Hart) (m : Fin 64) (c : ChunkMap) : (h.setChunks m c).nextSeq = h.nextSeq := rfl
@[simp] theorem Hart.setChunks_lead (h : Hart) (m : Fin 64) (c : ChunkMap) : (h.setChunks m c).lead = h.lead := rfl
@[simp] theorem Hart.setChunks_marks (h : Hart) (m : Fin 64) (c : ChunkMap) : (h.setChunks m c).marks = h.marks := rfl

end Sys2Proof.Machine

end
end

