-- ==== Sys2Proof/Laws/Ops.lean ====
section
/-! SUPPORT. What the shared operations do: registers, issue, transfers, commits, traps and the end of a step. -/

noncomputable section

namespace Sys2Proof.Machine

/-! ### Registers -/

theorem Hart.readX_zero (h : Hart) : h.readX 0 = 0 := rfl

theorem Hart.readX_writeX (h : Hart) (d r : XReg) (v : Word) :
    (h.writeX d v).readX r = if r = d ∧ d ≠ 0 then v else h.readX r := by
  by_cases hd : d = 0
  · simp [Hart.writeX, hd]
  · by_cases hr : r = d
    · subst hr
      simp [Hart.readX, Hart.writeX, hd]
    · by_cases h0 : r = 0
      · subst h0
        simp [Hart.readX, hr]
      · have hv : (d : Nat) ≠ (r : Nat) := fun he => hr (Fin.ext he.symm)
        simp [Hart.readX, Hart.writeX, hd, hr, h0, hv]

theorem Hart.readX_record (h : Hart) (i : Nat → HistItem) (r : XReg) : (h.record i).readX r = h.readX r := by
  unfold Hart.record; split <;> rfl

theorem State.x_writeX (s : State) (d r : XReg) (v : Word) :
    (s.writeX d v).x r = if r = d ∧ d ≠ 0 then v else s.x r := by
  simp [State.x, State.writeX, Hart.readX_writeX, Hart.readX_record]

theorem Hart.readX_goto (h : Hart) (pc : Word) (r : XReg) : (h.goto pc).readX r = h.readX r := rfl

theorem State.x_advance (s : State) (r : XReg) : s.advance.x r = s.x r := rfl

theorem State.x_wrote (s : State) (d r : XReg) (v : Word) :
    (s.wrote d v).x r = if r = d ∧ d ≠ 0 then v else s.x r := by
  rw [State.wrote, State.x_advance, State.x_writeX]

theorem State.advance_pc (s : State) : s.advance.hart.scalar.pc = s.hart.nextPc := rfl

theorem State.jump_pc (s : State) (target : Word) : (s.jump target).hart.scalar.pc = target := rfl

theorem State.wrote_pc (s : State) (d : XReg) (v : Word) : (s.wrote d v).hart.scalar.pc = s.hart.nextPc := by
  unfold State.wrote State.writeX Hart.writeX Hart.record
  rw [State.advance_pc]
  simp only [State.withHart_hart]
  split <;> split <;> rfl

/-- A scalar instruction that completes changes nothing outside its hart. -/
theorem State.wrote_package (s : State) (d : XReg) (v : Word) : s.samePackage (s.wrote d v) :=
  ⟨rfl, fun _ => rfl, fun _ => rfl, rfl⟩

/-! ### Issue -/

theorem State.classed_ok {s : State} {c : Nat} (k : State → State) (h : s.mayUse c) : s.classed c k = k s := by
  obtain ⟨hu, hc⟩ := h
  have h1 : ¬(s.hart.scalar.level = .u ∧ (!s.hart.ctl.usemask.getLsbD c) = true) := by
    rcases hu with hs | hm
    · simp [hs]
    · simp [hm]
  simp only [State.classed, h1, hc, if_false, Bool.not_true, Bool.false_eq_true]

theorem Hart.pendingX_nil {h : Hart} (hv : h.viq = []) (r : XReg) : h.pendingX r = false := by
  simp [Hart.pendingX, hv]

theorem State.scalar_ready {s : State} {c : Nat} (rs ws : List XReg) (k : State → State) (h : s.isReady c) :
    s.scalar c rs ws k = k s := by
  obtain ⟨hu, hv, hb, -⟩ := h
  have hf : rs.find? s.hart.badX = none := by simp [List.find?_eq_none, Hart.badX, hb]
  rw [State.scalar, State.classed_ok _ hu]
  simp [Hart.pendingX_nil hv, hv, hf]

/-- An instruction that commits its strip goes on where no word of the hart holds an error. -/
theorem State.committing_clean {s : State} (b : Bool) (k : State → State) (h : s.hart.marks.badRegs = []) :
    s.committing b k = k s := by
  simp [State.committing, State.badBuffer, h]

/-- Without an error in a storage place an instruction commits what it commits (R380). -/
theorem State.drained_clean {s : State} (t : State) (h : s.hart.marks.badRegs = []) : s.drained t = t := by
  simp [State.drained, State.badBuffer, h]

theorem State.scalarAlone_ready {s : State} {c : Nat} (rs ws : List XReg) (k : State → State) (h : s.isReady c) :
    s.scalarAlone c rs ws k = k s := by
  rw [State.scalarAlone, State.scalar_ready rs ws _ h]
  simp [h.2.1, State.drained_clean _ h.2.2.1]

theorem State.scalar_issues {s : State} {c : Nat} {rs ws : List XReg} (k : State → State) (h : s.canIssue c (rs ++ ws)) :
    s.scalar c rs ws k = k s := by
  obtain ⟨hu, hp, hh, hb⟩ := h
  have h1 : (rs ++ ws).any s.hart.pendingX = false := by
    rw [List.any_eq_false]
    intro r hr
    simp [hp r hr]
  have h2 : (!s.hart.viq.isEmpty && decide (64 ≤ s.hart.hist.length)) = false := by
    rcases hh with hv | hl
    · simp [hv]
    · have : ¬64 ≤ s.hart.hist.length := by omega
      simp [this]
  have hf : rs.find? s.hart.badX = none := by simp [List.find?_eq_none, Hart.badX, hb]
  rw [State.scalar, State.classed_ok _ hu]
  simp [h1, h2, hf]

/-! ### Transfers and traps -/

/-- A legal target: the transfer is made (R45). -/
theorem State.checkTarget_ok {s t : State} {lvl : Level} {target : Word} (k : State → State)
    (h : s.targetIllegal lvl target = (t, .ok false)) : s.checkTarget lvl target k = k t := by
  simp [State.checkTarget, h]

/-- An illegal target traps with nothing done (R45). -/
theorem State.checkTarget_illegal {s t : State} {lvl : Level} {target : Word} (k : State → State)
    (h : s.targetIllegal lvl target = (t, .ok true)) : s.checkTarget lvl target k = t.trap 0x02 target := by
  simp [State.checkTarget, h]

theorem State.transfer_ok {s t : State} {target : Word} (k : State → State)
    (h : s.targetIllegal s.hart.scalar.level target = (t, .ok false)) : s.transfer target k = (k t).jump target := by
  rw [State.transfer, State.checkTarget_ok _ h]

theorem State.transfer_illegal {s t : State} {target : Word} (k : State → State)
    (h : s.targetIllegal s.hart.scalar.level target = (t, .ok true)) : s.transfer target k = t.trap 0x02 target := by
  rw [State.transfer, State.checkTarget_illegal _ h]

/-- Taking an exception that is no double trap (R371). -/
theorem State.enterTrap_ok {s t : State} (tr : Trap) (h : s.canTrap t) :
    s.enterTrap tr = t.commit.withHart fun k => k.enterHandler tr := by
  obtain ⟨hi, ht⟩ := h
  simp [State.enterTrap, hi, ht]

/-- A trap of a hart in its handler is a double trap (R373). -/
theorem State.enterTrap_double {s : State} (tr : Trap) (h : s.hart.trap.inTrap = true) :
    s.enterTrap tr = s.doubleTrap tr.cause := by
  simp [State.enterTrap, h]

theorem State.takeTrap_idle {s : State} (tr : Trap) (h : s.hart.viq = []) : s.takeTrap tr = s.enterTrap tr := by
  simp [State.takeTrap, h]

/-- What the handler finds (R371). -/
theorem Hart.enterHandler_finds (h : Hart) (t : Trap) :
    (h.enterHandler t).trap = h.trap.take h.scalar.level t ∧ (h.enterHandler t).scalar.pc = h.trap.tvec ∧
      (h.enterHandler t).scalar.level = .s ∧ ∀ r, (h.enterHandler t).readX r = h.readX r :=
  ⟨rfl, rfl, rfl, fun _ => rfl⟩

/-! ### Commits -/

theorem State.portWrite_harts (s : State) (p : Fin 8) (v : Word) :
    (s.portWrite p v).hart = s.hart ∧ (s.portWrite p v).others = s.others := by
  unfold State.portWrite
  repeat' split
  all_goals exact ⟨rfl, rfl⟩

theorem State.fdieWrite_harts (s : State) (off : Nat) (v : Word) :
    (s.fdieWrite off v).hart = s.hart ∧ (s.fdieWrite off v).others = s.others := by
  unfold State.fdieWrite State.tlbInvalidateRegister State.powerRequest State.tlbDrop
  repeat' (first | split | (simp only []; split))
  all_goals exact ⟨rfl, rfl⟩

theorem State.ite_harts {s a b : State} {c : Prop} [Decidable c] (ha : a.hart = s.hart ∧ a.others = s.others)
    (hb : b.hart = s.hart ∧ b.others = s.others) :
    (if c then a else b).hart = s.hart ∧ (if c then a else b).others = s.others := by
  split <;> assumption

/-- A write of the device register space changes no hart. -/
theorem State.deviceWrite_harts (s : State) (cls : Fin 5) (la : Nat) (bs : List Byte) :
    (s.deviceWrite cls la bs).hart = s.hart ∧ (s.deviceWrite cls la bs).others = s.others := by
  unfold State.deviceWrite
  extract_lets o v
  refine State.ite_harts ⟨rfl, rfl⟩ (State.ite_harts ⟨rfl, rfl⟩ (State.ite_harts (State.portWrite_harts s _ _) ?_))
  refine State.ite_harts ⟨rfl, rfl⟩ (State.ite_harts ?_ (State.ite_harts (State.fdieWrite_harts s _ _) ?_))
  · unfold State.writeLpctx; split <;> exact ⟨rfl, rfl⟩
  refine State.ite_harts (State.ite_harts ⟨rfl, rfl⟩ ⟨rfl, rfl⟩) (State.ite_harts ⟨rfl, rfl⟩ (State.ite_harts ?_ ⟨rfl, rfl⟩))
  exact State.ite_harts ⟨rfl, rfl⟩ (State.ite_harts ⟨rfl, rfl⟩ ⟨rfl, rfl⟩)

theorem State.writePeer_harts (s : State) (p : Peer) (pa : Nat) (bs : List Byte) :
    (s.writePeer p pa bs).hart = s.hart ∧ (s.writePeer p pa bs).others = s.others := by
  exact ⟨rfl, rfl⟩

/-- A store that becomes visible changes no hart. -/
theorem State.physWrite_hart (s : State) (r : Requester) (pa : Nat) (bs : List Byte) :
    (s.physWrite r pa bs).hart = s.hart ∧ (s.physWrite r pa bs).others = s.others := by
  unfold State.physWrite
  simp only []
  split
  · split
    · exact ⟨(State.deviceWrite_harts s _ _ _).1, (State.deviceWrite_harts s _ _ _).2⟩
    · exact ⟨rfl, rfl⟩
    · exact ⟨rfl, rfl⟩
  · split
    · exact ⟨rfl, rfl⟩
    · exact State.writePeer_harts s _ _ _

theorem State.performStore_harts (s : State) (e : StoreEntry) :
    (s.performStore e).hart = s.hart ∧ (s.performStore e).others = s.others := by
  unfold State.performStore
  split
  · exact ⟨rfl, rfl⟩
  · exact State.physWrite_hart s _ _ _

theorem State.performStores_harts (es : List StoreEntry) (s : State) :
    (es.foldl State.performStore s).hart = s.hart ∧ (es.foldl State.performStore s).others = s.others := by
  induction es generalizing s with
  | nil => exact ⟨rfl, rfl⟩
  | cons e rest ih =>
    have h := State.performStore_harts s e
    exact ⟨(ih _).1.trans h.1, (ih _).2.trans h.2⟩

/-- The hart after its due stores became visible: only its buffer is shorter (R238). -/
theorem State.flushStores_hart (s : State) :
    s.flushStores.hart = { s.hart with sbuf := s.hart.sbuf.filter fun e => !s.hart.visible e } ∧
      s.flushStores.others = s.others := by
  have h := State.performStores_harts (s.hart.sbuf.filter s.hart.visible) s
  simp [State.flushStores, h.1, h.2]

/-- The open strip is closed by its commit (R24). -/
theorem State.commit_closes (s : State) : s.commit.hart.strip = none ∧ s.commit.others = s.others := by
  unfold State.commit State.settleStores
  rw [(State.flushStores_hart _).1, (State.flushStores_hart _).2]
  refine ⟨?_, rfl⟩
  simp only [State.withHart_hart, Hart.closeStrip, Hart.sealStrips]
  split
  · rfl
  · assumption

/-! ### The end of a step -/

theorem finishStep_next (turn : Bool) (t : State) : ∃ u, finishStep turn (.next t) = .next u ∧ u.tick = (if turn then
    (t.withHart Hart.stepDone).rotate else t).tick + 1 := by
  cases turn <;> exact ⟨_, rfl, rfl⟩

/-- A step answers a next state or the fault of an agenda entry that is no input. -/
theorem finishStep_of_next {turn : Bool} {a : Answered} {u : State} (h : finishStep turn a = .next u) :
    ∃ t, a = .next t := by
  cases a with
  | next t => exact ⟨t, rfl⟩
  | fault f => cases h
  | refused r => cases h

end Sys2Proof.Machine

end
end

