-- ==== Sys2Proof/Laws/PerInstr.lean ====
section
/-! SUPPORT. One lemma per constructor: what an instruction encodes to fits its words. -/

namespace Sys2Proof

theorem bit01_le (b : Bool) : bit01 b ≤ 1 := by cases b <;> decide
theorem Scope.code_le (x : Scope) : x.code ≤ 4 := by cases x <;> decide
theorem Width.code_le (c : Width) : c.code ≤ 3 := by cases c <;> decide
theorem FFmt.code_le (c : FFmt) : c.code ≤ 3 := by cases c <;> decide
theorem Rounding.code_le (c : Rounding) : c.code ≤ 3 := by cases c <;> decide
theorem MemSize.code_le (c : MemSize) : c.code ≤ 3 := by cases c <;> decide
theorem MemOrder.code_le (c : MemOrder) : c.code ≤ 3 := by cases c <;> decide
theorem WaitCond.code_le (c : WaitCond) : c.code ≤ 3 := by cases c <;> decide
theorem Axis.code_le (c : Axis) : c.code ≤ 1 := by cases c <;> decide
theorem ValFmt.code_le (c : ValFmt) : c.code ≤ 4 := by cases c <;> decide
theorem VX.code_le (b : VX) : b.code ≤ 127 := by cases b <;> simp only [VX.code] <;> omega
theorem VX.sx_le (b : VX) : b.sx ≤ 1 := by cases b <;> simp [VX.sx]
theorem v0Code_lt (r : Option VReg) : v0Code r < 128 := by
  cases r with
  | none => decide
  | some r => simp only [v0Code]; omega

namespace Laws

/-- An instruction that has an encoding has a head of 16 bits and a tail of the length that the head names (R38, R46). -/
def Fits.Statement (i : Instr) : Prop := ∀ p, encode i = some p → p.1 < 65536 ∧ p.2 < 2 ^ (16 * tailWords p.1)

theorem Fits.of_words {i : Instr} {a b : Nat} (k : Nat) (h : encode i = some (a, b)) (ha : a < 65536)
    (hk : a / 128 % 4 = k) (hb : b < 2 ^ (16 * k)) : Fits.Statement i := by
  intro p hp
  rw [h] at hp
  cases hp
  exact ⟨ha, by simpa [tailWords, hk] using hb⟩

theorem Fits.of_none {i : Instr} (h : encode i = none) : Fits.Statement i := by
  intro p hp
  rw [h] at hp
  cases hp

theorem Fits.add : ∀ o, Fits.Statement (.add o) := by
  intro o
  exact Fits.of_words 2 rfl (by omega) (by omega) (by omega)

theorem Fits.sub : ∀ o, Fits.Statement (.sub o) := by
  intro o
  exact Fits.of_words 2 rfl (by omega) (by omega) (by omega)

theorem Fits.and : ∀ o, Fits.Statement (.and o) := by
  intro o
  exact Fits.of_words 2 rfl (by omega) (by omega) (by omega)

theorem Fits.or : ∀ o, Fits.Statement (.or o) := by
  intro o
  exact Fits.of_words 2 rfl (by omega) (by omega) (by omega)

theorem Fits.xor : ∀ o, Fits.Statement (.xor o) := by
  intro o
  exact Fits.of_words 2 rfl (by omega) (by omega) (by omega)

theorem Fits.andn : ∀ o, Fits.Statement (.andn o) := by
  intro o
  exact Fits.of_words 2 rfl (by omega) (by omega) (by omega)

theorem Fits.shl : ∀ o, Fits.Statement (.shl o) := by
  intro o
  exact Fits.of_words 2 rfl (by omega) (by omega) (by omega)

theorem Fits.shr : ∀ o, Fits.Statement (.shr o) := by
  intro o
  exact Fits.of_words 2 rfl (by omega) (by omega) (by omega)

theorem Fits.sra : ∀ o, Fits.Statement (.sra o) := by
  intro o
  exact Fits.of_words 2 rfl (by omega) (by omega) (by omega)

theorem Fits.rol : ∀ o, Fits.Statement (.rol o) := by
  intro o
  exact Fits.of_words 2 rfl (by omega) (by omega) (by omega)

theorem Fits.mul : ∀ o, Fits.Statement (.mul o) := by
  intro o
  exact Fits.of_words 2 rfl (by omega) (by omega) (by omega)

theorem Fits.mulh : ∀ o, Fits.Statement (.mulh o) := by
  intro o
  exact Fits.of_words 2 rfl (by omega) (by omega) (by omega)

theorem Fits.mulhu : ∀ o, Fits.Statement (.mulhu o) := by
  intro o
  exact Fits.of_words 2 rfl (by omega) (by omega) (by omega)

theorem Fits.div : ∀ o, Fits.Statement (.div o) := by
  intro o
  exact Fits.of_words 2 rfl (by omega) (by omega) (by omega)

theorem Fits.divu : ∀ o, Fits.Statement (.divu o) := by
  intro o
  exact Fits.of_words 2 rfl (by omega) (by omega) (by omega)

theorem Fits.rem : ∀ o, Fits.Statement (.rem o) := by
  intro o
  exact Fits.of_words 2 rfl (by omega) (by omega) (by omega)

theorem Fits.remu : ∀ o, Fits.Statement (.remu o) := by
  intro o
  exact Fits.of_words 2 rfl (by omega) (by omega) (by omega)

theorem Fits.min : ∀ o, Fits.Statement (.min o) := by
  intro o
  exact Fits.of_words 2 rfl (by omega) (by omega) (by omega)

theorem Fits.max : ∀ o, Fits.Statement (.max o) := by
  intro o
  exact Fits.of_words 2 rfl (by omega) (by omega) (by omega)

theorem Fits.minu : ∀ o, Fits.Statement (.minu o) := by
  intro o
  exact Fits.of_words 2 rfl (by omega) (by omega) (by omega)

theorem Fits.maxu : ∀ o, Fits.Statement (.maxu o) := by
  intro o
  exact Fits.of_words 2 rfl (by omega) (by omega) (by omega)

theorem Fits.slt : ∀ o, Fits.Statement (.slt o) := by
  intro o
  exact Fits.of_words 2 rfl (by omega) (by omega) (by omega)

theorem Fits.sltu : ∀ o, Fits.Statement (.sltu o) := by
  intro o
  exact Fits.of_words 2 rfl (by omega) (by omega) (by omega)

theorem Fits.clz : ∀ o, Fits.Statement (.clz o) := by
  intro o
  exact Fits.of_words 2 rfl (by omega) (by omega) (by omega)

theorem Fits.ctz : ∀ o, Fits.Statement (.ctz o) := by
  intro o
  exact Fits.of_words 2 rfl (by omega) (by omega) (by omega)

theorem Fits.popc : ∀ o, Fits.Statement (.popc o) := by
  intro o
  exact Fits.of_words 2 rfl (by omega) (by omega) (by omega)

theorem Fits.bswap : ∀ o, Fits.Statement (.bswap o) := by
  intro o
  exact Fits.of_words 2 rfl (by omega) (by omega) (by omega)

theorem Fits.addi : ∀ o, Fits.Statement (.addi o) := by
  intro o
  exact Fits.of_words 2 rfl (by omega) (by omega) (by omega)

theorem Fits.andi : ∀ o, Fits.Statement (.andi o) := by
  intro o
  exact Fits.of_words 2 rfl (by omega) (by omega) (by omega)

theorem Fits.ori : ∀ o, Fits.Statement (.ori o) := by
  intro o
  exact Fits.of_words 2 rfl (by omega) (by omega) (by omega)

theorem Fits.xori : ∀ o, Fits.Statement (.xori o) := by
  intro o
  exact Fits.of_words 2 rfl (by omega) (by omega) (by omega)

theorem Fits.slti : ∀ o, Fits.Statement (.slti o) := by
  intro o
  exact Fits.of_words 2 rfl (by omega) (by omega) (by omega)

theorem Fits.sltiu : ∀ o, Fits.Statement (.sltiu o) := by
  intro o
  exact Fits.of_words 2 rfl (by omega) (by omega) (by omega)

theorem Fits.shli : ∀ o, Fits.Statement (.shli o) := by
  intro o
  exact Fits.of_words 2 rfl (by omega) (by omega) (by omega)

theorem Fits.shri : ∀ o, Fits.Statement (.shri o) := by
  intro o
  exact Fits.of_words 2 rfl (by omega) (by omega) (by omega)

theorem Fits.srai : ∀ o, Fits.Statement (.srai o) := by
  intro o
  exact Fits.of_words 2 rfl (by omega) (by omega) (by omega)

theorem Fits.roli : ∀ o, Fits.Statement (.roli o) := by
  intro o
  exact Fits.of_words 2 rfl (by omega) (by omega) (by omega)

theorem Fits.li : ∀ o, Fits.Statement (.li o) := by
  intro o
  exact Fits.of_words 2 rfl (by omega) (by omega) (by omega)

theorem Fits.lih : ∀ o, Fits.Statement (.lih o) := by
  intro o
  exact Fits.of_words 2 rfl (by omega) (by omega) (by omega)

theorem Fits.sel : ∀ o, Fits.Statement (.sel o) := by
  intro o
  exact Fits.of_words 3 rfl (by omega) (by omega) (by omega)

theorem Fits.ldb : ∀ o, Fits.Statement (.ldb o) := by
  intro o
  exact Fits.of_words 2 rfl (by omega) (by omega) (by omega)

theorem Fits.ldbu : ∀ o, Fits.Statement (.ldbu o) := by
  intro o
  exact Fits.of_words 2 rfl (by omega) (by omega) (by omega)

theorem Fits.ldh : ∀ o, Fits.Statement (.ldh o) := by
  intro o
  exact Fits.of_words 2 rfl (by omega) (by omega) (by omega)

theorem Fits.ldhu : ∀ o, Fits.Statement (.ldhu o) := by
  intro o
  exact Fits.of_words 2 rfl (by omega) (by omega) (by omega)

theorem Fits.ldw : ∀ o, Fits.Statement (.ldw o) := by
  intro o
  exact Fits.of_words 2 rfl (by omega) (by omega) (by omega)

theorem Fits.ldwu : ∀ o, Fits.Statement (.ldwu o) := by
  intro o
  exact Fits.of_words 2 rfl (by omega) (by omega) (by omega)

theorem Fits.ldd : ∀ o, Fits.Statement (.ldd o) := by
  intro o
  exact Fits.of_words 2 rfl (by omega) (by omega) (by omega)

theorem Fits.stb : ∀ o, Fits.Statement (.stb o) := by
  intro o
  exact Fits.of_words 2 rfl (by omega) (by omega) (by omega)

theorem Fits.sth : ∀ o, Fits.Statement (.sth o) := by
  intro o
  exact Fits.of_words 2 rfl (by omega) (by omega) (by omega)

theorem Fits.stw : ∀ o, Fits.Statement (.stw o) := by
  intro o
  exact Fits.of_words 2 rfl (by omega) (by omega) (by omega)

theorem Fits.std : ∀ o, Fits.Statement (.std o) := by
  intro o
  exact Fits.of_words 2 rfl (by omega) (by omega) (by omega)

theorem Fits.ldaq : ∀ o, Fits.Statement (.ldaq o) := by
  intro o
  have := o.size.code_le; have := bit01_le o.sgn; have := o.scope.code_le
  exact Fits.of_words 2 rfl (by omega) (by omega) (by omega)

theorem Fits.strl : ∀ o, Fits.Statement (.strl o) := by
  intro o
  have := o.size.code_le; have := o.scope.code_le
  exact Fits.of_words 2 rfl (by omega) (by omega) (by omega)

theorem Fits.amoadd : ∀ o, Fits.Statement (.amoadd o) := by
  intro o
  have := bit01_le o.dbl; have := o.scope.code_le; have := o.ord.code_le
  exact Fits.of_words 2 rfl (by omega) (by omega) (by omega)

theorem Fits.amomin : ∀ o, Fits.Statement (.amomin o) := by
  intro o
  have := bit01_le o.dbl; have := o.scope.code_le; have := o.ord.code_le
  exact Fits.of_words 2 rfl (by omega) (by omega) (by omega)

theorem Fits.amomax : ∀ o, Fits.Statement (.amomax o) := by
  intro o
  have := bit01_le o.dbl; have := o.scope.code_le; have := o.ord.code_le
  exact Fits.of_words 2 rfl (by omega) (by omega) (by omega)

theorem Fits.amominu : ∀ o, Fits.Statement (.amominu o) := by
  intro o
  have := bit01_le o.dbl; have := o.scope.code_le; have := o.ord.code_le
  exact Fits.of_words 2 rfl (by omega) (by omega) (by omega)

theorem Fits.amomaxu : ∀ o, Fits.Statement (.amomaxu o) := by
  intro o
  have := bit01_le o.dbl; have := o.scope.code_le; have := o.ord.code_le
  exact Fits.of_words 2 rfl (by omega) (by omega) (by omega)

theorem Fits.amoand : ∀ o, Fits.Statement (.amoand o) := by
  intro o
  have := bit01_le o.dbl; have := o.scope.code_le; have := o.ord.code_le
  exact Fits.of_words 2 rfl (by omega) (by omega) (by omega)

theorem Fits.amoor : ∀ o, Fits.Statement (.amoor o) := by
  intro o
  have := bit01_le o.dbl; have := o.scope.code_le; have := o.ord.code_le
  exact Fits.of_words 2 rfl (by omega) (by omega) (by omega)

theorem Fits.amoxor : ∀ o, Fits.Statement (.amoxor o) := by
  intro o
  have := bit01_le o.dbl; have := o.scope.code_le; have := o.ord.code_le
  exact Fits.of_words 2 rfl (by omega) (by omega) (by omega)

theorem Fits.amoswp : ∀ o, Fits.Statement (.amoswp o) := by
  intro o
  have := bit01_le o.dbl; have := o.scope.code_le; have := o.ord.code_le
  exact Fits.of_words 2 rfl (by omega) (by omega) (by omega)

theorem Fits.cas : ∀ o, Fits.Statement (.cas o) := by
  intro o
  have := bit01_le o.dbl; have := o.scope.code_le; have := o.ord.code_le
  exact Fits.of_words 3 rfl (by omega) (by omega) (by omega)

theorem Fits.beq : ∀ o, Fits.Statement (.beq o) := by
  intro o
  exact Fits.of_words 2 rfl (by omega) (by omega) (by omega)

theorem Fits.bne : ∀ o, Fits.Statement (.bne o) := by
  intro o
  exact Fits.of_words 2 rfl (by omega) (by omega) (by omega)

theorem Fits.blt : ∀ o, Fits.Statement (.blt o) := by
  intro o
  exact Fits.of_words 2 rfl (by omega) (by omega) (by omega)

theorem Fits.bge : ∀ o, Fits.Statement (.bge o) := by
  intro o
  exact Fits.of_words 2 rfl (by omega) (by omega) (by omega)

theorem Fits.bltu : ∀ o, Fits.Statement (.bltu o) := by
  intro o
  exact Fits.of_words 2 rfl (by omega) (by omega) (by omega)

theorem Fits.bgeu : ∀ o, Fits.Statement (.bgeu o) := by
  intro o
  exact Fits.of_words 2 rfl (by omega) (by omega) (by omega)

theorem Fits.jmp : ∀ o, Fits.Statement (.jmp o) := by
  intro o
  exact Fits.of_words 2 rfl (by omega) (by omega) (by omega)

theorem Fits.call : ∀ o, Fits.Statement (.call o) := by
  intro o
  exact Fits.of_words 2 rfl (by omega) (by omega) (by omega)

theorem Fits.jr : ∀ r, Fits.Statement (.jr r) := by
  intro r
  exact Fits.of_words 1 rfl (by omega) (by omega) (by omega)

theorem Fits.callr : ∀ r, Fits.Statement (.callr r) := by
  intro r
  exact Fits.of_words 1 rfl (by omega) (by omega) (by omega)

theorem Fits.ret : Fits.Statement (.ret) := by
  exact Fits.of_words 0 rfl (by omega) (by omega) (by omega)

theorem Fits.bmany : ∀ o, Fits.Statement (.bmany o) := by
  intro o
  exact Fits.of_words 2 rfl (by omega) (by omega) (by omega)

theorem Fits.bmnone : ∀ o, Fits.Statement (.bmnone o) := by
  intro o
  exact Fits.of_words 2 rfl (by omega) (by omega) (by omega)

theorem Fits.nop : Fits.Statement (.nop) := by
  exact Fits.of_words 0 rfl (by omega) (by omega) (by omega)

theorem Fits.yield : Fits.Statement (.yield) := by
  exact Fits.of_words 0 rfl (by omega) (by omega) (by omega)

theorem Fits.halt : Fits.Statement (.halt) := by
  exact Fits.of_words 0 rfl (by omega) (by omega) (by omega)

theorem Fits.eret : Fits.Statement (.eret) := by
  exact Fits.of_words 0 rfl (by omega) (by omega) (by omega)

theorem Fits.brk : Fits.Statement (.brk) := by
  exact Fits.of_words 0 rfl (by omega) (by omega) (by omega)

theorem Fits.csrrw : ∀ o, Fits.Statement (.csrrw o) := by
  intro o
  exact Fits.of_words 2 rfl (by omega) (by omega) (by omega)

theorem Fits.csrrs : ∀ o, Fits.Statement (.csrrs o) := by
  intro o
  exact Fits.of_words 2 rfl (by omega) (by omega) (by omega)

theorem Fits.csrrc : ∀ o, Fits.Statement (.csrrc o) := by
  intro o
  exact Fits.of_words 2 rfl (by omega) (by omega) (by omega)

theorem Fits.fenceSv : Fits.Statement (.fenceSv) := by
  exact Fits.of_words 0 rfl (by omega) (by omega) (by omega)

theorem Fits.fenceVs : Fits.Statement (.fenceVs) := by
  exact Fits.of_words 0 rfl (by omega) (by omega) (by omega)

theorem Fits.fenceVv : Fits.Statement (.fenceVv) := by
  exact Fits.of_words 0 rfl (by omega) (by omega) (by omega)

theorem Fits.fenceAcq : ∀ r, Fits.Statement (.fenceAcq r) := by
  intro r
  have := r.code_le
  exact Fits.of_words 0 rfl (by omega) (by omega) (by omega)

theorem Fits.fenceRel : ∀ r, Fits.Statement (.fenceRel r) := by
  intro r
  have := r.code_le
  exact Fits.of_words 0 rfl (by omega) (by omega) (by omega)

theorem Fits.fenceFull : ∀ r, Fits.Statement (.fenceFull r) := by
  intro r
  have := r.code_le
  exact Fits.of_words 0 rfl (by omega) (by omega) (by omega)

theorem Fits.trap : ∀ r, Fits.Statement (.trap r) := by
  intro r
  exact Fits.of_words 2 rfl (by omega) (by omega) (by omega)

theorem Fits.waitm : ∀ o, Fits.Statement (.waitm o) := by
  intro o
  have := bit01_le o.dbl; have := o.cond.code_le; have := o.scope.code_le
  exact Fits.of_words 2 rfl (by omega) (by omega) (by omega)

theorem Fits.invrdc : ∀ o, Fits.Statement (.invrdc o) := by
  intro o
  exact Fits.of_words 2 rfl (by omega) (by omega) (by omega)

theorem Fits.wbl2 : ∀ o, Fits.Statement (.wbl2 o) := by
  intro o
  exact Fits.of_words 2 rfl (by omega) (by omega) (by omega)

theorem Fits.invl1 : ∀ o, Fits.Statement (.invl1 o) := by
  intro o
  exact Fits.of_words 2 rfl (by omega) (by omega) (by omega)

theorem Fits.pref : ∀ o, Fits.Statement (.pref o) := by
  intro o
  have := bit01_le o.lvl
  exact Fits.of_words 2 rfl (by omega) (by omega) (by omega)

theorem Fits.publish : ∀ o, Fits.Statement (.publish o) := by
  intro o
  exact Fits.of_words 2 rfl (by omega) (by omega) (by omega)

theorem Fits.launch : ∀ rd rr, Fits.Statement (.launch rd rr) := by
  intro rd rr
  exact Fits.of_words 1 rfl (by omega) (by omega) (by omega)

theorem Fits.seal : ∀ ri rl, Fits.Statement (.seal ri rl) := by
  intro ri rl
  exact Fits.of_words 2 rfl (by omega) (by omega) (by omega)

theorem Fits.sealq : ∀ rd ri, Fits.Statement (.sealq rd ri) := by
  intro rd ri
  exact Fits.of_words 2 rfl (by omega) (by omega) (by omega)

theorem Fits.qpush : ∀ o, Fits.Statement (.qpush o) := by
  intro o
  exact Fits.of_words 2 rfl (by omega) (by omega) (by omega)

theorem Fits.qpop : ∀ o, Fits.Statement (.qpop o) := by
  intro o
  exact Fits.of_words 2 rfl (by omega) (by omega) (by omega)

theorem Fits.qtrypop : ∀ o, Fits.Statement (.qtrypop o) := by
  intro o
  exact Fits.of_words 2 rfl (by omega) (by omega) (by omega)

theorem Fits.qstat : ∀ o, Fits.Statement (.qstat o) := by
  intro o
  exact Fits.of_words 2 rfl (by omega) (by omega) (by omega)

theorem Fits.ginit : ∀ o, Fits.Statement (.ginit o) := by
  intro o
  have := o.scope.code_le
  exact Fits.of_words 2 rfl (by omega) (by omega) (by omega)

theorem Fits.garr : ∀ o, Fits.Statement (.garr o) := by
  intro o
  have := o.scope.code_le
  exact Fits.of_words 2 rfl (by omega) (by omega) (by omega)

theorem Fits.gwait : ∀ o, Fits.Statement (.gwait o) := by
  intro o
  have := o.scope.code_le
  exact Fits.of_words 2 rfl (by omega) (by omega) (by omega)

theorem Fits.garw : ∀ o, Fits.Statement (.garw o) := by
  intro o
  have := o.scope.code_le
  exact Fits.of_words 2 rfl (by omega) (by omega) (by omega)

theorem Fits.gqry : ∀ o, Fits.Statement (.gqry o) := by
  intro o
  have := o.scope.code_le
  exact Fits.of_words 2 rfl (by omega) (by omega) (by omega)

theorem Fits.vcfg : ∀ o, Fits.Statement (.vcfg o) := by
  intro o
  exact Fits.of_words 1 rfl (by omega) (by omega) (by omega)

theorem Fits.setvl : ∀ o, Fits.Statement (.setvl o) := by
  intro o
  have := o.w.code_le
  exact Fits.of_words 1 rfl (by omega) (by omega) (by omega)

theorem Fits.setvr : ∀ o, Fits.Statement (.setvr o) := by
  intro o
  have := o.w.code_le
  exact Fits.of_words 1 rfl (by omega) (by omega) (by omega)

theorem Fits.setvlb : ∀ o, Fits.Statement (.setvlb o) := by
  intro o
  have := o.w.code_le
  exact Fits.of_words 2 rfl (by omega) (by omega) (by omega)

theorem Fits.vadd : ∀ o, Fits.Statement (.vadd o) := by
  intro o
  have := o.b.code_le; have := o.b.sx_le; have := o.w.code_le
  exact Fits.of_words 2 rfl (by omega) (by omega) (by omega)

theorem Fits.vsub : ∀ o, Fits.Statement (.vsub o) := by
  intro o
  have := o.b.code_le; have := o.b.sx_le; have := o.w.code_le
  exact Fits.of_words 2 rfl (by omega) (by omega) (by omega)

theorem Fits.vmul : ∀ o, Fits.Statement (.vmul o) := by
  intro o
  have := o.b.code_le; have := o.b.sx_le; have := o.w.code_le
  exact Fits.of_words 2 rfl (by omega) (by omega) (by omega)

theorem Fits.vmulh : ∀ o, Fits.Statement (.vmulh o) := by
  intro o
  have := o.b.code_le; have := o.b.sx_le; have := o.w.code_le
  exact Fits.of_words 2 rfl (by omega) (by omega) (by omega)

theorem Fits.vmulhu : ∀ o, Fits.Statement (.vmulhu o) := by
  intro o
  have := o.b.code_le; have := o.b.sx_le; have := o.w.code_le
  exact Fits.of_words 2 rfl (by omega) (by omega) (by omega)

theorem Fits.vmin : ∀ o, Fits.Statement (.vmin o) := by
  intro o
  have := o.b.code_le; have := o.b.sx_le; have := o.w.code_le
  exact Fits.of_words 2 rfl (by omega) (by omega) (by omega)

theorem Fits.vmax : ∀ o, Fits.Statement (.vmax o) := by
  intro o
  have := o.b.code_le; have := o.b.sx_le; have := o.w.code_le
  exact Fits.of_words 2 rfl (by omega) (by omega) (by omega)

theorem Fits.vminu : ∀ o, Fits.Statement (.vminu o) := by
  intro o
  have := o.b.code_le; have := o.b.sx_le; have := o.w.code_le
  exact Fits.of_words 2 rfl (by omega) (by omega) (by omega)

theorem Fits.vmaxu : ∀ o, Fits.Statement (.vmaxu o) := by
  intro o
  have := o.b.code_le; have := o.b.sx_le; have := o.w.code_le
  exact Fits.of_words 2 rfl (by omega) (by omega) (by omega)

theorem Fits.vand : ∀ o, Fits.Statement (.vand o) := by
  intro o
  have := o.b.code_le; have := o.b.sx_le; have := o.w.code_le
  exact Fits.of_words 2 rfl (by omega) (by omega) (by omega)

theorem Fits.vor : ∀ o, Fits.Statement (.vor o) := by
  intro o
  have := o.b.code_le; have := o.b.sx_le; have := o.w.code_le
  exact Fits.of_words 2 rfl (by omega) (by omega) (by omega)

theorem Fits.vxor : ∀ o, Fits.Statement (.vxor o) := by
  intro o
  have := o.b.code_le; have := o.b.sx_le; have := o.w.code_le
  exact Fits.of_words 2 rfl (by omega) (by omega) (by omega)

theorem Fits.vandn : ∀ o, Fits.Statement (.vandn o) := by
  intro o
  have := o.b.code_le; have := o.b.sx_le; have := o.w.code_le
  exact Fits.of_words 2 rfl (by omega) (by omega) (by omega)

theorem Fits.vshl : ∀ o, Fits.Statement (.vshl o) := by
  intro o
  have := o.b.code_le; have := o.b.sx_le; have := o.w.code_le
  exact Fits.of_words 2 rfl (by omega) (by omega) (by omega)

theorem Fits.vshr : ∀ o, Fits.Statement (.vshr o) := by
  intro o
  have := o.b.code_le; have := o.b.sx_le; have := o.w.code_le
  exact Fits.of_words 2 rfl (by omega) (by omega) (by omega)

theorem Fits.vsra : ∀ o, Fits.Statement (.vsra o) := by
  intro o
  have := o.b.code_le; have := o.b.sx_le; have := o.w.code_le
  exact Fits.of_words 2 rfl (by omega) (by omega) (by omega)

theorem Fits.vadds : ∀ o, Fits.Statement (.vadds o) := by
  intro o
  have := o.b.code_le; have := o.b.sx_le; have := o.w.code_le
  exact Fits.of_words 2 rfl (by omega) (by omega) (by omega)

theorem Fits.vsubs : ∀ o, Fits.Statement (.vsubs o) := by
  intro o
  have := o.b.code_le; have := o.b.sx_le; have := o.w.code_le
  exact Fits.of_words 2 rfl (by omega) (by omega) (by omega)

theorem Fits.vabsd : ∀ o, Fits.Statement (.vabsd o) := by
  intro o
  have := o.b.code_le; have := o.b.sx_le; have := o.w.code_le
  exact Fits.of_words 2 rfl (by omega) (by omega) (by omega)

theorem Fits.vpopc : ∀ o, Fits.Statement (.vpopc o) := by
  intro o
  have := o.w.code_le
  exact Fits.of_words 2 rfl (by omega) (by omega) (by omega)

theorem Fits.vclz : ∀ o, Fits.Statement (.vclz o) := by
  intro o
  have := o.w.code_le
  exact Fits.of_words 2 rfl (by omega) (by omega) (by omega)

theorem Fits.vctz : ∀ o, Fits.Statement (.vctz o) := by
  intro o
  have := o.w.code_le
  exact Fits.of_words 2 rfl (by omega) (by omega) (by omega)

theorem Fits.vaddi : ∀ o, Fits.Statement (.vaddi o) := by
  intro o
  have := o.w.code_le
  exact Fits.of_words 2 rfl (by omega) (by omega) (by omega)

theorem Fits.vsubi : ∀ o, Fits.Statement (.vsubi o) := by
  intro o
  have := o.w.code_le
  exact Fits.of_words 2 rfl (by omega) (by omega) (by omega)

theorem Fits.vandi : ∀ o, Fits.Statement (.vandi o) := by
  intro o
  have := o.w.code_le
  exact Fits.of_words 2 rfl (by omega) (by omega) (by omega)

theorem Fits.vori : ∀ o, Fits.Statement (.vori o) := by
  intro o
  have := o.w.code_le
  exact Fits.of_words 2 rfl (by omega) (by omega) (by omega)

theorem Fits.vxori : ∀ o, Fits.Statement (.vxori o) := by
  intro o
  have := o.w.code_le
  exact Fits.of_words 2 rfl (by omega) (by omega) (by omega)

theorem Fits.vshli : ∀ o, Fits.Statement (.vshli o) := by
  intro o
  have := o.w.code_le
  exact Fits.of_words 2 rfl (by omega) (by omega) (by omega)

theorem Fits.vshri : ∀ o, Fits.Statement (.vshri o) := by
  intro o
  have := o.w.code_le
  exact Fits.of_words 2 rfl (by omega) (by omega) (by omega)

theorem Fits.vsrai : ∀ o, Fits.Statement (.vsrai o) := by
  intro o
  have := o.w.code_le
  exact Fits.of_words 2 rfl (by omega) (by omega) (by omega)

theorem Fits.vaddsi : ∀ o, Fits.Statement (.vaddsi o) := by
  intro o
  have := o.w.code_le
  exact Fits.of_words 2 rfl (by omega) (by omega) (by omega)

theorem Fits.vsubsi : ∀ o, Fits.Statement (.vsubsi o) := by
  intro o
  have := o.w.code_le
  exact Fits.of_words 2 rfl (by omega) (by omega) (by omega)

theorem Fits.vfadd : ∀ o, Fits.Statement (.vfadd o) := by
  intro o
  have := o.b.code_le; have := o.b.sx_le; have := o.fmt.code_le; have := o.rm.code_le
  exact Fits.of_words 2 rfl (by omega) (by omega) (by omega)

theorem Fits.vfsub : ∀ o, Fits.Statement (.vfsub o) := by
  intro o
  have := o.b.code_le; have := o.b.sx_le; have := o.fmt.code_le; have := o.rm.code_le
  exact Fits.of_words 2 rfl (by omega) (by omega) (by omega)

theorem Fits.vfmul : ∀ o, Fits.Statement (.vfmul o) := by
  intro o
  have := o.b.code_le; have := o.b.sx_le; have := o.fmt.code_le; have := o.rm.code_le
  exact Fits.of_words 2 rfl (by omega) (by omega) (by omega)

theorem Fits.vfdiv : ∀ o, Fits.Statement (.vfdiv o) := by
  intro o
  have := o.b.code_le; have := o.b.sx_le; have := o.fmt.code_le; have := o.rm.code_le
  exact Fits.of_words 2 rfl (by omega) (by omega) (by omega)

theorem Fits.vfmin : ∀ o, Fits.Statement (.vfmin o) := by
  intro o
  have := o.b.code_le; have := o.b.sx_le; have := o.fmt.code_le
  exact Fits.of_words 2 rfl (by omega) (by omega) (by omega)

theorem Fits.vfmax : ∀ o, Fits.Statement (.vfmax o) := by
  intro o
  have := o.b.code_le; have := o.b.sx_le; have := o.fmt.code_le
  exact Fits.of_words 2 rfl (by omega) (by omega) (by omega)

theorem Fits.vfsgnj : ∀ o, Fits.Statement (.vfsgnj o) := by
  intro o
  have := o.b.code_le; have := o.b.sx_le; have := o.fmt.code_le
  exact Fits.of_words 2 rfl (by omega) (by omega) (by omega)

theorem Fits.vfma : ∀ o, Fits.Statement (.vfma o) := by
  intro o
  have := o.b.code_le; have := o.b.sx_le; have := o.fmt.code_le; have := o.rm.code_le
  exact Fits.of_words 3 rfl (by omega) (by omega) (by omega)

theorem Fits.vfms : ∀ o, Fits.Statement (.vfms o) := by
  intro o
  have := o.b.code_le; have := o.b.sx_le; have := o.fmt.code_le; have := o.rm.code_le
  exact Fits.of_words 3 rfl (by omega) (by omega) (by omega)

theorem Fits.vfnma : ∀ o, Fits.Statement (.vfnma o) := by
  intro o
  have := o.b.code_le; have := o.b.sx_le; have := o.fmt.code_le; have := o.rm.code_le
  exact Fits.of_words 3 rfl (by omega) (by omega) (by omega)

theorem Fits.vfnms : ∀ o, Fits.Statement (.vfnms o) := by
  intro o
  have := o.b.code_le; have := o.b.sx_le; have := o.fmt.code_le; have := o.rm.code_le
  exact Fits.of_words 3 rfl (by omega) (by omega) (by omega)

theorem Fits.vfsqrt : ∀ o, Fits.Statement (.vfsqrt o) := by
  intro o
  have := o.fmt.code_le; have := o.rm.code_le
  exact Fits.of_words 2 rfl (by omega) (by omega) (by omega)

theorem Fits.vfrcp : ∀ o, Fits.Statement (.vfrcp o) := by
  intro o
  have := o.fmt.code_le; have := o.rm.code_le
  exact Fits.of_words 2 rfl (by omega) (by omega) (by omega)

theorem Fits.vfrsq : ∀ o, Fits.Statement (.vfrsq o) := by
  intro o
  have := o.fmt.code_le; have := o.rm.code_le
  exact Fits.of_words 2 rfl (by omega) (by omega) (by omega)

theorem Fits.vfexp2 : ∀ o, Fits.Statement (.vfexp2 o) := by
  intro o
  have := o.fmt.code_le; have := o.rm.code_le
  exact Fits.of_words 2 rfl (by omega) (by omega) (by omega)

theorem Fits.vflog2 : ∀ o, Fits.Statement (.vflog2 o) := by
  intro o
  have := o.fmt.code_le; have := o.rm.code_le
  exact Fits.of_words 2 rfl (by omega) (by omega) (by omega)

theorem Fits.vfabs : ∀ o, Fits.Statement (.vfabs o) := by
  intro o
  have := o.fmt.code_le
  exact Fits.of_words 2 rfl (by omega) (by omega) (by omega)

theorem Fits.vfneg : ∀ o, Fits.Statement (.vfneg o) := by
  intro o
  have := o.fmt.code_le
  exact Fits.of_words 2 rfl (by omega) (by omega) (by omega)

theorem Fits.vfclass : ∀ o, Fits.Statement (.vfclass o) := by
  intro o
  have := o.fmt.code_le
  exact Fits.of_words 2 rfl (by omega) (by omega) (by omega)

theorem Fits.vcvt : ∀ o, Fits.Statement (.vcvt o) := by
  intro o
  have := o.rm.code_le; have := bit01_le o.sat
  exact Fits.of_words 2 rfl (by omega) (by omega) (by omega)

theorem Fits.vcmpeq : ∀ o, Fits.Statement (.vcmpeq o) := by
  intro o
  have := o.b.code_le; have := o.b.sx_le; have := o.w.code_le
  exact Fits.of_words 2 rfl (by omega) (by omega) (by omega)

theorem Fits.vcmpne : ∀ o, Fits.Statement (.vcmpne o) := by
  intro o
  have := o.b.code_le; have := o.b.sx_le; have := o.w.code_le
  exact Fits.of_words 2 rfl (by omega) (by omega) (by omega)

theorem Fits.vcmplt : ∀ o, Fits.Statement (.vcmplt o) := by
  intro o
  have := o.b.code_le; have := o.b.sx_le; have := o.w.code_le
  exact Fits.of_words 2 rfl (by omega) (by omega) (by omega)

theorem Fits.vcmpge : ∀ o, Fits.Statement (.vcmpge o) := by
  intro o
  have := o.b.code_le; have := o.b.sx_le; have := o.w.code_le
  exact Fits.of_words 2 rfl (by omega) (by omega) (by omega)

theorem Fits.vcmpltu : ∀ o, Fits.Statement (.vcmpltu o) := by
  intro o
  have := o.b.code_le; have := o.b.sx_le; have := o.w.code_le
  exact Fits.of_words 2 rfl (by omega) (by omega) (by omega)

theorem Fits.vcmpgeu : ∀ o, Fits.Statement (.vcmpgeu o) := by
  intro o
  have := o.b.code_le; have := o.b.sx_le; have := o.w.code_le
  exact Fits.of_words 2 rfl (by omega) (by omega) (by omega)

theorem Fits.vfcmpeq : ∀ o, Fits.Statement (.vfcmpeq o) := by
  intro o
  have := o.b.code_le; have := o.b.sx_le; have := o.fmt.code_le
  exact Fits.of_words 2 rfl (by omega) (by omega) (by omega)

theorem Fits.vfcmpne : ∀ o, Fits.Statement (.vfcmpne o) := by
  intro o
  have := o.b.code_le; have := o.b.sx_le; have := o.fmt.code_le
  exact Fits.of_words 2 rfl (by omega) (by omega) (by omega)

theorem Fits.vfcmplt : ∀ o, Fits.Statement (.vfcmplt o) := by
  intro o
  have := o.b.code_le; have := o.b.sx_le; have := o.fmt.code_le
  exact Fits.of_words 2 rfl (by omega) (by omega) (by omega)

theorem Fits.vfcmple : ∀ o, Fits.Statement (.vfcmple o) := by
  intro o
  have := o.b.code_le; have := o.b.sx_le; have := o.fmt.code_le
  exact Fits.of_words 2 rfl (by omega) (by omega) (by omega)

theorem Fits.vfcmpgt : ∀ o, Fits.Statement (.vfcmpgt o) := by
  intro o
  have := o.b.code_le; have := o.b.sx_le; have := o.fmt.code_le
  exact Fits.of_words 2 rfl (by omega) (by omega) (by omega)

theorem Fits.vfcmpge : ∀ o, Fits.Statement (.vfcmpge o) := by
  intro o
  have := o.b.code_le; have := o.b.sx_le; have := o.fmt.code_le
  exact Fits.of_words 2 rfl (by omega) (by omega) (by omega)

theorem Fits.vfcmpun : ∀ o, Fits.Statement (.vfcmpun o) := by
  intro o
  have := o.b.code_le; have := o.b.sx_le; have := o.fmt.code_le
  exact Fits.of_words 2 rfl (by omega) (by omega) (by omega)

theorem Fits.vsel : ∀ o, Fits.Statement (.vsel o) := by
  intro o
  have := o.b.code_le; have := o.b.sx_le; have := o.w.code_le
  exact Fits.of_words 2 rfl (by omega) (by omega) (by omega)

theorem Fits.vmv : ∀ o, Fits.Statement (.vmv o) := by
  intro o
  have := o.w.code_le
  exact Fits.of_words 2 rfl (by omega) (by omega) (by omega)

theorem Fits.vbcast : ∀ o, Fits.Statement (.vbcast o) := by
  intro o
  have := o.w.code_le
  exact Fits.of_words 2 rfl (by omega) (by omega) (by omega)

theorem Fits.vmvxs : ∀ o, Fits.Statement (.vmvxs o) := by
  intro o
  have := o.w.code_le; have := bit01_le o.sgn
  exact Fits.of_words 2 rfl (by omega) (by omega) (by omega)

theorem Fits.vmvsx : ∀ o, Fits.Statement (.vmvsx o) := by
  intro o
  have := o.w.code_le
  exact Fits.of_words 2 rfl (by omega) (by omega) (by omega)

theorem Fits.viota : ∀ o, Fits.Statement (.viota o) := by
  intro o
  have := o.w.code_le
  exact Fits.of_words 2 rfl (by omega) (by omega) (by omega)

theorem Fits.vredsum : ∀ o, Fits.Statement (.vredsum o) := by
  intro o
  have := o.axis.code_le; have := o.w.code_le; have := bit01_le o.sat
  exact Fits.of_words 2 rfl (by omega) (by omega) (by omega)

theorem Fits.vredmin : ∀ o, Fits.Statement (.vredmin o) := by
  intro o
  have := o.axis.code_le; have := o.w.code_le
  exact Fits.of_words 2 rfl (by omega) (by omega) (by omega)

theorem Fits.vredmax : ∀ o, Fits.Statement (.vredmax o) := by
  intro o
  have := o.axis.code_le; have := o.w.code_le
  exact Fits.of_words 2 rfl (by omega) (by omega) (by omega)

theorem Fits.vredminu : ∀ o, Fits.Statement (.vredminu o) := by
  intro o
  have := o.axis.code_le; have := o.w.code_le
  exact Fits.of_words 2 rfl (by omega) (by omega) (by omega)

theorem Fits.vredmaxu : ∀ o, Fits.Statement (.vredmaxu o) := by
  intro o
  have := o.axis.code_le; have := o.w.code_le
  exact Fits.of_words 2 rfl (by omega) (by omega) (by omega)

theorem Fits.vredand : ∀ o, Fits.Statement (.vredand o) := by
  intro o
  have := o.axis.code_le; have := o.w.code_le
  exact Fits.of_words 2 rfl (by omega) (by omega) (by omega)

theorem Fits.vredor : ∀ o, Fits.Statement (.vredor o) := by
  intro o
  have := o.axis.code_le; have := o.w.code_le
  exact Fits.of_words 2 rfl (by omega) (by omega) (by omega)

theorem Fits.vredxor : ∀ o, Fits.Statement (.vredxor o) := by
  intro o
  have := o.axis.code_le; have := o.w.code_le
  exact Fits.of_words 2 rfl (by omega) (by omega) (by omega)

theorem Fits.vredfsum : ∀ o, Fits.Statement (.vredfsum o) := by
  intro o
  have := o.axis.code_le; have := o.fmt.code_le; have := o.rm.code_le
  exact Fits.of_words 2 rfl (by omega) (by omega) (by omega)

theorem Fits.vredfmin : ∀ o, Fits.Statement (.vredfmin o) := by
  intro o
  have := o.axis.code_le; have := o.fmt.code_le
  exact Fits.of_words 2 rfl (by omega) (by omega) (by omega)

theorem Fits.vredfmax : ∀ o, Fits.Statement (.vredfmax o) := by
  intro o
  have := o.axis.code_le; have := o.fmt.code_le
  exact Fits.of_words 2 rfl (by omega) (by omega) (by omega)

theorem Fits.vredmini : ∀ o, Fits.Statement (.vredmini o) := by
  intro o
  have := o.axis.code_le; have := o.w.code_le
  exact Fits.of_words 2 rfl (by omega) (by omega) (by omega)

theorem Fits.vredmaxi : ∀ o, Fits.Statement (.vredmaxi o) := by
  intro o
  have := o.axis.code_le; have := o.w.code_le
  exact Fits.of_words 2 rfl (by omega) (by omega) (by omega)

theorem Fits.vredfmini : ∀ o, Fits.Statement (.vredfmini o) := by
  intro o
  have := o.axis.code_le; have := o.fmt.code_le
  exact Fits.of_words 2 rfl (by omega) (by omega) (by omega)

theorem Fits.vredfmaxi : ∀ o, Fits.Statement (.vredfmaxi o) := by
  intro o
  have := o.axis.code_le; have := o.fmt.code_le
  exact Fits.of_words 2 rfl (by omega) (by omega) (by omega)

theorem Fits.vscansum : ∀ o, Fits.Statement (.vscansum o) := by
  intro o
  have := o.axis.code_le; have := o.w.code_le
  exact Fits.of_words 2 rfl (by omega) (by omega) (by omega)

theorem Fits.vxscansum : ∀ o, Fits.Statement (.vxscansum o) := by
  intro o
  have := o.axis.code_le; have := o.w.code_le
  exact Fits.of_words 2 rfl (by omega) (by omega) (by omega)

theorem Fits.vscanmax : ∀ o, Fits.Statement (.vscanmax o) := by
  intro o
  have := o.axis.code_le; have := o.w.code_le
  exact Fits.of_words 2 rfl (by omega) (by omega) (by omega)

theorem Fits.vxscanmax : ∀ o, Fits.Statement (.vxscanmax o) := by
  intro o
  have := o.axis.code_le; have := o.w.code_le
  exact Fits.of_words 2 rfl (by omega) (by omega) (by omega)

theorem Fits.vscanmaxu : ∀ o, Fits.Statement (.vscanmaxu o) := by
  intro o
  have := o.axis.code_le; have := o.w.code_le
  exact Fits.of_words 2 rfl (by omega) (by omega) (by omega)

theorem Fits.vxscanmaxu : ∀ o, Fits.Statement (.vxscanmaxu o) := by
  intro o
  have := o.axis.code_le; have := o.w.code_le
  exact Fits.of_words 2 rfl (by omega) (by omega) (by omega)

theorem Fits.vscanfsum : ∀ o, Fits.Statement (.vscanfsum o) := by
  intro o
  have := o.axis.code_le; have := o.fmt.code_le; have := o.rm.code_le
  exact Fits.of_words 2 rfl (by omega) (by omega) (by omega)

theorem Fits.vxscanfsum : ∀ o, Fits.Statement (.vxscanfsum o) := by
  intro o
  have := o.axis.code_le; have := o.fmt.code_le; have := o.rm.code_le
  exact Fits.of_words 2 rfl (by omega) (by omega) (by omega)

theorem Fits.vscanfmax : ∀ o, Fits.Statement (.vscanfmax o) := by
  intro o
  have := o.axis.code_le; have := o.fmt.code_le
  exact Fits.of_words 2 rfl (by omega) (by omega) (by omega)

theorem Fits.vxscanfmax : ∀ o, Fits.Statement (.vxscanfmax o) := by
  intro o
  have := o.axis.code_le; have := o.fmt.code_le
  exact Fits.of_words 2 rfl (by omega) (by omega) (by omega)

theorem Fits.vcompress : ∀ o, Fits.Statement (.vcompress o) := by
  intro o
  have := o.w.code_le
  exact Fits.of_words 2 rfl (by omega) (by omega) (by omega)

theorem Fits.vexpand : ∀ o, Fits.Statement (.vexpand o) := by
  intro o
  have := o.w.code_le
  exact Fits.of_words 2 rfl (by omega) (by omega) (by omega)

theorem Fits.vgathr : ∀ o, Fits.Statement (.vgathr o) := by
  intro o
  have := o.w.code_le
  exact Fits.of_words 2 rfl (by omega) (by omega) (by omega)

theorem Fits.vslideup : ∀ o, Fits.Statement (.vslideup o) := by
  intro o
  have := o.w.code_le
  exact Fits.of_words 2 rfl (by omega) (by omega) (by omega)

theorem Fits.vslidedn : ∀ o, Fits.Statement (.vslidedn o) := by
  intro o
  have := o.w.code_le
  exact Fits.of_words 2 rfl (by omega) (by omega) (by omega)

theorem Fits.vtrans : ∀ o, Fits.Statement (.vtrans o) := by
  intro o
  have := o.w.code_le
  exact Fits.of_words 2 rfl (by omega) (by omega) (by omega)

theorem Fits.vrowbc : ∀ o, Fits.Statement (.vrowbc o) := by
  intro o
  have := o.w.code_le
  exact Fits.of_words 2 rfl (by omega) (by omega) (by omega)

theorem Fits.mand : ∀ o, Fits.Statement (.mand o) := by
  intro o
  exact Fits.of_words 2 rfl (by omega) (by omega) (by omega)

theorem Fits.mor : ∀ o, Fits.Statement (.mor o) := by
  intro o
  exact Fits.of_words 2 rfl (by omega) (by omega) (by omega)

theorem Fits.mxor : ∀ o, Fits.Statement (.mxor o) := by
  intro o
  exact Fits.of_words 2 rfl (by omega) (by omega) (by omega)

theorem Fits.mandn : ∀ o, Fits.Statement (.mandn o) := by
  intro o
  exact Fits.of_words 2 rfl (by omega) (by omega) (by omega)

theorem Fits.mnot : ∀ o, Fits.Statement (.mnot o) := by
  intro o
  exact Fits.of_words 2 rfl (by omega) (by omega) (by omega)

theorem Fits.mset : ∀ o, Fits.Statement (.mset o) := by
  intro o
  exact Fits.of_words 2 rfl (by omega) (by omega) (by omega)

theorem Fits.mcnt : ∀ o, Fits.Statement (.mcnt o) := by
  intro o
  exact Fits.of_words 2 rfl (by omega) (by omega) (by omega)

theorem Fits.many : ∀ o, Fits.Statement (.many o) := by
  intro o
  exact Fits.of_words 2 rfl (by omega) (by omega) (by omega)

theorem Fits.mfst : ∀ o, Fits.Statement (.mfst o) := by
  intro o
  exact Fits.of_words 2 rfl (by omega) (by omega) (by omega)

theorem Fits.vld : ∀ o, Fits.Statement (.vld o) := by
  intro o
  have := o.w.code_le
  exact Fits.of_words 2 rfl (by omega) (by omega) (by omega)

theorem Fits.vlds : ∀ o, Fits.Statement (.vlds o) := by
  intro o
  have := o.w.code_le
  exact Fits.of_words 2 rfl (by omega) (by omega) (by omega)

theorem Fits.vldx : ∀ o, Fits.Statement (.vldx o) := by
  intro o
  have := o.w.code_le
  exact Fits.of_words 2 rfl (by omega) (by omega) (by omega)

theorem Fits.vldff : ∀ o, Fits.Statement (.vldff o) := by
  intro o
  have := o.w.code_le
  exact Fits.of_words 2 rfl (by omega) (by omega) (by omega)

theorem Fits.vst : ∀ o, Fits.Statement (.vst o) := by
  intro o
  have := o.w.code_le
  exact Fits.of_words 2 rfl (by omega) (by omega) (by omega)

theorem Fits.vsts : ∀ o, Fits.Statement (.vsts o) := by
  intro o
  have := o.w.code_le
  exact Fits.of_words 2 rfl (by omega) (by omega) (by omega)

theorem Fits.vstx : ∀ o, Fits.Statement (.vstx o) := by
  intro o
  have := o.w.code_le
  exact Fits.of_words 2 rfl (by omega) (by omega) (by omega)

theorem Fits.vstxO : ∀ o, Fits.Statement (.vstxO o) := by
  intro o
  have := o.w.code_le
  exact Fits.of_words 2 rfl (by omega) (by omega) (by omega)

theorem Fits.vamoadd : ∀ o, Fits.Statement (.vamoadd o) := by
  intro o
  have := bit01_le o.dbl; have := o.scope.code_le; have := o.ord.code_le; have := bit01_le o.ret
  exact Fits.of_words 2 rfl (by omega) (by omega) (by omega)

theorem Fits.vamomin : ∀ o, Fits.Statement (.vamomin o) := by
  intro o
  have := bit01_le o.dbl; have := o.scope.code_le; have := o.ord.code_le; have := bit01_le o.ret
  exact Fits.of_words 2 rfl (by omega) (by omega) (by omega)

theorem Fits.vamomax : ∀ o, Fits.Statement (.vamomax o) := by
  intro o
  have := bit01_le o.dbl; have := o.scope.code_le; have := o.ord.code_le; have := bit01_le o.ret
  exact Fits.of_words 2 rfl (by omega) (by omega) (by omega)

theorem Fits.vamominu : ∀ o, Fits.Statement (.vamominu o) := by
  intro o
  have := bit01_le o.dbl; have := o.scope.code_le; have := o.ord.code_le; have := bit01_le o.ret
  exact Fits.of_words 2 rfl (by omega) (by omega) (by omega)

theorem Fits.vamomaxu : ∀ o, Fits.Statement (.vamomaxu o) := by
  intro o
  have := bit01_le o.dbl; have := o.scope.code_le; have := o.ord.code_le; have := bit01_le o.ret
  exact Fits.of_words 2 rfl (by omega) (by omega) (by omega)

theorem Fits.vamoand : ∀ o, Fits.Statement (.vamoand o) := by
  intro o
  have := bit01_le o.dbl; have := o.scope.code_le; have := o.ord.code_le; have := bit01_le o.ret
  exact Fits.of_words 2 rfl (by omega) (by omega) (by omega)

theorem Fits.vamoor : ∀ o, Fits.Statement (.vamoor o) := by
  intro o
  have := bit01_le o.dbl; have := o.scope.code_le; have := o.ord.code_le; have := bit01_le o.ret
  exact Fits.of_words 2 rfl (by omega) (by omega) (by omega)

theorem Fits.vamoxor : ∀ o, Fits.Statement (.vamoxor o) := by
  intro o
  have := bit01_le o.dbl; have := o.scope.code_le; have := o.ord.code_le; have := bit01_le o.ret
  exact Fits.of_words 2 rfl (by omega) (by omega) (by omega)

theorem Fits.vamoswp : ∀ o, Fits.Statement (.vamoswp o) := by
  intro o
  have := bit01_le o.dbl; have := o.scope.code_le; have := o.ord.code_le; have := bit01_le o.ret
  exact Fits.of_words 2 rfl (by omega) (by omega) (by omega)

theorem Fits.stra : ∀ o, Fits.Statement (.stra o) := by
  intro o
  have := o.w.code_le
  exact Fits.of_words 2 rfl (by omega) (by omega) (by omega)

theorem Fits.strx : ∀ o, Fits.Statement (.strx o) := by
  intro o
  have := o.w.code_le
  exact Fits.of_words 2 rfl (by omega) (by omega) (by omega)

theorem Fits.stroff : ∀ o, Fits.Statement (.stroff o) := by
  intro o
  exact Fits.of_words 2 rfl (by omega) (by omega) (by omega)

theorem Fits.strpos : ∀ o, Fits.Statement (.strpos o) := by
  intro o
  exact Fits.of_words 2 rfl (by omega) (by omega) (by omega)

theorem Fits.mmaIp : ∀ o, Fits.Statement (.mmaIp o) := by
  intro o
  have := v0Code_lt o.b; have := bit01_le o.bsrc; have := bit01_le o.ta
  exact Fits.of_words 3 rfl (by omega) (by omega) (by omega)

theorem Fits.mmaOp : ∀ o, Fits.Statement (.mmaOp o) := by
  intro o
  have := v0Code_lt o.b; have := bit01_le o.bsrc; have := bit01_le o.ta
  exact Fits.of_words 3 rfl (by omega) (by omega) (by omega)

theorem Fits.mmaRw : ∀ o, Fits.Statement (.mmaRw o) := by
  intro o
  have := v0Code_lt o.b; have := bit01_le o.bsrc; have := bit01_le o.ta
  exact Fits.of_words 3 rfl (by omega) (by omega) (by omega)

theorem Fits.mzero : ∀ o, Fits.Statement (.mzero o) := by
  intro o
  exact Fits.of_words 1 rfl (by omega) (by omega) (by omega)

theorem Fits.msets : ∀ r, Fits.Statement (.msets r) := by
  intro r
  exact Fits.of_words 1 rfl (by omega) (by omega) (by omega)

theorem Fits.wbld : ∀ o, Fits.Statement (.wbld o) := by
  intro o
  exact Fits.of_words 2 rfl (by omega) (by omega) (by omega)

theorem Fits.mdrain : ∀ o, Fits.Statement (.mdrain o) := by
  intro o
  have := bit01_le o.sat; have := o.rm.code_le
  exact Fits.of_words 2 rfl (by omega) (by omega) (by omega)

theorem Fits.mdrainZ : ∀ o, Fits.Statement (.mdrainZ o) := by
  intro o
  have := bit01_le o.sat; have := o.rm.code_le
  exact Fits.of_words 2 rfl (by omega) (by omega) (by omega)

theorem Fits.vsort : ∀ o, Fits.Statement (.vsort o) := by
  intro o
  have := o.w.code_le; have := bit01_le o.sgn; have := bit01_le o.desc
  exact Fits.of_words 2 rfl (by omega) (by omega) (by omega)

theorem Fits.vmrg : ∀ o, Fits.Statement (.vmrg o) := by
  intro o
  have := o.w.code_le
  exact Fits.of_words 3 rfl (by omega) (by omega) (by omega)

theorem Fits.vunionadd : ∀ o, Fits.Statement (.vunionadd o) := by
  intro o
  have := bit01_le o.dz; have := o.fmt.code_le; have := o.rm.code_le
  exact Fits.of_words 3 rfl (by omega) (by omega) (by omega)

theorem Fits.vunionmax : ∀ o, Fits.Statement (.vunionmax o) := by
  intro o
  have := bit01_le o.dz; have := o.fmt.code_le
  exact Fits.of_words 3 rfl (by omega) (by omega) (by omega)

theorem Fits.vunionfst : ∀ o, Fits.Statement (.vunionfst o) := by
  intro o
  have := bit01_le o.dz; have := o.fmt.code_le
  exact Fits.of_words 3 rfl (by omega) (by omega) (by omega)

theorem Fits.vinteradd : ∀ o, Fits.Statement (.vinteradd o) := by
  intro o
  have := bit01_le o.dz; have := o.fmt.code_le; have := o.rm.code_le
  exact Fits.of_words 3 rfl (by omega) (by omega) (by omega)

theorem Fits.vintermax : ∀ o, Fits.Statement (.vintermax o) := by
  intro o
  have := bit01_le o.dz; have := o.fmt.code_le
  exact Fits.of_words 3 rfl (by omega) (by omega) (by omega)

theorem Fits.vinterfst : ∀ o, Fits.Statement (.vinterfst o) := by
  intro o
  have := bit01_le o.dz; have := o.fmt.code_le
  exact Fits.of_words 3 rfl (by omega) (by omega) (by omega)

theorem Fits.vintermul : ∀ o, Fits.Statement (.vintermul o) := by
  intro o
  have := bit01_le o.dz; have := o.fmt.code_le; have := o.rm.code_le
  exact Fits.of_words 3 rfl (by omega) (by omega) (by omega)

theorem Fits.vtopk : ∀ o, Fits.Statement (.vtopk o) := by
  intro o
  have := o.fmt.code_le; have := bit01_le o.nz
  exact Fits.of_words 2 rfl (by omega) (by omega) (by omega)

theorem Fits.vsegrsum : ∀ o, Fits.Statement (.vsegrsum o) := by
  intro o
  have := o.w.code_le
  exact Fits.of_words 2 rfl (by omega) (by omega) (by omega)

theorem Fits.vsegrmin : ∀ o, Fits.Statement (.vsegrmin o) := by
  intro o
  have := o.w.code_le
  exact Fits.of_words 2 rfl (by omega) (by omega) (by omega)

theorem Fits.vsegrmax : ∀ o, Fits.Statement (.vsegrmax o) := by
  intro o
  have := o.w.code_le
  exact Fits.of_words 2 rfl (by omega) (by omega) (by omega)

theorem Fits.vsegrminu : ∀ o, Fits.Statement (.vsegrminu o) := by
  intro o
  have := o.w.code_le
  exact Fits.of_words 2 rfl (by omega) (by omega) (by omega)

theorem Fits.vsegrmaxu : ∀ o, Fits.Statement (.vsegrmaxu o) := by
  intro o
  have := o.w.code_le
  exact Fits.of_words 2 rfl (by omega) (by omega) (by omega)

theorem Fits.vsegrfsum : ∀ o, Fits.Statement (.vsegrfsum o) := by
  intro o
  have := o.fmt.code_le; have := o.rm.code_le
  exact Fits.of_words 2 rfl (by omega) (by omega) (by omega)

theorem Fits.vsegrfmin : ∀ o, Fits.Statement (.vsegrfmin o) := by
  intro o
  have := o.fmt.code_le
  exact Fits.of_words 2 rfl (by omega) (by omega) (by omega)

theorem Fits.vsegrfmax : ∀ o, Fits.Statement (.vsegrfmax o) := by
  intro o
  have := o.fmt.code_le
  exact Fits.of_words 2 rfl (by omega) (by omega) (by omega)

theorem Fits.xopen : ∀ o, Fits.Statement (.xopen o) := by
  intro o
  exact Fits.of_words 2 rfl (by omega) (by omega) (by omega)

theorem Fits.xclose : ∀ r, Fits.Statement (.xclose r) := by
  intro r
  exact Fits.of_words 2 rfl (by omega) (by omega) (by omega)

theorem Fits.xfloor : ∀ o, Fits.Statement (.xfloor o) := by
  intro o
  exact Fits.of_words 2 rfl (by omega) (by omega) (by omega)

theorem Fits.xstat : ∀ o, Fits.Statement (.xstat o) := by
  intro o
  exact Fits.of_words 2 rfl (by omega) (by omega) (by omega)

theorem Fits.xsplit : ∀ o, Fits.Statement (.xsplit o) := by
  intro o
  exact Fits.of_words 2 rfl (by omega) (by omega) (by omega)

theorem Fits.xround : ∀ r, Fits.Statement (.xround r) := by
  intro r
  exact Fits.of_words 2 rfl (by omega) (by omega) (by omega)

theorem Fits.xsend : ∀ o, Fits.Statement (.xsend o) := by
  intro o
  have := v0Code_lt o.pay
  exact Fits.of_words 2 rfl (by omega) (by omega) (by omega)

theorem Fits.xsendMc : ∀ o, Fits.Statement (.xsendMc o) := by
  intro o
  have := v0Code_lt o.pay
  exact Fits.of_words 2 rfl (by omega) (by omega) (by omega)

theorem Fits.xrecv : ∀ o, Fits.Statement (.xrecv o) := by
  intro o
  have := v0Code_lt o.pay; have := bit01_le o.nb
  exact Fits.of_words 2 rfl (by omega) (by omega) (by omega)

theorem Fits.cpy : ∀ o, Fits.Statement (.cpy o) := by
  intro o
  have := o.scope.code_le
  exact Fits.of_words 3 rfl (by omega) (by omega) (by omega)

theorem Fits.cpySh : ∀ o, Fits.Statement (.cpySh o) := by
  intro o
  have := o.scope.code_le
  exact Fits.of_words 3 rfl (by omega) (by omega) (by omega)

theorem Fits.cmwait : ∀ o, Fits.Statement (.cmwait o) := by
  intro o
  have := bit01_le o.plane
  exact Fits.of_words 2 rfl (by omega) (by omega) (by omega)

theorem Fits.cmtest : ∀ o, Fits.Statement (.cmtest o) := by
  intro o
  have := bit01_le o.plane
  exact Fits.of_words 2 rfl (by omega) (by omega) (by omega)

theorem Fits.cmclr : ∀ o, Fits.Statement (.cmclr o) := by
  intro o
  exact Fits.of_words 2 rfl (by omega) (by omega) (by omega)

theorem Fits.illegalInstruction : ∀ a b, Fits.Statement (.illegalInstruction a b) := fun _ _ => Fits.of_none rfl

theorem Fits.stripctlSeal : Fits.Statement (.stripctlSeal) := Fits.of_none rfl

theorem Fits.vlgcapWrite : ∀ a b c, Fits.Statement (.vlgcapWrite a b c) := fun _ _ _ => Fits.of_none rfl

theorem Fits.tlbinvAll : Fits.Statement (.tlbinvAll) := Fits.of_none rfl

theorem Fits.tlbinvContext : ∀ a, Fits.Statement (.tlbinvContext a) := fun _ => Fits.of_none rfl

theorem Fits.tlbinvPage : ∀ a b, Fits.Statement (.tlbinvPage a b) := fun _ _ => Fits.of_none rfl

theorem Fits.waitmWake : ∀ a, Fits.Statement (.waitmWake a) := fun _ => Fits.of_none rfl

theorem Fits.waitmTimeout : ∀ a, Fits.Statement (.waitmTimeout a) := fun _ => Fits.of_none rfl

theorem Fits.qpushWake : ∀ a, Fits.Statement (.qpushWake a) := fun _ => Fits.of_none rfl

theorem Fits.qpopWake : ∀ a, Fits.Statement (.qpopWake a) := fun _ => Fits.of_none rfl

theorem Fits.gwaitWake : ∀ a, Fits.Statement (.gwaitWake a) := fun _ => Fits.of_none rfl

theorem Fits.stripAutoClose : ∀ a, Fits.Statement (.stripAutoClose a) := fun _ => Fits.of_none rfl

theorem Fits.stripCommitComplete : ∀ a, Fits.Statement (.stripCommitComplete a) := fun _ => Fits.of_none rfl

theorem Fits.streamRefill : ∀ a b c, Fits.Statement (.streamRefill a b c) := fun _ _ _ => Fits.of_none rfl

theorem Fits.gridGrant : ∀ a, Fits.Statement (.gridGrant a) := fun _ => Fits.of_none rfl

theorem Fits.mergeUnitGrant : ∀ a, Fits.Statement (.mergeUnitGrant a) := fun _ => Fits.of_none rfl

theorem Fits.mergePointEmit : ∀ a b c d, Fits.Statement (.mergePointEmit a b c d) := fun _ _ _ _ => Fits.of_none rfl

theorem Fits.exceptionRecordArrival : ∀ a b c d, Fits.Statement (.exceptionRecordArrival a b c d) := fun _ _ _ _ => Fits.of_none rfl

theorem Fits.multicastIngressCopy : ∀ a b c d, Fits.Statement (.multicastIngressCopy a b c d) := fun _ _ _ _ => Fits.of_none rfl

theorem Fits.multicastHoldRelease : ∀ a b c d, Fits.Statement (.multicastHoldRelease a b c d) := fun _ _ _ _ => Fits.of_none rfl

theorem Fits.chunkRead : ∀ a b c, Fits.Statement (.chunkRead a b c) := fun _ _ _ => Fits.of_none rfl

theorem Fits.chunkLanded : ∀ a b c, Fits.Statement (.chunkLanded a b c) := fun _ _ _ => Fits.of_none rfl

theorem Fits.vectorGroupComplete : ∀ a, Fits.Statement (.vectorGroupComplete a) := fun _ => Fits.of_none rfl

theorem Fits.viqRetire : ∀ a, Fits.Statement (.viqRetire a) := fun _ => Fits.of_none rfl

theorem Fits.recheckResolution : ∀ a b, Fits.Statement (.recheckResolution a b) := fun _ _ => Fits.of_none rfl

theorem Fits.recheckPriorityTimeout : ∀ a, Fits.Statement (.recheckPriorityTimeout a) := fun _ => Fits.of_none rfl

theorem Fits.laneGroupRetirement : ∀ a b, Fits.Statement (.laneGroupRetirement a b) := fun _ _ => Fits.of_none rfl

theorem Fits.testKernelPlacement : ∀ a b c d e, Fits.Statement (.testKernelPlacement a b c d e) := fun _ _ _ _ _ => Fits.of_none rfl

theorem Fits.testKernelVerdict : ∀ a b c d e, Fits.Statement (.testKernelVerdict a b c d e) := fun _ _ _ _ _ => Fits.of_none rfl

theorem Fits.remoteCopyExpiry : ∀ a b c, Fits.Statement (.remoteCopyExpiry a b c) := fun _ _ _ => Fits.of_none rfl

theorem Fits.launchportWrite : ∀ a b, Fits.Statement (.launchportWrite a b) := fun _ _ => Fits.of_none rfl

theorem Fits.lpstatErrClear : ∀ a, Fits.Statement (.lpstatErrClear a) := fun _ => Fits.of_none rfl

theorem Fits.schedulerTakeRecord : Fits.Statement (.schedulerTakeRecord) := Fits.of_none rfl

theorem Fits.launchPlacement : Fits.Statement (.launchPlacement) := Fits.of_none rfl

theorem Fits.preemptRequest : Fits.Statement (.preemptRequest) := Fits.of_none rfl

theorem Fits.forcedSave : ∀ a, Fits.Statement (.forcedSave a) := fun _ => Fits.of_none rfl

theorem Fits.saveCompletion : ∀ a, Fits.Statement (.saveCompletion a) := fun _ => Fits.of_none rfl

theorem Fits.launchRestore : Fits.Statement (.launchRestore) := Fits.of_none rfl

theorem Fits.stageSchedulerEvaluation : ∀ a, Fits.Statement (.stageSchedulerEvaluation a) := fun _ => Fits.of_none rfl

theorem Fits.launchCompletion : ∀ a, Fits.Statement (.launchCompletion a) := fun _ => Fits.of_none rfl

theorem Fits.removalHartTimeout : ∀ a, Fits.Statement (.removalHartTimeout a) := fun _ => Fits.of_none rfl

theorem Fits.removalComplete : ∀ a, Fits.Statement (.removalComplete a) := fun _ => Fits.of_none rfl

theorem Fits.tlbinvrAll : Fits.Statement (.tlbinvrAll) := Fits.of_none rfl

theorem Fits.tlbinvrContext : ∀ a, Fits.Statement (.tlbinvrContext a) := fun _ => Fits.of_none rfl

theorem Fits.tlbinvrPage : ∀ a b, Fits.Statement (.tlbinvrPage a b) := fun _ _ => Fits.of_none rfl

theorem Fits.tlbInvalidationComplete : Fits.Statement (.tlbInvalidationComplete) := Fits.of_none rfl

theorem Fits.hostMemRead : ∀ a b, Fits.Statement (.hostMemRead a b) := fun _ _ => Fits.of_none rfl

theorem Fits.hostMemWrite : ∀ a b, Fits.Statement (.hostMemWrite a b) := fun _ _ => Fits.of_none rfl

theorem Fits.remoteAccessIngress : ∀ a, Fits.Statement (.remoteAccessIngress a) := fun _ => Fits.of_none rfl

theorem Fits.violationLogClear : ∀ a, Fits.Statement (.violationLogClear a) := fun _ => Fits.of_none rfl

theorem Fits.remoteAccessTimeout : ∀ a, Fits.Statement (.remoteAccessTimeout a) := fun _ => Fits.of_none rfl

theorem Fits.linkLaneLoss : ∀ a b, Fits.Statement (.linkLaneLoss a b) := fun _ _ => Fits.of_none rfl

theorem Fits.linkRetrainComplete : ∀ a, Fits.Statement (.linkRetrainComplete a) := fun _ => Fits.of_none rfl

theorem Fits.registerWrite : ∀ a b, Fits.Statement (.registerWrite a b) := fun _ _ => Fits.of_none rfl

theorem Fits.pwrctlP0 : Fits.Statement (.pwrctlP0) := Fits.of_none rfl

theorem Fits.pwrctlP1 : Fits.Statement (.pwrctlP1) := Fits.of_none rfl

theorem Fits.pwrctlRet : Fits.Statement (.pwrctlRet) := Fits.of_none rfl

theorem Fits.pwrctlOff : Fits.Statement (.pwrctlOff) := Fits.of_none rfl

theorem Fits.pwrstatErrClear : Fits.Statement (.pwrstatErrClear) := Fits.of_none rfl

theorem Fits.powerTransitionComplete : Fits.Statement (.powerTransitionComplete) := Fits.of_none rfl

theorem Fits.autoP0Entry : Fits.Statement (.autoP0Entry) := Fits.of_none rfl

theorem Fits.thermalThrottle : ∀ a, Fits.Statement (.thermalThrottle a) := fun _ => Fits.of_none rfl

theorem Fits.throttleRelease : Fits.Statement (.throttleRelease) := Fits.of_none rfl

theorem Fits.thermalTrip : Fits.Statement (.thermalTrip) := Fits.of_none rfl

theorem Fits.packageReset : ∀ a b, Fits.Statement (.packageReset a b) := fun _ _ => Fits.of_none rfl

theorem Fits.sdieSelfTestPass : ∀ a, Fits.Statement (.sdieSelfTestPass a) := fun _ => Fits.of_none rfl

theorem Fits.bulkTrainingComplete : ∀ a, Fits.Statement (.bulkTrainingComplete a) := fun _ => Fits.of_none rfl

theorem Fits.portTrained : ∀ a, Fits.Statement (.portTrained a) := fun _ => Fits.of_none rfl

theorem Fits.cxlLinkUp : Fits.Statement (.cxlLinkUp) := Fits.of_none rfl

theorem Fits.dieFullService : ∀ a, Fits.Statement (.dieFullService a) := fun _ => Fits.of_none rfl

theorem Fits.rechargeComplete : Fits.Statement (.rechargeComplete) := Fits.of_none rfl

theorem Fits.undervoltageDetect : Fits.Statement (.undervoltageDetect) := Fits.of_none rfl

theorem Fits.supplyOutOfSpec : Fits.Statement (.supplyOutOfSpec) := Fits.of_none rfl

theorem Fits.powerFailWindowEnd : Fits.Statement (.powerFailWindowEnd) := Fits.of_none rfl

theorem Fits.holdupEngineWrite : Fits.Statement (.holdupEngineWrite) := Fits.of_none rfl

theorem Fits.mbAttestation : ∀ a, Fits.Statement (.mbAttestation a) := fun _ => Fits.of_none rfl

theorem Fits.mbExtendMr : ∀ a b, Fits.Statement (.mbExtendMr a b) := fun _ _ => Fits.of_none rfl

theorem Fits.mbWriteAccessEntry : ∀ a b c d e, Fits.Statement (.mbWriteAccessEntry a b c d e) := fun _ _ _ _ _ => Fits.of_none rfl

theorem Fits.mbRemoveLaunch : ∀ a, Fits.Statement (.mbRemoveLaunch a) := fun _ => Fits.of_none rfl

theorem Fits.mbDiscardSlot : ∀ a, Fits.Statement (.mbDiscardSlot a) := fun _ => Fits.of_none rfl

theorem Fits.mbDebugRequest : ∀ a b, Fits.Statement (.mbDebugRequest a b) := fun _ _ => Fits.of_none rfl

theorem Fits.mbEnterRma : ∀ a, Fits.Statement (.mbEnterRma a) := fun _ => Fits.of_none rfl

theorem Fits.mbstatClear : ∀ a, Fits.Statement (.mbstatClear a) := fun _ => Fits.of_none rfl

theorem Fits.debugHalt : ∀ a b, Fits.Statement (.debugHalt a b) := fun _ _ => Fits.of_none rfl

theorem Fits.uncorrectableError : ∀ a, Fits.Statement (.uncorrectableError a) := fun _ => Fits.of_none rfl

theorem Fits.manufactureToSecure : Fits.Statement (.manufactureToSecure) := Fits.of_none rfl

end Laws

end Sys2Proof
end

