-- ==== Sys2Proof/Tests/Slice0.lean ====
section
/-! SUPPORT. Tests: ill-formed terms, words of the spec, single steps, and states that meet the hypotheses of the
statements. -/

namespace Sys2Proof.Machine.Tests

/-! ### Ill-formed terms -/

theorem test_ldaq_signed_doubleword_is_ill_formed : (Instr.ldaq ⟨1, 2, .b8, true, .c, 0⟩).wellFormed = false := by decide
theorem test_qpop_into_odd_register_is_ill_formed :
    (Instr.qpop ⟨7, 13, 14⟩).wellFormed = false ∧ (Instr.qtrypop ⟨7, 0, 14⟩).wellFormed = false := by decide
theorem test_approximations_are_narrow :
    (Instr.vfrcp ⟨1, 2, .f64, .rne, 0⟩).wellFormed = false ∧ (Instr.vfrsq ⟨1, 2, .f16, .rne, 0⟩).wellFormed = false ∧
      (Instr.vfexp2 ⟨1, 2, .f64, .rne, 0⟩).wellFormed = false ∧ (Instr.vflog2 ⟨1, 2, .f16, .rne, 0⟩).wellFormed = false := by
  decide
theorem test_pairs_are_even :
    (Instr.vredmini ⟨5, 2, .row, .w32, 0⟩).wellFormed = false ∧ (Instr.vredmaxi ⟨5, 2, .row, .w32, 0⟩).wellFormed = false ∧
      (Instr.vredfmini ⟨5, 2, .row, .f32, 0⟩).wellFormed = false ∧
      (Instr.vredfmaxi ⟨5, 2, .row, .f32, 0⟩).wellFormed = false ∧
      (Instr.vsort ⟨5, 2, .w32, false, false, 0⟩).wellFormed = false ∧
      (Instr.vtopk ⟨5, 9, 2, 5, .f32, false, 0⟩).wellFormed = false ∧
      (Instr.vmrg ⟨8, 9, 3, 4, 7, .w32⟩).wellFormed = false ∧ (Instr.vunionmax ⟨8, 9, 2, 5, 7, false, .f32⟩).wellFormed = false ∧
      (Instr.vunionfst ⟨9, 9, 2, 4, 7, false, .f32⟩).wellFormed = false ∧
      (Instr.vintermax ⟨8, 9, 3, 4, 7, false, .f32⟩).wellFormed = false ∧
      (Instr.vinterfst ⟨8, 9, 2, 5, 7, false, .f32⟩).wellFormed = false ∧
      (Instr.xrecv ⟨7, 9, none, 5, false⟩).wellFormed = false := by decide
theorem test_segment_pairs_are_even :
    (Instr.vsegrsum ⟨9, 9, 2, .w32, 0⟩).wellFormed = false ∧ (Instr.vsegrmin ⟨8, 9, 3, .w32, 0⟩).wellFormed = false ∧
      (Instr.vsegrmax ⟨9, 9, 2, .w32, 0⟩).wellFormed = false ∧ (Instr.vsegrminu ⟨8, 9, 3, .w32, 0⟩).wellFormed = false ∧
      (Instr.vsegrmaxu ⟨9, 9, 2, .w32, 0⟩).wellFormed = false ∧
      (Instr.vsegrfsum ⟨8, 9, 3, .f32, .rne, 0⟩).wellFormed = false ∧
      (Instr.vsegrfmin ⟨9, 9, 2, .f32, 0⟩).wellFormed = false ∧ (Instr.vsegrfmax ⟨8, 9, 3, .f32, 0⟩).wellFormed = false := by
  decide
theorem test_integer_set_operations_do_not_round :
    (Instr.vunionadd ⟨8, 9, 2, 4, 7, false, .i32, .rtz⟩).wellFormed = false ∧
      (Instr.vinteradd ⟨8, 9, 2, 4, 7, false, .i32, .rup⟩).wellFormed = false ∧
      (Instr.vintermul ⟨8, 9, 2, 4, 7, false, .i32, .rdn⟩).wellFormed = false := by decide
theorem test_mma_from_registers_names_b :
    (Instr.mmaIp ⟨8, 0, none, false, 0, 0, 0, false, 0, 3, 3⟩).wellFormed = false ∧
      (Instr.mmaOp ⟨8, 0, some 2, false, 1, 0, 0, false, 0, 3, 3⟩).wellFormed = false ∧
      (Instr.mmaRw ⟨8, 0, none, false, 0, 0, 0, false, 0, 3, 3⟩).wellFormed = false := by decide
theorem test_wbld_scales_follow_the_format :
    (Instr.wbld ⟨10, 11, 3, 0, 0⟩).wellFormed = false ∧ (Instr.wbld ⟨10, 0, 4, 1, 4⟩).wellFormed = false := by decide
theorem test_xopen_has_a_role : (Instr.xopen ⟨5, 6, 0⟩).wellFormed = false := by decide

/-! ### Words written out from the encoding tables (R46 to R51 and the rule of each major) -/

/-- A head: major, TL code and D (R46). -/
def head (op tl d : Nat) : Nat := op * 2 ^ 9 + tl * 2 ^ 7 + d
/-- Tails of the formats R, A, I, B and T (R49). -/
def tailR (s1 f : Nat) : Nat := s1 * 2 ^ 9 + f
def tailA (s1 s2 m f : Nat) : Nat := s1 * 2 ^ 25 + s2 * 2 ^ 18 + m * 2 ^ 14 + f
def tailI (s1 imm : Nat) : Nat := s1 * 2 ^ 25 + imm
def tailB (s1 s2 c loff slot : Nat) : Nat := s1 * 2 ^ 25 + s2 * 2 ^ 18 + c * 2 ^ 15 + loff * 2 ^ 5 + slot
def tailT (s1 s2 s3 m f : Nat) : Nat := s1 * 2 ^ 41 + s2 * 2 ^ 34 + s3 * 2 ^ 27 + m * 2 ^ 23 + f
/-- Designators of vector and mask registers (R47). -/
def vr (n : Nat) : Nat := 64 + n
def mr (n : Nat) : Nat := 32 + n

/-- The words that the spec works out. -/
theorem test_worked_words :
    decodeInstr 0xD5C8 0x851038090008 = .ok (.vunionadd ⟨8, 9, 2, 4, 7, true, .f32, .rne⟩) ∧
      decodeInstr 0xC280 0x0A01 = .ok (.msets 5) ∧ decodeInstr 0xC2C8 0x0002 = .ok (.mzero ⟨8, 1⟩) ∧
      decodeInstr 0xC1C8 0x8109000000CD =
        .ok (.mmaOp ⟨8, 0, some 2, false, 0, 0, 0, false, 0, 3, 3⟩) ∧
      decodeInstr 0xE100 0x0A1C0002 = .ok (.xfloor ⟨5, 7⟩) ∧
      decodeInstr 0xE346 0x88144000 = .ok (.xsend ⟨some 6, 4, 5, 1⟩) ∧
      decodeInstr 0xE548 0x94140480 = .ok (.xrecv ⟨8, 9, some 10, 5, false⟩) ∧
      decodeInstr 0x4E85 0x0C00 = .ok (.launch 5 6) ∧ decodeInstr 0x5900 0x142C001C = .ok (.qpush ⟨7, 10, 11⟩) ∧
      decodeInstr 0x590C 0x1C00001D = .ok (.qpop ⟨7, 12, 14⟩) ∧ decodeInstr 0x5100 0x0C1C0000 = .ok (.seal 6 7) ∧
      decodeInstr 0x5105 0x0C000001 = .ok (.sealq 5 6) := by decide

/-- `cpy.p [x11], [x10], x12, x13, 3, 0, 2048` (R266). -/
theorem test_cpy_word : decodeInstr 0xE98D 0x142C600004C3 = .ok (.cpy ⟨13, 10, 11, 12, 0, 2, .p, 3, 0⟩) := by decide

theorem test_scalar_words :
    decodeInstr (head 0x01 2 5) (tailA 6 7 0 1) = .ok (.sub ⟨5, 6, 7⟩) ∧
      decodeInstr (head 0x01 2 5) (tailA 6 0 0 23) = .ok (.clz ⟨5, 6⟩) ∧
      decodeInstr (head 0x03 2 5) (tailI 6 3) = .ok (.andi ⟨5, 6, 3⟩) ∧
      decodeInstr (head 0x04 2 5) (tailI 6 3) = .ok (.ori ⟨5, 6, 3⟩) ∧
      decodeInstr (head 0x05 2 5) (tailI 6 3) = .ok (.xori ⟨5, 6, 3⟩) ∧
      decodeInstr (head 0x06 2 5) (tailI 6 (2 ^ 24 + 3)) = .ok (.sltiu ⟨5, 6, 3⟩) ∧
      decodeInstr (head 0x07 2 6) (tailI 5 (2 * 2 ^ 6 + 63)) = .ok (.srai ⟨6, 5, 63⟩) ∧
      decodeInstr (head 0x09 2 5) 0x12 = .ok (.lih ⟨5, 0x12⟩) ∧
      decodeInstr (head 0x0A 3 5) (tailT 6 7 8 0 0) = .ok (.sel ⟨5, 6, 7, 8⟩) := by decide

theorem test_memory_words :
    decodeInstr (head 0x10 2 5) (tailI 6 (5 * 2 ^ 22 + 8)) = .ok (.ldwu ⟨5, 6, 8⟩) ∧
      decodeInstr (head 0x11 2 1) (tailA 6 5 0 (2 * 2 ^ 12 + 8)) = .ok (.stw ⟨5, 6, 4104⟩) ∧
      decodeInstr (head 0x12 2 5) (tailA 6 0 0 (3 + 2 * 2 ^ 3 + 16 * 2 ^ 6)) = .ok (.ldaq ⟨5, 6, .b8, false, .d, 16⟩) ∧
      decodeInstr (head 0x13 2 0) (tailA 6 7 0 (2 + 4 * 2 ^ 3 + 8 * 2 ^ 6)) = .ok (.strl ⟨7, 6, .b4, .s, 8⟩) ∧
      decodeInstr (head 0x14 2 5) (tailA 6 7 0 (3 + 0 * 2 ^ 4 + 1 * 2 ^ 5 + 1 * 2 ^ 8)) =
        .ok (.amominu ⟨5, 6, 7, false, .c, .aq⟩) ∧
      decodeInstr (head 0x15 3 5) (tailT 6 7 8 0 (1 + 4 * 2)) = .ok (.cas ⟨5, 6, 7, 8, true, .s, .relaxed⟩) ∧
      decodeInstr (head 0x24 2 5) (tailA 6 7 0 (0 + 1 * 2 + 2 * 2 ^ 3)) = .ok (.waitm ⟨5, 6, 7, false, .ne, .d⟩) ∧
      decodeInstr (head 0x25 2 0) (tailA 6 7 0 (3 + 4)) = .ok (.pref ⟨6, 7, true⟩) ∧
      decodeInstr (head 0x26 2 0) (tailA 6 7 0 0) = .ok (.publish ⟨6, 7⟩) := by decide

theorem test_control_words :
    decodeInstr (head 0x18 2 0) (tailB 5 6 4 1023 3) = .ok (.bltu ⟨5, 6, -1, 3⟩) ∧
      decodeInstr (head 0x19 2 0) (5 * 2 ^ 5 + 2) = .ok (.jmp ⟨5, 2⟩) ∧
      decodeInstr (head 0x1A 2 0) (5 * 2 ^ 5 + 2) = .ok (.call ⟨5, 2⟩) ∧
      decodeInstr (head 0x1B 1 0) (tailR 5 1) = .ok (.callr 5) ∧ decodeInstr (head 0x1C 0 0) 0 = .ok .ret ∧
      decodeInstr (head 0x1D 2 0) (tailB (mr 3) 0 1 2 7) = .ok (.bmnone ⟨3, 2, 7⟩) ∧
      decodeInstr (head 0x20 0 4) 0 = .ok .brk ∧
      decodeInstr (head 0x21 2 5) (tailA 6 0 0 (1 * 2 ^ 12 + 0x100)) = .ok (.csrrs ⟨5, 6, 0x100⟩) ∧
      decodeInstr (head 0x22 0 0x1A) 0 = .ok (.fenceAcq .d) ∧ decodeInstr (head 0x23 2 0) (tailI 0 0x12) = .ok (.trap 0x12) := by
  decide

theorem test_unit_words :
    decodeInstr (head 0x2D 2 5) (tailA 6 0 0 (1 + 2 * 2 ^ 3)) = .ok (.garr ⟨5, 6, 0, .d⟩) ∧
      decodeInstr (head 0x2D 2 0) (tailA 6 5 0 (2 + 2 * 2 ^ 3)) = .ok (.gwait ⟨6, 5, .d⟩) ∧
      decodeInstr (head 0x30 1 0) (tailR 6 (1 + 2 * 2 ^ 2)) = .ok (.vcfg ⟨6, 1, 2⟩) ∧
      decodeInstr (head 0x31 1 5) (tailR 4 2) = .ok (.setvl ⟨5, 4, .w32⟩) ∧
      decodeInstr (head 0x32 1 5) (tailR 4 3) = .ok (.setvr ⟨5, 4, .w64⟩) ∧
      decodeInstr (head 0x33 2 5) (tailB 4 0 2 1 1) = .ok (.setvlb ⟨5, 4, .w32, 1, 1⟩) := by decide

theorem test_elementwise_words :
    decodeInstr (head 0x40 2 (vr 2)) (tailA (vr 0) 7 0 (2 * 2 ^ 6 + 2 ^ 8 + 1)) = .ok (.vsub ⟨2, 0, .x 7, .w32, 0⟩) ∧
      decodeInstr (head 0x41 2 (vr 3)) (tailI (vr 3) (0 * 2 ^ 20 + 1 * 2 ^ 18 + 65532)) = .ok (.vaddi ⟨3, 3, .w16, -4⟩) ∧
      decodeInstr (head 0x42 2 (vr 2)) (tailA (vr 0) (vr 1) 1 (0 + 0 * 2 ^ 3 + 1 * 2 ^ 5)) =
        .ok (.vfadd ⟨2, 0, .v 1, .f32, .rtz, 1⟩) ∧
      decodeInstr (head 0x43 3 (vr 4)) (tailT (vr 0) (vr 1) (vr 4) 2 (0 + 3 * 2 ^ 2)) =
        .ok (.vfma ⟨4, 0, .v 1, 4, .bf16, .rne, 2⟩) ∧
      decodeInstr (head 0x44 2 (vr 4)) (tailA (vr 0) 0 0 (0 + 1 * 2 ^ 3 + 3 * 2 ^ 5)) = .ok (.vfsqrt ⟨4, 0, .f64, .rup, 0⟩) ∧
      decodeInstr (head 0x45 2 (vr 3)) (tailA (vr 2) 0 0 (1 + 4 * 2 ^ 4 + 2 ^ 10)) =
        .ok (.vcvt ⟨3, 2, 1, 4, .rne, true, 0⟩) ∧
      decodeInstr (head 0x46 2 (mr 2)) (tailA (vr 0) (vr 1) 1 (2 + 2 * 2 ^ 3)) = .ok (.vcmplt ⟨2, 0, .v 1, .w32, 1⟩) ∧
      decodeInstr (head 0x47 2 (mr 2)) (tailA (vr 0) (vr 1) 1 (6 + 2 * 2 ^ 3)) = .ok (.vfcmpun ⟨2, 0, .v 1, .f16, 1⟩) ∧
      decodeInstr (head 0x48 2 (vr 3)) (tailA (vr 1) (vr 2) 4 2) = .ok (.vsel ⟨3, 1, .v 2, .w32, 4⟩) ∧
      decodeInstr (head 0x49 2 5) (tailA (vr 2) 6 0 (2 + 1 * 2 ^ 3 + 2 ^ 5)) = .ok (.vmvxs ⟨5, 2, 6, .w16, true⟩) := by
  decide

theorem test_reduction_words :
    decodeInstr (head 0x4C 2 (vr 6)) (tailA (vr 4) 0 1 (8 + 2 ^ 4 + 0 * 2 ^ 5 + 2 * 2 ^ 7)) =
        .ok (.vredfsum ⟨6, 4, .all, .f32, .rdn, 1⟩) ∧
      decodeInstr (head 0x4D 2 (vr 6)) (tailA (vr 4) 0 1 (0 + 2 * 2 ^ 3)) = .ok (.vredmini ⟨6, 4, .row, .w32, 1⟩) ∧
      decodeInstr (head 0x4E 2 (vr 5)) (tailA (vr 4) 0 0 (0 + 2 ^ 3 + 2 * 2 ^ 5)) = .ok (.vxscansum ⟨5, 4, .row, .w32, 0⟩) ∧
      decodeInstr (head 0x50 2 (vr 3)) (tailA (vr 2) 0 1 (0 + 2 * 2 ^ 3 + 9 * 2 ^ 7)) =
        .ok (.vcompress ⟨3, 9, 2, .w32, 1⟩) ∧
      decodeInstr (head 0x50 2 (vr 3)) (tailA (vr 2) (vr 6) 1 (2 + 3 * 2 ^ 3)) = .ok (.vgathr ⟨3, 2, 6, .w64, 1⟩) ∧
      decodeInstr (head 0x54 2 (mr 3)) (tailA (mr 1) (mr 2) 4 3) = .ok (.mandn ⟨3, 1, 2, 4⟩) ∧
      decodeInstr (head 0x54 2 6) (tailA (mr 3) 0 1 6) = .ok (.mcnt ⟨6, 3, 1⟩) := by decide

theorem test_vector_memory_words :
    decodeInstr (head 0x58 2 (vr 1)) (tailA 6 7 3 2) = .ok (.vld ⟨1, 6, 7, .w32, 3⟩) ∧
      decodeInstr (head 0x58 2 (vr 1)) (tailA 6 7 0 (3 + 4)) = .ok (.vlds ⟨1, 6, 7, .w64, 0⟩) ∧
      decodeInstr (head 0x5A 2 (vr 1)) (tailA 6 (vr 4) 2 2) = .ok (.vldx ⟨1, 6, 4, .w32, 2⟩) ∧
      decodeInstr (head 0x5B 2 (vr 1)) (tailA 6 7 0 0) = .ok (.vldff ⟨1, 6, 7, .w8, 0⟩) ∧
      decodeInstr (head 0x5C 2 (vr 2)) (tailA 12 13 0 (1 + 4)) = .ok (.vsts ⟨2, 12, 13, .w16, 0⟩) ∧
      decodeInstr (head 0x5D 2 (vr 2)) (tailA 6 (vr 4) 0 (2 + 4)) = .ok (.vstxO ⟨2, 6, 4, .w32, 0⟩) ∧
      decodeInstr (head 0x5E 2 (vr 4)) (tailA 6 (vr 5) 0 (0 + 3 * 2 ^ 4 + 4 * 2 ^ 6 + 3 * 2 ^ 9 + 2 ^ 11)) =
        .ok (.vamoadd ⟨4, 6, 5, true, .s, .ar, true, 0⟩) := by decide

theorem test_stream_matrix_and_merge_words :
    decodeInstr (head 0x5F 2 (vr 3)) (tailA 6 7 0 (1 + 2 * 2 ^ 2 + 2 * 2 ^ 4)) = .ok (.strx ⟨3, 6, 7, 2, .w32⟩) ∧
      decodeInstr (head 0x62 2 0) (tailA 10 11 4 (4 + 2 ^ 4)) = .ok (.wbld ⟨10, 11, 4, 1, 4⟩) ∧
      decodeInstr (head 0x68 2 (vr 4)) (tailA (vr 2) 0 0 (1 + 4 + 8)) = .ok (.vsort ⟨4, 2, .w16, true, true, 0⟩) ∧
      decodeInstr (head 0x69 3 (vr 8)) (tailT (vr 2) (vr 4) 7 0 (2 + 9 * 2 ^ 16)) = .ok (.vmrg ⟨8, 9, 2, 4, 7, .w32⟩) ∧
      decodeInstr (head 0x6B 2 (vr 8)) (tailA (vr 2) 5 1 (0 + 2 ^ 3 + 9 * 2 ^ 7)) =
        .ok (.vtopk ⟨8, 9, 2, 5, .f32, true, 1⟩) ∧
      decodeInstr (head 0x6C 2 (vr 8)) (tailA (vr 2) 0 0 (3 + 2 * 2 ^ 3 + 9 * 2 ^ 7)) =
        .ok (.vsegrminu ⟨8, 9, 2, .w32, 0⟩) ∧
      decodeInstr (head 0x75 2 6) (tailA 5 0 0 (3 + 2 ^ 6 + 1 * 2 ^ 7)) = .ok (.cmtest ⟨6, 5, 3, true⟩) := by decide

theorem test_refused_words :
    decodeInstr (head 0x01 2 5) (tailA 6 7 0 27) = .error .function ∧
      decodeInstr (head 0x01 2 5) (tailA 6 7 1 0) = .error .reserved ∧
      decodeInstr 0x4401 0 = .error .reserved ∧
      decodeInstr (head 0x01 2 (vr 5)) (tailA 6 7 0 0) = .error .register ∧
      decodeInstr (head 0x40 2 (vr 1)) (tailA (vr 0) (vr 1) 0 22) = .error .function ∧
      decodeInstr (head 0x0B 2 0) 0 = .error .major ∧ decodeInstr 0 0 = .error .major := by decide

end Sys2Proof.Machine.Tests

namespace Sys2Proof.Machine

/-! ### States that meet the hypotheses of the statements -/

noncomputable section

set_option Elab.async false

/-- A hart at U about to run the line at virtual address 0, whose page is mapped to near memory. -/
def sBase : State := State.reset.withLine (bytesOfWords (tableLine 16 0x4000))
/-- Registers set. -/
def State.xs (s : State) (l : List (XReg × Word)) : State := l.foldl (fun t p => t.setX p.1 p.2) s
/-- A strip open. -/
def State.stripOpen (s : State) : State :=
  s.withHart fun h => { h with strip := some ⟨0, [], 0, 1, none, 0, [], [], 0, none, [], 0, 0, false, false⟩ }
/-- A tile of rows and elements. -/
def State.tiled (s : State) (rows vl : Nat) : State := s.withHart fun h => { h with v := { h.v with vrows := rows, vl := vl } }
/-- At level S. -/
def State.atS (s : State) : State := s.withHart fun h => { h with scalar := { h.scalar with level := .s } }
/-- The page of the line made an SO page (R226). -/
def State.soPage (s : State) : State := { s with tlb := [⟨0, 0, false, 0x800000007D, none⟩] }
/-- An instruction posted. -/
def State.withPosted (s : State) (v : VInstr) : State :=
  s.withHart fun h => { h with viq := [⟨s.entryOf v, ⟨0, none, none, none, [], none, [], [], [], .off, 0, false⟩⟩], nextSeq := 2 }
/-- One accepted launch, number 0, whose only stage holds the hart. -/
def lBase : Launch where
  seq := 0
  ctxid := 0
  record := ⟨0, false, 0, 0, 0, 0, 0, [⟨0, 0x7FDFFF, 1, 1, none, 0, 0⟩]⟩
  hold := none
  ptroot := 0
  strbase := 0
  slot := none
  restored := []
  holdgrant := 0
  pfstat := 0
  phase := .running
  stage0Halted := false
  discarded := 0
  removal := none
  savedHarts := []
/-- The package with that launch. -/
def State.launched (s : State) : State := { s with sched := { s.sched with launches := [lBase], nextSeq := 1 } }

theorem home_of {s : State} {pa d : Nat} (h : paPkg pa = s.pkg.toNat) (g : region (paLocal pa) = .near d) :
    s.homeMemory pa := by
  exact ⟨h, fun off => ⟨by simp [g], by simp [g]⟩⟩

/-- What the hypotheses of a posted instruction come to, as a question that can be decided. -/
theorem posts_of {s : State} {v : VInstr}
    (h : s.hart.viq = [] ∧ s.hart.lead = 0 ∧ s.hart.marks.removed = false ∧ s.hart.marks.saving = false ∧
      s.hart.marks.halted = false ∧ s.hart.marks.badRegs = [] ∧
      (Memory.wf s.hart.vrf = true ∧ Memory.wf s.hart.masks = true ∧
        (∀ q ∈ s.hart.viq, (∀ p ∈ q.r.prior ++ q.r.tiles, Memory.wf p.2 = true) ∧ ∀ p ∈ q.r.priorMask.toList, Memory.wf p.2 = true) ∧
        (∀ t ∈ s.hart.strip.toList ++ s.hart.closing, ∀ p ∈ t.shadows, Memory.wf p.2 = true) ∧
        (∀ i ∈ s.hart.hist, ∃ q ∈ s.hart.viq, q.e.seq = i.after) ∧
        (1 ≤ s.hart.nextSeq ∧ (∀ q ∈ s.hart.viq, q.e.seq < s.hart.nextSeq) ∧ (∀ e ∈ s.hart.sbuf, e.after < s.hart.nextSeq) ∧
          ∀ t ∈ s.hart.closing, t.closedAt < s.hart.nextSeq) ∧
        (s.hart.viq = [] → s.hart.closing = [] ∧ ∀ e ∈ s.hart.sbuf, ∃ t ∈ s.hart.strip.toList, t.id = e.strip)) ∧
      (∀ k ∈ s.others, k.core = s.hart.core → k.viq = []) ∧
      s.issueIllegal v (s.entryOf v) = none ∧ s.issueReserved v (s.entryOf v) = none ∧
      (s.hart.scalar.level = .s ∨ s.hart.ctl.usemask.getLsbD (vclass v) = true) ∧ s.capable (vclass v) = true) :
    s.vectorPosts v := h

theorem test_hypotheses_of_ScalarArithmetic :
    aluResult (sBase.xs [(6, 7)]) (.sub ⟨5, 6, 0⟩) = some ([6, 0], 5, 7) ∧
      (sBase.xs [(6, 7)]).canIssue 0 [6, 0, 5] ∧ (sBase.withPosted (.mnot ⟨1, 2, 0⟩)).canIssue 0 [6, 0, 5] ∧
      (sBase.withPosted (.mnot ⟨1, 2, 0⟩)).hart.viq ≠ [] := by
  unfold State.canIssue State.mayUse; decide +kernel

theorem test_hypotheses_of_ScalarLoads :
    loadForm (.ldw ⟨5, 1, 4⟩) = some (⟨5, 1, 4⟩, 4, sextBytes 4) ∧
      ∀ s ∈ [sBase.xs [(1, 0x40)], (sBase.xs [(1, 0x40)]).soPage.stripOpen], ∃ kind, s.isReady 0 ∧
        (s.x 1 + (4 : BitVec 25).signExtend 64).toNat % 4 = 0 ∧
        s.locate .load (s.x 1 + (4 : BitVec 25).signExtend 64) = (s, .ok (0x8000000044, kind)) ∧
        (s.ordered kind).readAt .load 0x8000000044 4 kind 1 = (s.ordered kind, .ok [0, 0, 0, 0]) := by
  refine ⟨rfl, ?_⟩
  intro s h
  rcases List.mem_cons.1 h with rfl | h
  · exact ⟨.rc, by unfold State.isReady State.mayUse Hart.orderly Hart.timely Hart.quiet State.ordered; decide +kernel⟩
  · rcases List.mem_cons.1 h with rfl | h
    · exact ⟨.so, by unfold State.isReady State.mayUse Hart.orderly Hart.timely Hart.quiet State.ordered; decide +kernel⟩
    · exact absurd h (by simp)

theorem test_hypotheses_of_ScalarStoresBuffered :
    let s := (sBase.xs [(1, 0xFFF8), (5, 9)]).stripOpen
    storeForm (.std ⟨5, 1, 0⟩) = some (⟨5, 1, 0⟩, 8) ∧ s.isReady 0 ∧ (s.x 1 + (0 : BitVec 25).signExtend 64).toNat % 8 = 0 ∧
      s.locate .store (s.x 1 + (0 : BitVec 25).signExtend 64) = (s, .ok (0x800000FFF8, .rc)) ∧
      s.checkAt .store 0x800000FFF8 = (s, .ok ()) ∧ s.hart.strip ≠ none ∧ s.hart.wouldOverflow 8 = false := by
  unfold State.isReady State.mayUse Hart.orderly Hart.timely Hart.quiet; decide +kernel

theorem test_hypotheses_of_ScalarStoresPerformed :
    ∀ s ∈ [sBase.xs [(1, 0x40)], (sBase.xs [(1, 0x40)]).soPage.stripOpen], ∃ kind, s.isReady 0 ∧
      (s.x 1 + (0 : BitVec 25).signExtend 64).toNat % 1 = 0 ∧
      s.locate .store (s.x 1 + (0 : BitVec 25).signExtend 64) = (s, .ok (0x8000000040, kind)) ∧
      s.checkAt .store 0x8000000040 = (s, .ok ()) ∧
      (kind = .so ∨ (s.hart.strip = none ∧ s.hart.wouldOverflow 1 = false)) ∧ s.homeMemory 0x8000000040 ∧
      Memory.wf s.store.mem = true := by
  intro s h
  rcases List.mem_cons.1 h with rfl | h
  · exact ⟨.rc, by unfold State.isReady State.mayUse Hart.orderly Hart.timely Hart.quiet; decide +kernel, by decide +kernel, by decide +kernel,
      by decide +kernel, by decide +kernel, home_of (d := 0) (by decide +kernel) (by decide +kernel), by decide +kernel⟩
  · rcases List.mem_cons.1 h with rfl | h
    · exact ⟨.so, by unfold State.isReady State.mayUse Hart.orderly Hart.timely Hart.quiet; decide +kernel, by decide +kernel, by decide +kernel,
        by decide +kernel, by decide +kernel, home_of (d := 0) (by decide +kernel) (by decide +kernel), by decide +kernel⟩
    · exact absurd h (by simp)

theorem test_hypotheses_of_MisalignedTraps :
    let s := sBase.xs [(1, 0x41)]
    ((s.x 1 + (0 : BitVec 25).signExtend 64).toNat % 2 ≠ 0) ∧ s.isReady 0 ∧ s.canTrap s := by
  unfold State.isReady State.mayUse Hart.orderly Hart.timely Hart.quiet State.canTrap; decide +kernel

theorem test_hypotheses_of_Branches :
    branchForm (.beq ⟨0, 0, 0, 0⟩) = some (⟨0, 0, 0, 0⟩, fun a b => a == b) ∧
      branchForm (.bltu ⟨0, 0, 0, 0⟩) = some (⟨0, 0, 0, 0⟩, fun a b => decide (a.toNat < b.toNat)) ∧
      sBase.canIssue 0 [0, 0] ∧
      sBase.targetIllegal sBase.hart.scalar.level (relTarget sBase.hart.scalar.pc 0 0) = (sBase, .ok false) := by
  refine ⟨rfl, rfl, ?_⟩
  unfold State.canIssue State.mayUse; decide +kernel

theorem test_hypotheses_of_Jumps :
    jumpTarget sBase (.jmp ⟨0, 0⟩) = some 0 ∧ jumpTarget sBase (.jmp ⟨0, 31⟩) = some 31 ∧ sBase.isReady 0 ∧
      sBase.targetIllegal .u 0 = (sBase, .ok false) ∧ sBase.targetIllegal .u 31 = (sBase, .ok true) ∧ sBase.canTrap sBase := by
  unfold State.isReady State.mayUse Hart.orderly Hart.timely Hart.quiet State.canTrap; decide +kernel

theorem test_hypotheses_of_CallsPush :
    callTarget sBase (.call ⟨0, 0⟩) = some 0 ∧ callTarget sBase (.callr 3) = some 0 ∧ sBase.isReady 0 ∧
      sBase.targetIllegal .u 0 = (sBase, .ok false) ∧ sBase.hart.scalar.calls.length < 32 := by
  unfold State.isReady State.mayUse Hart.orderly Hart.timely Hart.quiet; decide +kernel

/-- A call stack and CSPTR. -/
def State.callStack (s : State) (l : List Word) (csptr : Word) : State :=
  s.withHart fun h => { h with scalar := { h.scalar with calls := l, csptr := csptr } }

theorem test_hypotheses_of_CallsSpill :
    let s := sBase.callStack (List.replicate 32 0) (mkCsptr 0x4000 126)
    callTarget s (.call ⟨0, 0⟩) = some 0 ∧ s.isReady 0 ∧ s.targetIllegal .u 0 = (s, .ok false) ∧
      s.hart.scalar.calls.length = 32 ∧ cspSpills s.hart.scalar.csptr < 127 ∧ s.hart.strip = none ∧
      s.locate .store (BitVec.ofNat 64 (cspNext s.hart.scalar.csptr)) = (s, .ok (0x8000004000, .rc)) ∧
      s.checkAt .store 0x8000004000 = (s, .ok ()) ∧ s.homeMemory 0x8000004000 ∧ Memory.wf s.store.mem = true :=
  ⟨by decide +kernel, by unfold State.isReady State.mayUse Hart.orderly Hart.timely Hart.quiet; decide +kernel, by decide +kernel, by decide +kernel,
    by decide +kernel, by decide +kernel, by decide +kernel, by decide +kernel,
    home_of (d := 0) (by decide +kernel) (by decide +kernel), by decide +kernel⟩

theorem test_hypotheses_of_Returns :
    (let s := sBase.callStack [5, 0] 0;
      s.isReady 0 ∧ s.hart.strip = none ∧ s.hart.scalar.calls.getLast? = some 0 ∧ s.targetIllegal .u 0 = (s, .ok false)) ∧
    (let s := sBase.callStack [] (mkCsptr 0x4080 1);
      s.isReady 0 ∧ s.hart.strip = none ∧ s.hart.scalar.calls = [] ∧ 0 < cspSpills s.hart.scalar.csptr ∧
        s.locate .load (BitVec.ofNat 64 ((cspNext s.hart.scalar.csptr + 2 ^ 57 - 128) % 2 ^ 57)) =
          (s, .ok (0x8000004000, .rc)) ∧
        s.readAt .load 0x8000004000 128 .rc 1 = (s, .ok (List.replicate 128 0)) ∧
        (bytesPcs 16 (List.replicate 128 0)).getD 15 0 = 0 ∧ s.targetIllegal .u 0 = (s, .ok false)) := by
  constructor <;> (unfold State.isReady State.mayUse Hart.orderly Hart.timely Hart.quiet; decide +kernel)

theorem test_hypotheses_of_MaskBranches :
    let s := sBase.tiled 1 1
    maskBranchForm (.bmany ⟨0, 0, 0⟩) = some (⟨0, 0, 0⟩, true) ∧ maskBranchForm (.bmnone ⟨1, 0, 0⟩) = some (⟨1, 0, 0⟩, false) ∧
      s.isReady 0 ∧ ((∃ p, p < s.hart.v.vrows * s.hart.v.vl ∧ mget s.hart.masks 0 p = true) ↔ true = true) ∧
      ((∃ p, p < s.hart.v.vrows * s.hart.v.vl ∧ mget s.hart.masks 1 p = true) ↔ false = true) ∧
      s.targetIllegal .u (relTarget s.hart.scalar.pc 0 0) = (s, .ok false) := by
  refine ⟨rfl, rfl, by unfold State.isReady State.mayUse Hart.orderly Hart.timely Hart.quiet; decide +kernel, ⟨fun _ => rfl, fun _ => ⟨0, by decide +kernel⟩⟩,
    ⟨?_, by simp⟩, by decide +kernel⟩
  rintro ⟨p, hp, h⟩
  have : p = 0 := by
    have : p < 1 := hp
    omega
  subst this
  exact absurd h (by decide +kernel)

theorem test_hypotheses_of_MaskBranchesNotTaken :
    let s := sBase.tiled 1 1
    s.isReady 0 ∧ ((∃ p, p < s.hart.v.vrows * s.hart.v.vl ∧ mget s.hart.masks 0 p = true) ↔ false = false) :=
  ⟨by unfold State.isReady State.mayUse Hart.orderly Hart.timely Hart.quiet; decide +kernel, fun _ => rfl, fun _ => ⟨0, by decide +kernel⟩⟩

theorem test_hypotheses_of_TrapEntry :
    ownTrap sBase .brk = some (0x10, 0, sBase.hart.nextPc) ∧ ownTrap sBase (.trap 7) = some (0x0F, 7, sBase.hart.nextPc) ∧
      ownTrap sBase (.illegalInstruction .major 0xFE00) = some (1, 0x5FE00, sBase.hart.scalar.pc) ∧ sBase.isReady 0 ∧
      sBase.canTrap sBase := by
  unfold State.isReady State.mayUse Hart.orderly Hart.timely Hart.quiet State.canTrap; decide +kernel

theorem test_hypotheses_of_ExceptionReturn :
    (let s := sBase.atS;
      s.isReady 0 ∧ s.hart.scalar.level = .s ∧ s.targetIllegal .u s.hart.trap.tpc = (s, .ok false)) ∧
      sBase.hart.viq = [] ∧ sBase.hart.scalar.level = .u ∧ sBase.canTrap sBase := by
  unfold State.isReady State.mayUse Hart.orderly Hart.timely Hart.quiet State.canTrap; decide +kernel

theorem test_hypotheses_of_DoubleTrap :
    let s := (sBase.launched).withHart fun h => { h with trap := { h.trap with inTrap := true } }
    ownTrap s .brk = some (0x10, 0, s.hart.nextPc) ∧ s.isReady 0 ∧ s.hart.trap.inTrap = true ∧ s.power.window = false ∧
      s.hart.marks.halted = false ∧ s.launch s.hart.ident.seq = some lBase ∧ lBase.removal = none := by
  unfold State.isReady State.mayUse Hart.orderly Hart.timely Hart.quiet; decide +kernel

theorem test_hypotheses_of_SystemInstructions :
    sBase.isReady 0 ∧ sBase.hart.ctl.preqReq = false ∧ sBase.hart.marks.removed = false ∧ sBase.hart.copies = [] ∧
      (let s := sBase.withHart fun h => { h with ctl := { h.ctl with preqReq := true } };
        s.isReady 0 ∧ s.hart.ctl.preqReq = true ∧ s.hart.ctl.livetab = 0) := by
  unfold State.isReady State.mayUse Hart.orderly Hart.timely Hart.quiet; decide +kernel

theorem test_hypotheses_of_CsrInstructions :
    let s := sBase.atS.xs [(6, 3)]
    csrForm s (.csrrs ⟨5, 0, 0x402⟩) = some (⟨5, 0, 0x402⟩, false, s.csrRead 0x402) ∧
      csrForm s (.csrrw ⟨5, 6, 0x302⟩) = some (⟨5, 6, 0x302⟩, true, 3) ∧ s.isReady 0 ∧
      csrPermitted .s 0x402 false = true ∧ s.tlbHeld (some s.hart.ident.id) (invFields (s.csrRead 0x402)).1
        (invFields (s.csrRead 0x402)).2.1 (invFields (s.csrRead 0x402)).2.2 = false ∧ csrPermitted .s 0x302 true = true ∧
      csrReserved 0x302 3 = false ∧ s.csrShape 0x302 3 = none ∧ csrReserved 0x302 (s.x 6) = false ∧
      csrPermitted .u 0xFFF true = false ∧ csrPermitted .u 0x302 true = false ∧ sBase.canTrap sBase := by
  unfold State.isReady State.mayUse Hart.orderly Hart.timely Hart.quiet State.canTrap; decide +kernel

theorem test_hypotheses_of_AcquireLoads :
    let s := sBase.xs [(1, 0xFFFF)]
    s.isReady 1 ∧ (s.x 1 + (0 : BitVec 18).signExtend 64).toNat % MemSize.b1.bytes = 0 ∧
      s.locate .load (s.x 1 + (0 : BitVec 18).signExtend 64) = (s, .ok (0x800000FFFF, .rc)) ∧
      (s.ordered .rc).readAt .load 0x800000FFFF 1 .rc 1 = (s, .ok [0]) := by
  unfold State.isReady State.mayUse Hart.orderly Hart.timely Hart.quiet; decide +kernel

theorem test_hypotheses_of_ReleaseStores :
    ∀ s ∈ [sBase.xs [(1, 0x100), (5, 3)], (sBase.xs [(1, 0x100), (5, 3)]).stripOpen], s.isReady 1 ∧
      (s.x 1 + (0 : BitVec 18).signExtend 64).toNat % MemSize.b8.bytes = 0 ∧
      s.locate .store (s.x 1 + (0 : BitVec 18).signExtend 64) = (s, .ok (0x8000000100, .rc)) ∧
      s.checkAt .store 0x8000000100 = (s, .ok ()) ∧ s.homeMemory 0x8000000100 ∧ Memory.wf s.store.mem = true ∧
      s.hart.wouldOverflow 8 = false := by
  intro s h
  rcases List.mem_cons.1 h with rfl | h
  · exact ⟨by unfold State.isReady State.mayUse Hart.orderly Hart.timely Hart.quiet; decide +kernel, by decide +kernel, by decide +kernel, by decide +kernel,
      home_of (d := 0) (by decide +kernel) (by decide +kernel), by decide +kernel, by decide +kernel⟩
  · rcases List.mem_cons.1 h with rfl | h
    · exact ⟨by unfold State.isReady State.mayUse Hart.orderly Hart.timely Hart.quiet; decide +kernel, by decide +kernel, by decide +kernel,
        by decide +kernel, home_of (d := 0) (by decide +kernel) (by decide +kernel), by decide +kernel, by decide +kernel⟩
    · exact absurd h (by simp)

/-- A hart with an address and operands, in an open strip. -/
def sAtomic : State := (sBase.xs [(1, 0x108), (2, 0), (3, 7)]).stripOpen

/-- AtomicsShared, CompareAndSwap with an equal and with another expected value, and AtomicsPrivate. -/
theorem test_hypotheses_of_Atomics :
    amoForm (.amoswp ⟨5, 1, 3, true, .c, .ar⟩) = some (.swp, ⟨5, 1, 3, true, .c, .ar⟩) ∧ sAtomic.isReady 1 ∧
      (sAtomic.x 1).toNat % amoBytes true = 0 ∧ sAtomic.locate .atomic (sAtomic.x 1) = (sAtomic, .ok (0x8000000108, .rc)) ∧
      sAtomic.commit.readAt .atomic 0x8000000108 8 .so 1 = (sAtomic.commit, .ok (List.replicate 8 0)) ∧
      sAtomic.readAt .atomic 0x8000000108 8 .rc 1 = (sAtomic, .ok (List.replicate 8 0)) ∧
      leNat (List.replicate 8 0) = (sAtomic.x 2).toNat % 2 ^ 64 ∧ leNat (List.replicate 8 0) ≠ (sAtomic.x 3).toNat % 2 ^ 64 ∧
      sAtomic.homeMemory 0x8000000108 ∧ Memory.wf sAtomic.store.mem = true ∧ sAtomic.hart.strip ≠ none ∧
      sAtomic.hart.wouldOverflow 8 = false := by
  refine ⟨by decide +kernel, by unfold State.isReady State.mayUse Hart.orderly Hart.timely Hart.quiet; decide +kernel, by decide +kernel, by decide +kernel,
    by decide +kernel, by decide +kernel, by decide +kernel, by decide +kernel,
    home_of (d := 0) (by decide +kernel) (by decide +kernel), by decide +kernel⟩

theorem test_hypotheses_of_WaitOnMemory :
    sAtomic.isReady 1 ∧ (sAtomic.x 1).toNat % amoBytes false = 0 ∧
      sAtomic.locate .load (sAtomic.x 1) = (sAtomic, .ok (0x8000000108, .rc)) ∧
      sAtomic.readAt .load 0x8000000108 4 .rc 1 = (sAtomic, .ok [0, 0, 0, 0]) ∧
      WaitCond.holds .eq (leNat [0, 0, 0, 0]) ((sAtomic.x 2).toNat % 2 ^ 32) = true ∧
      WaitCond.holds .geu (leNat [0, 0, 0, 0]) ((sAtomic.x 3).toNat % 2 ^ 32) = false := by
  unfold State.isReady State.mayUse Hart.orderly Hart.timely Hart.quiet; decide +kernel

/-- Page tables in near memory: the page at address 0 has a leaf with SHD at 0x8000040000 and a shadow word beyond. -/
def mTables : Mem :=
  [(0x8000010000, 0x8000020003), (0x8000020000, 0x8000030003), (0x8000030000, 0x8000040003), (0x8000040000, 0x800000013D),
    (0x8000050000, 0x800006003D)].foldl (fun m p => writeNat m p.1 8 p.2) sBase.store.mem
/-- A hart that runs under these tables. -/
def sTables : State :=
  { (sBase.xs [(1, 0), (2, 1), (3, 0x1000001)]).withHart fun h => { h with xctx := ⟨0, 0x8000010000, 0⟩ } with
    store := { sBase.store with mem := mTables }
    access := sBase.access ++ [⟨4, 0, 1, 0x800000000F, 0x80000F0000⟩] }

theorem test_hypotheses_of_PublishExchanges :
    sTables.isReady 1 ∧ (sTables.x 1).toNat % 65536 = 0 ∧ sTables.x 2 = 1 ∧ sTables.hart.copies = [] ∧
      sTables.commit.shadowWords sTables.me sTables.hart.xctx (sTables.x 1).toNat =
        (sTables, .ok (0x8000040000, 0x8000050000, 0x800000013D, 0x800006003D)) ∧
      sTables.checkAt .store 0x8000040000 = (sTables, .ok ()) ∧ sTables.checkAt .store 0x8000050000 = (sTables, .ok ()) ∧
      sTables.homeMemory 0x8000040000 ∧ sTables.homeMemory 0x8000050000 ∧
      paLocal 0x8000040000 + 8 ≤ paLocal 0x8000050000 ∧ Memory.wf sTables.store.mem = true :=
  ⟨by unfold State.isReady State.mayUse Hart.orderly Hart.timely Hart.quiet; decide +kernel, by decide +kernel, by decide +kernel, by decide +kernel,
    by decide +kernel, by decide +kernel, by decide +kernel, home_of (d := 0) (by decide +kernel) (by decide +kernel),
    home_of (d := 0) (by decide +kernel) (by decide +kernel), by decide +kernel, by decide +kernel⟩

/-- The length of a whole-cache invalidation. -/
theorem test_hypotheses_of_CacheMaintenance : sTables.isReady 1 ∧ 0x1000000 < (sTables.x 3).toNat := by
  unfold State.isReady State.mayUse Hart.orderly Hart.timely Hart.quiet; decide +kernel

/-- A gate of core 0 bound with two expected arrivals and one made. -/
def sGate : State := (sBase.xs [(1, 5), (2, 65535), (3, 0), (4, 1)]).setGate 5 ⟨2, 1, false, some 0, some 0⟩

/-- GateArrivals, GateWaits and GateMisuse: an unbound gate, the last arrival, an arrival that is not the last, both
phases, and an arrival too many. -/
theorem test_hypotheses_of_Gates :
    sGate.isReady 1 ∧ sGate.gateMisuse (sGate.x 4) sGate.hart.xctx.ctxid (.ginit (sGate.x 2).toNat) = none ∧
      sGate.badGate (sGate.x 4) = false ∧ sGate.badGate (sGate.x 1) = false ∧
      sGate.gateMisuse (sGate.x 1) sGate.hart.xctx.ctxid (.arrive (sGate.arriveCount ⟨6, 1, 0, .c⟩)) = none ∧
      (sGate.gateOf (sGate.x 1)).arr.toNat + sGate.arriveCount ⟨6, 1, 0, .c⟩ = (sGate.gateOf (sGate.x 1)).exp.toNat ∧
      sGate.gateMisuse (sGate.x 1) sGate.hart.xctx.ctxid (.arrive (sGate.arriveCount ⟨6, 1, 3, .c⟩)) = none ∧
      (sGate.gateOf (sGate.x 1)).arr.toNat + sGate.arriveCount ⟨6, 1, 3, .c⟩ ≠ (sGate.gateOf (sGate.x 1)).exp.toNat ∧
      sGate.gateMisuse (sGate.x 1) sGate.hart.xctx.ctxid .look = none ∧ sGate.hart.marks.garw = [] ∧
      (sGate.gateOf (sGate.x 1)).ph ≠ (sGate.x 4).getLsbD 0 ∧ (sGate.gateOf (sGate.x 1)).ph = (sGate.x 3).getLsbD 0 ∧
      sGate.canTrap sGate ∧
      sGate.gateMisuse (sGate.x 1) sGate.hart.xctx.ctxid (.arrive (sGate.arriveCount ⟨6, 1, 2, .c⟩)) = some 6 := by
  unfold State.isReady State.mayUse Hart.orderly Hart.timely Hart.quiet State.canTrap; decide +kernel

/-- A GARW that is not the last arrival of its gate. -/
theorem test_hypotheses_of_GateWaits_not_last :
    let s := (sBase.xs [(1, 5)]).setGate 5 ⟨2, 0, true, some 0, some 0⟩
    s.isReady 1 ∧ s.hart.marks.garw = [] ∧
      s.gateMisuse (s.x 1) s.hart.xctx.ctxid (.arrive (s.arriveCount ⟨6, 1, 0, .c⟩)) = none ∧ s.badGate (s.x 1) = false ∧
      s.arriveCount ⟨6, 1, 0, .c⟩ ≠ 0 ∧
      (s.gateOf (s.x 1)).arr.toNat + s.arriveCount ⟨6, 1, 0, .c⟩ ≠ (s.gateOf (s.x 1)).exp.toNat := by
  unfold State.isReady State.mayUse Hart.orderly Hart.timely Hart.quiet; decide +kernel

/-- The second stage of a launch of two, which pops queue 63 of depth 16, with one entry or none. -/
def sQueue (stage : Fin 8) (es : List (Word × Word)) : State :=
  { (sBase.launched.withHart fun h => { h with ident := { h.ident with stage := stage } }).setQueue 0 63 ⟨16, some 0, es⟩ with
    sched := { sBase.sched with launches := [{ lBase with record := { lBase.record with
      stages := [⟨0, 0x7FFFFF, 1, 1, some 63, 16, 0⟩, ⟨0, 0x7FFFFF, 1, 1, none, 0, 0⟩] } }] } }

theorem test_hypotheses_of_HardwareQueues :
    (let s := sQueue 0 (List.replicate 15 (1, 2));
      s.isReady 2 ∧ s.queueReason 63 true = none ∧ s.badQueue s.hart.core 63 = false ∧
        (s.queue s.hart.core 63).entries.length < (s.queue s.hart.core 63).depth) ∧
    (let s := sQueue 1 [(1, 2)];
      s.isReady 2 ∧ (QpopOps.mk 63 12 14).wellFormed = true ∧ s.queueReason 63 false = none ∧
        s.badQueue s.hart.core 63 = false ∧ (s.queue s.hart.core 63).entries = (1, 2) :: []) ∧
    (let s := sQueue 1 [];
      s.isReady 2 ∧ s.queueReason 63 false = none ∧ s.commit.popFrom 63 = none ∧ s.feedEnded = false) := by
  refine ⟨?_, ?_, ?_⟩ <;> (unfold State.isReady State.mayUse Hart.orderly Hart.timely Hart.quiet; decide +kernel)

theorem test_hypotheses_of_QueueErrors :
    sBase.isReady 2 ∧ sBase.canTrap sBase ∧ sBase.queueReason 0 true = some 0x21 ∧
      (sQueue 1 []).queueReason 63 true = some 0x22 := by
  unfold State.isReady State.mayUse Hart.orderly Hart.timely Hart.quiet State.canTrap; decide +kernel

theorem test_hypotheses_of_LaunchHandsOver :
    (let s := sBase.xs [(6, 0x1FFFFFFFFFFFF00)];
      s.isReady 2 ∧ s.hart.marks.launchAnswer = none ∧ (s.x 6).toNat % 256 = 0 ∧ (s.x 6).toNat < 2 ^ 57 ∧
        s.launching = false) ∧
    (let s := sBase.withHart fun h => { h with marks := { h.marks with launchAnswer := some (.inr 65537) } };
      s.isReady 2 ∧ s.hart.marks.launchAnswer = some (.inr 65537)) := by
  unfold State.isReady State.mayUse Hart.orderly Hart.timely Hart.quiet; decide +kernel

/-- A launch with one declared item of 128 bytes, and its hart granted. -/
def sHold : State :=
  { ((sBase.xs [(1, 0), (2, 128)]).withHart fun h => { h with ctl := { h.ctl with holdgrant := 0x80010000 } }) with
    sched := { sBase.sched with launches := [{ lBase with hold := some ⟨1, 7, [⟨0x1000, 128, 1, 0⟩]⟩ }] } }

theorem test_hypotheses_of_SealRecords :
    sHold.isReady 3 ∧ sHold.holdReason (sHold.x 1) (some (sHold.x 2)) = none ∧ sHold.hart.copies = [] ∧
      sHold.launch sHold.hart.ident.seq = some { lBase with hold := some ⟨1, 7, [⟨0x1000, 128, 1, 0⟩]⟩ } ∧
      sHold.holdReason (sHold.x 1) none = none := by
  unfold State.isReady State.mayUse Hart.orderly Hart.timely Hart.quiet; decide +kernel

/-- A hart with a list, a length and operands, nothing posted. -/
def sTile : State := sBase.xs [(1, 62), (2, 100), (3, 0x400010100)]

theorem test_hypotheses_of_TileSetting :
    sTile.vectorPosts (.vcfg ⟨1, 3, 1⟩) ∧ sTile.vectorPosts (.setvl ⟨5, 2, .w32⟩) ∧ sTile.vectorPosts (.setvr ⟨5, 2, .w32⟩) :=
  ⟨posts_of (by decide +kernel), posts_of (by decide +kernel), posts_of (by decide +kernel)⟩

theorem test_hypotheses_of_SetvlbBranches :
    (∀ a ∈ [(0 : XReg), 2], sTile.vectorPosts (.setvlb ⟨5, a, .w32, 0, 0⟩)) ∧ sTile.setvlGrant (sTile.x 2) .w32 ≠ 0 ∧
      sTile.setvlGrant (sTile.x 0) .w32 = 0 ∧
      sTile.targetIllegal .u (relTarget sTile.hart.scalar.pc 0 0) = (sTile, .ok false) ∧
      sTile.targetIllegal .u (relTarget sTile.hart.scalar.pc 0 31) = (sTile, .ok true) ∧ sTile.canTrap sTile := by
  refine ⟨?_, by unfold State.canTrap; decide +kernel⟩
  intro a h
  rcases List.mem_cons.1 h with rfl | h
  · exact posts_of (by decide +kernel)
  · rcases List.mem_cons.1 h with rfl | h
    · exact posts_of (by decide +kernel)
    · exact absurd h (by simp)

theorem test_hypotheses_of_MatrixSetting :
    mshapeOf (sTile.x 3) = some ⟨256, 64, 16384⟩ ∧ sTile.vectorPosts (.msets 3) ∧ sTile.vectorPosts (.mzero ⟨4, 2⟩) :=
  ⟨by decide +kernel, posts_of (by decide +kernel), posts_of (by decide +kernel)⟩

/-- Sixty-four vector registers and a tile of one row of two elements, with an address, an index and a value. -/
def sVec : State :=
  ((sBase.xs [(1, 0x200), (2, 4), (3, 2)]).tiled 1 2).withHart fun h => { h with v := { h.v with nvCode := 3 } }

/-- An element of a tile of one row of two that a vector memory instruction accesses is one of the two. -/
theorem active_two {s : State} {m : MReg} {row el : Nat} (hr : s.hart.v.vrows = 1) (hl : s.hart.v.vl = 2)
    (h : s.active m row el = true) : row = 0 ∧ (el = 0 ∨ el = 1) := by
  simp only [State.active, Bool.and_eq_true, decide_eq_true_eq, hr, hl] at h
  omega

theorem accesses_two {s : State} {v : VInstr} {m : MReg} {row el : Nat} (hr : s.hart.v.vrows = 1) (hl : s.hart.v.vl = 2)
    (h : s.accesses v m row el = true) : row = 0 ∧ (el = 0 ∨ el = 1) := by
  simp only [State.accesses, State.executes] at h
  split at h
  · simp only [Bool.and_eq_true] at h
    exact active_two hr hl h.1
  · exact active_two hr hl h

theorem test_hypotheses_of_VectorIntegers :
    ∃ out, posted (.vsub ⟨4, 5, .x 1, .w32, 0⟩) = some (.via .sub ⟨4, 5, .x 1, .w32, 0⟩) ∧
      integerOut sVec (.via .sub ⟨4, 5, .x 1, .w32, 0⟩) = some out ∧ sVec.vectorReady (.via .sub ⟨4, 5, .x 1, .w32, 0⟩) ∧
      sVec.unchecked (.via .sub ⟨4, 5, .x 1, .w32, 0⟩) ∧ out.order = none :=
  ⟨_, rfl, rfl, ⟨posts_of (by decide +kernel), by decide +kernel⟩, by unfold State.unchecked; decide +kernel, rfl⟩

/-- RCHKMODE set to check everything. -/
def sChecked : State := sVec.withHart fun h => { h with ctl := { h.ctl with rchkmode := 2 } }

/-- An instruction that waits for its recheck. -/
theorem test_hypotheses_of_VectorIntegers_checked :
    ∃ out, integerOut sChecked (.via .sub ⟨4, 5, .x 1, .w32, 0⟩) = some out ∧
      sChecked.vectorReady (.via .sub ⟨4, 5, .x 1, .w32, 0⟩) ∧ ¬ sChecked.unchecked (.via .sub ⟨4, 5, .x 1, .w32, 0⟩) :=
  ⟨_, rfl, ⟨posts_of (by decide +kernel), by decide +kernel⟩, by unfold State.unchecked; decide +kernel⟩

theorem test_hypotheses_of_VectorFloats :
    ∃ out, posted (.vfma ⟨4, 5, .v 6, 7, .f32, .rtz, 0⟩) = some (.vfma .fma ⟨4, 5, .v 6, 7, .f32, .rtz, 0⟩) ∧
      floatOut sVec (.vfma .fma ⟨4, 5, .v 6, 7, .f32, .rtz, 0⟩) = some out ∧
      sVec.vectorReady (.vfma .fma ⟨4, 5, .v 6, 7, .f32, .rtz, 0⟩) ∧ out.order = none :=
  ⟨_, rfl, rfl, ⟨posts_of (by decide +kernel), by decide +kernel⟩, rfl⟩

theorem test_hypotheses_of_VectorMoves :
    ∃ out, posted (.vcmplt ⟨3, 5, .x 0, .w16, 0⟩) = some (.vcmp .lt ⟨3, 5, .x 0, .w16, 0⟩) ∧
      moveOut sVec (.vcmp .lt ⟨3, 5, .x 0, .w16, 0⟩) = some out ∧ sVec.vectorReady (.vcmp .lt ⟨3, 5, .x 0, .w16, 0⟩) ∧
      out.order = none :=
  ⟨_, rfl, rfl, ⟨posts_of (by decide +kernel), by decide +kernel⟩, rfl⟩

theorem test_hypotheses_of_VectorReductions :
    ∃ out, posted (.vxscansum ⟨4, 5, .row, .w64, 0⟩) = some (.vscan .sum true ⟨4, 5, .row, .w64, 0⟩) ∧
      reduceOut sVec (.vscan .sum true ⟨4, 5, .row, .w64, 0⟩) = some out ∧
      sVec.vectorReady (.vscan .sum true ⟨4, 5, .row, .w64, 0⟩) ∧ out.order = none :=
  ⟨_, rfl, rfl, ⟨posts_of (by decide +kernel), by decide +kernel⟩, rfl⟩

theorem test_hypotheses_of_VectorPermutations :
    ∃ out, posted (.vcompress ⟨4, 5, 6, .w32, 0⟩) = some (.vcompress ⟨4, 5, 6, .w32, 0⟩) ∧
      permuteOut sVec (.vcompress ⟨4, 5, 6, .w32, 0⟩) = some out ∧ sVec.vectorReady (.vcompress ⟨4, 5, 6, .w32, 0⟩) ∧
      out.order = none :=
  ⟨_, rfl, rfl, ⟨posts_of (by decide +kernel), by decide +kernel⟩, rfl⟩

/-- ORDTRAP set. -/
def sOrd : State := sVec.withHart fun h => { h with trap := { h.trap with ordTrap := true } }

/-- VectorSorts, and OrderTraps with two equal keys at the head of list A. -/
theorem test_hypotheses_of_VectorSorts :
    (∃ out, posted (.vsort ⟨4, 6, .w32, true, false, 0⟩) = some (.vsort ⟨4, 6, .w32, true, false, 0⟩) ∧
      sortOut sVec (.vsort ⟨4, 6, .w32, true, false, 0⟩) = some out ∧
      sVec.vectorReady (.vsort ⟨4, 6, .w32, true, false, 0⟩) ∧ out.order = none) ∧
    (let s := sOrd;
      ∃ out, (Instr.vmrg ⟨4, 7, 6, 8, 3, .w32⟩).wellFormed = true ∧ sortOut s (.vmrg ⟨4, 7, 6, 8, 3, .w32⟩) = some out ∧
        s.vectorReady (.vmrg ⟨4, 7, 6, 8, 3, .w32⟩) ∧ out.order = some (false, 1) ∧ s.hart.trap.ordTrap = true ∧
        s.hart.hist = [] ∧ s.canTrap s) :=
  ⟨⟨_, rfl, rfl, ⟨posts_of (by decide +kernel), by decide +kernel⟩, rfl⟩,
    ⟨_, by decide, rfl, ⟨posts_of (by decide +kernel), by decide +kernel⟩, by decide +kernel, by decide +kernel,
      by decide +kernel, by unfold State.canTrap; decide +kernel⟩⟩

/-- A matrix shape set. -/
def sMat : State := sVec.withHart fun h => { h with v := { h.v with mshape := ⟨1, 2, 1⟩ } }

theorem test_hypotheses_of_MatrixProducts :
    ∃ out, posted (.mmaOp ⟨8, 0, some 2, false, 0, 0, 0, false, 0, 3, 3⟩) =
        some (.mma .op ⟨8, 0, some 2, false, 0, 0, 0, false, 0, 3, 3⟩) ∧
      matrixOut sMat (.mma .op ⟨8, 0, some 2, false, 0, 0, 0, false, 0, 3, 3⟩) = some out ∧
      sMat.vectorReady (.mma .op ⟨8, 0, some 2, false, 0, 0, 0, false, 0, 3, 3⟩) ∧ out.order = none :=
  ⟨_, rfl, rfl, ⟨posts_of (by decide +kernel), by decide +kernel⟩, rfl⟩

theorem reads_of {s : State} {k : AccessKind} {va : Word} {n v pa : Nat} {bs : List Byte}
    (h : s.locate k va = (s, .ok (pa, .rc)) ∧ s.readAt k pa n .rc s.hart.nextSeq = (s, .ok bs) ∧ v = leNat bs) :
    s.readsAt k va n v :=
  ⟨pa, .rc, bs, by decide, h⟩

/-- Both elements of a load are aligned and read 0. -/
theorem test_hypotheses_of_VectorLoads :
    sVec.vectorReady (.vld false ⟨4, 1, 0, .w32, 0⟩) ∧ sVec.allAligned (.vld false ⟨4, 1, 0, .w32, 0⟩) 0 4 ∧
      ∀ row el, sVec.accesses (.vld false ⟨4, 1, 0, .w32, 0⟩) 0 row el = true →
        sVec.readsAt .load (sVec.memAddr (sVec.entryOf (.vld false ⟨4, 1, 0, .w32, 0⟩)) (.vld false ⟨4, 1, 0, .w32, 0⟩) row el)
          4 0 := by
  refine ⟨⟨posts_of (by decide +kernel), by decide +kernel⟩, ?_, ?_⟩
  · intro row el h
    obtain ⟨rfl, rfl | rfl⟩ := active_two (by decide +kernel) (by decide +kernel) h <;> decide +kernel
  · intro row el h
    obtain ⟨rfl, rfl | rfl⟩ := accesses_two (by decide +kernel) (by decide +kernel) h
    · exact reads_of (pa := 0x8000000200) (bs := [0, 0, 0, 0]) (by decide +kernel)
    · exact reads_of (pa := 0x8000000204) (bs := [0, 0, 0, 0]) (by decide +kernel)

/-- The last page below 2^57 mapped, and an address whose second element is beyond the address space. -/
def sEdge : State :=
  { (sVec.xs [(1, 0x1FFFFFFFFFFFFFC)]) with
    tlb := ⟨0, 0x1FFFFFFFFFF, false, 0x800000003D, none⟩ :: sVec.tlb }

/-- VLDFF whose second element is the first that faults. -/
theorem test_hypotheses_of_VectorLoads_first_fault :
    sEdge.vectorReady (.vldff ⟨4, 1, 0, .w32, 0⟩) ∧ sEdge.allAligned (.vldff ⟨4, 1, 0, .w32, 0⟩) 0 4 ∧
      (∀ row el, sEdge.active 0 row el = true → row * sEdge.hart.v.vl + el < 1 →
        sEdge.readsAt .load (sEdge.memAddr (sEdge.entryOf (.vldff ⟨4, 1, 0, .w32, 0⟩)) (.vldff ⟨4, 1, 0, .w32, 0⟩) row el)
          4 0) ∧
      (∀ row el, sEdge.active 0 row el = true → 1 ≤ row * sEdge.hart.v.vl + el → ∃ c r l,
        sEdge.locate .load (sEdge.memAddr (sEdge.entryOf (.vldff ⟨4, 1, 0, .w32, 0⟩)) (.vldff ⟨4, 1, 0, .w32, 0⟩) row el) =
          (sEdge, .error (.fault c r l))) ∧
      sEdge.active 0 (1 / sEdge.hart.v.vl) (1 % sEdge.hart.v.vl) = true ∧ sEdge.active 0 0 0 = true := by
  refine ⟨⟨posts_of (by decide +kernel), by decide +kernel⟩, ?_, ?_, ?_, by decide +kernel⟩
  · intro row el h
    obtain ⟨rfl, rfl | rfl⟩ := active_two (by decide +kernel) (by decide +kernel) h <;> decide +kernel
  · intro row el h g
    obtain ⟨rfl, rfl | rfl⟩ := active_two (by decide +kernel) (by decide +kernel) h
    · exact reads_of (pa := 0x800000FFFC) (bs := [0, 0, 0, 0]) (by decide +kernel)
    · exact absurd g (by decide +kernel)
  · intro row el h g
    obtain ⟨rfl, rfl | rfl⟩ := active_two (by decide +kernel) (by decide +kernel) h
    · exact absurd g (by decide +kernel)
    · exact ⟨7, 3, 0, by decide +kernel⟩

/-- Stores in an open strip and outside one, and misaligned ones with the lowest at element 0 (R133). -/
theorem test_hypotheses_of_VectorStores :
    ∀ s ∈ [sVec, sVec.stripOpen], s.vectorReady (.vst false ⟨4, 1, 0, .w32, 0⟩) ∧
      s.allAligned (.vst false ⟨4, 1, 0, .w32, 0⟩) 0 4 ∧
      (∀ row el, s.accesses (.vst false ⟨4, 1, 0, .w32, 0⟩) 0 row el = true →
        s.storesAt (s.memAddr (s.entryOf (.vst false ⟨4, 1, 0, .w32, 0⟩)) (.vst false ⟨4, 1, 0, .w32, 0⟩) row el)
          (0x8000000200 + 4 * el, .rc) ∧ s.homeMemory (0x8000000200 + 4 * el)) ∧
      bufferedBytes s.hart.sbuf + 4 * (s.accessed (.vst false ⟨4, 1, 0, .w32, 0⟩) 0).length ≤ 65536 := by
  intro s h
  rcases List.mem_cons.1 h with rfl | h
  · refine ⟨⟨posts_of (by decide +kernel), by decide +kernel⟩, ?_, ?_, by decide +kernel⟩
    · intro row el h
      obtain ⟨rfl, rfl | rfl⟩ := active_two (by decide +kernel) (by decide +kernel) h <;> decide +kernel
    · intro row el h
      obtain ⟨rfl, rfl | rfl⟩ := accesses_two (by decide +kernel) (by decide +kernel) h <;>
        exact ⟨⟨by decide, by decide +kernel, by decide +kernel⟩,
          home_of (d := 0) (by decide +kernel) (by decide +kernel)⟩
  · rcases List.mem_cons.1 h with rfl | h
    · refine ⟨⟨posts_of (by decide +kernel), by decide +kernel⟩, ?_, ?_,
        by decide +kernel⟩
      · intro row el h
        obtain ⟨rfl, rfl | rfl⟩ := active_two (by decide +kernel) (by decide +kernel) h <;> decide +kernel
      · intro row el h
        obtain ⟨rfl, rfl | rfl⟩ := accesses_two (by decide +kernel) (by decide +kernel) h <;>
          exact ⟨⟨by decide, by decide +kernel, by decide +kernel⟩,
            home_of (d := 0) (by decide +kernel) (by decide +kernel)⟩
    · exact absurd h (by simp)

/-- Indices 0 and 8 in v6, for two atomics on disjoint words. -/
def sAtom2 : State := sVec.withHart fun h => { h with vrf := vset h.vrf 6 32 0 1 8 }

/-- VAMOADD.w with RET of a scope. -/
def oVamo (sc : Scope) : VamoOps := ⟨4, 1, 6, false, sc, .ar, true, 0⟩

/-- VAMO on two disjoint places: of scope .c outside a strip, and of scope .h in an open one. -/
theorem test_hypotheses_of_VectorAtomics :
    ∀ p ∈ [(sAtom2, Scope.c), (sAtom2.stripOpen, Scope.h)], posted (.vamoadd (oVamo p.2)) = some (.vamo .add (oVamo p.2)) ∧
      p.1.vectorReady (.vamo .add (oVamo p.2)) ∧ p.1.allAligned (.vamo .add (oVamo p.2)) 0 4 ∧
      (∀ row el, p.1.accesses (.vamo .add (oVamo p.2)) 0 row el = true →
        p.1.locate .atomic (p.1.memAddr (p.1.entryOf (.vamo .add (oVamo p.2))) (.vamo .add (oVamo p.2)) row el) =
          (p.1, .ok (0x8000000200 + 8 * el, .rc)) ∧
        p.1.homeMemory (0x8000000200 + 8 * el) ∧
        p.1.readAt .atomic (0x8000000200 + 8 * el) 4 .rc p.1.hart.nextSeq = (p.1, .ok [0, 0, 0, 0]) ∧
        p.1.readAt .atomic (0x8000000200 + 8 * el) 4 .so p.1.hart.nextSeq = (p.1, .ok [0, 0, 0, 0])) ∧
      Memory.wf p.1.store.mem = true ∧
      bufferedBytes p.1.hart.sbuf + 4 * (p.1.accessed (.vamo .add (oVamo p.2)) 0).length ≤ 65536 := by
  intro p h
  rcases List.mem_cons.1 h with rfl | h
  · refine ⟨rfl, ⟨posts_of (by decide +kernel), by decide +kernel⟩, ?_, ?_, by decide +kernel, by decide +kernel⟩
    · intro row el h
      obtain ⟨rfl, rfl | rfl⟩ := active_two (by decide +kernel) (by decide +kernel) h <;> decide +kernel
    · intro row el h
      obtain ⟨rfl, rfl | rfl⟩ := accesses_two (by decide +kernel) (by decide +kernel) h <;>
        exact ⟨by decide +kernel, home_of (d := 0) (by decide +kernel) (by decide +kernel), by decide +kernel,
          by decide +kernel⟩
  · rcases List.mem_cons.1 h with rfl | h
    · refine ⟨rfl, ⟨posts_of (by decide +kernel), by decide +kernel⟩, ?_, ?_,
        by decide +kernel, by decide +kernel⟩
      · intro row el h
        obtain ⟨rfl, rfl | rfl⟩ := active_two (by decide +kernel) (by decide +kernel) h <;> decide +kernel
      · intro row el h
        obtain ⟨rfl, rfl | rfl⟩ := accesses_two (by decide +kernel) (by decide +kernel) h <;>
          exact ⟨by decide +kernel, home_of (d := 0) (by decide +kernel) (by decide +kernel), by decide +kernel,
            by decide +kernel⟩
    · exact absurd h (by simp)

theorem test_hypotheses_of_VectorAlignment :
    let s := sVec.xs [(1, 0x201)]
    vectorMemoryForm (.vst false ⟨4, 1, 0, .w32, 0⟩) = some (0, 4) ∧ s.vectorReady (.vst false ⟨4, 1, 0, .w32, 0⟩) ∧
      s.hart.hist = [] ∧ s.hart.sbuf = [] ∧ s.canTrap s ∧ s.active (s.maskOf (.vst false ⟨4, 1, 0, .w32, 0⟩) 0) 0 0 = true ∧
      (s.memAddr (s.entryOf (.vst false ⟨4, 1, 0, .w32, 0⟩)) (.vst false ⟨4, 1, 0, .w32, 0⟩) 0 0).toNat % 4 ≠ 0 ∧
      ∀ r e, s.active (s.maskOf (.vst false ⟨4, 1, 0, .w32, 0⟩) 0) r e = true → ¬r * s.hart.v.vl + e < 0 * s.hart.v.vl + 0 :=
  ⟨rfl, ⟨posts_of (by decide +kernel), by decide +kernel⟩, by decide +kernel, by decide +kernel,
    by unfold State.canTrap; decide +kernel, by decide +kernel, by decide +kernel, fun _ _ _ h => by simp at h⟩

theorem test_hypotheses_of_Transposes :
    (let s := sVec.tiled 2 2;
      s.hart.v.vl = s.hart.v.vrows ∧ s.vectorReady (.vtrans ⟨4, 4, .w64, 0⟩)) ∧
      sVec.hart.v.vl ≠ sVec.hart.v.vrows ∧ sVec.hart.viq = [] ∧ sVec.issueIllegal (.vtrans ⟨4, 4, .w64, 0⟩) (sVec.entryOf (.vtrans ⟨4, 4, .w64, 0⟩)) = none ∧
      sVec.canTrap sVec :=
  ⟨⟨by decide +kernel, posts_of (by decide +kernel), by decide +kernel⟩, by unfold State.canTrap; decide +kernel⟩

/-- A stream with two elements fetched. -/
def qStream : StreamSlot where
  reg := 9
  width := .w32
  indirect := false
  base := 0x400
  estride := 4
  rlen := 1
  rpitch := 4
  idx := 0
  count := 3
  pos := 1
  xctx := ⟨0, 0, 0⟩
  level := .u
  fetched := [.value 7, .value 8]
  again := false
/-- Words of memory from 0x8000000000 set. -/
def memOf (l : List (Nat × Nat)) : Mem := l.foldl (fun m p => writeNat m (0x8000000000 + p.1) 8 p.2) sBase.store.mem
/-- A stream descriptor at 0x300: base 0x400, elements 4 bytes apart in runs of one, COUNT 3; v9's stream in slot 2. -/
def sStream : State :=
  { (sVec.xs [(5, 0x300), (6, 9)]).withHart fun h => { h with streams := h.streams.set 2 (some qStream) } with
    store := { sBase.store with mem := memOf [(0x300, 0x400), (0x308, 0x100000004), (0x310, 4), (0x318, 3)] } }

theorem test_hypotheses_of_Streams :
    sStream.vectorPosts (.stra false ⟨7, 5, 6, 0, .w32⟩) ∧ (sStream.x 5).toNat % 8 = 0 ∧
      sStream.readsAt .load (sStream.x 5) 8 0x400 ∧ sStream.readsAt .load (sStream.x 5 + 8) 8 0x100000004 ∧
      sStream.readsAt .load (sStream.x 5 + 16) 8 4 ∧ sStream.readsAt .load (sStream.x 5 + 24) 8 3 ∧
      0x100000004 / 2 ^ 32 ≠ 0 ∧ sVec.vectorPosts (.stra true ⟨7, 1, 3, 0, .w32⟩) ∧
      (sVec.x 1).toNat % 8 = 0 ∧ sVec.readsAt .load (sVec.x 1) 8 0 ∧ sVec.readsAt .load (sVec.x 1 + 8) 8 0 ∧
      sVec.readsAt .load (sVec.x 1 + 16) 8 0 ∧ sVec.readsAt .load (sVec.x 1 + 24) 8 0 ∧
      sStream.vectorPosts (.stroff ⟨2⟩) ∧ sStream.vectorPosts (.strpos ⟨5, 2⟩) ∧
      sStream.vectorPosts (.vmv ⟨10, 9, .w32, 0⟩) ∧ sStream.hart.streamOn 9 = some 2 ∧
      ((sStream.hart.streams[(2 : Fin 4)]).map fun q => (q.width, q.fetched)) =
        some (.w32, [(7 : Word), 8].map StreamElem.value) ∧
      0 < sStream.hart.v.vl ∧ sStream.hart.v.vrows * sStream.hart.v.vl ≤ [(7 : Word), 8].length :=
  ⟨posts_of (by decide +kernel), by decide +kernel,
    reads_of (pa := 0x8000000300) (bs := [0, 4, 0, 0, 0, 0, 0, 0]) (by decide +kernel),
    reads_of (pa := 0x8000000308) (bs := [4, 0, 0, 0, 1, 0, 0, 0]) (by decide +kernel),
    reads_of (pa := 0x8000000310) (bs := [4, 0, 0, 0, 0, 0, 0, 0]) (by decide +kernel),
    reads_of (pa := 0x8000000318) (bs := [3, 0, 0, 0, 0, 0, 0, 0]) (by decide +kernel), by decide,
    posts_of (by decide +kernel), by decide +kernel,
    reads_of (pa := 0x8000000200) (bs := List.replicate 8 0) (by decide +kernel),
    reads_of (pa := 0x8000000208) (bs := List.replicate 8 0) (by decide +kernel),
    reads_of (pa := 0x8000000210) (bs := List.replicate 8 0) (by decide +kernel),
    reads_of (pa := 0x8000000218) (bs := List.replicate 8 0) (by decide +kernel),
    posts_of (by decide +kernel), posts_of (by decide +kernel),
    posts_of (by decide +kernel), by decide +kernel, by decide +kernel, by decide +kernel, by decide +kernel⟩

/-- An indirect stream on v9 is asked for in slot 0 while slot 2 streams v9. -/
def sStreamX : State := sVec.withHart fun h => { h with streams := h.streams.set 2 (some qStream) }

theorem test_hypotheses_of_Streams_earlier :
    sStream.vectorPosts (.stra false ⟨9, 5, 6, 0, .w32⟩) ∧ sStreamX.vectorPosts (.stra true ⟨9, 1, 3, 0, .w32⟩) ∧
      (2 : Fin 4) ≠ 0 ∧ ((sStream.hart.streams[(2 : Fin 4)]).map fun q => q.reg) = some 9 ∧
      ((sStreamX.hart.streams[(2 : Fin 4)]).map fun q => q.reg) = some 9 ∧ (sStreamX.x 1).toNat % 8 = 0 ∧
      sStreamX.readsAt .load (sStreamX.x 1) 8 0 ∧ sStreamX.readsAt .load (sStreamX.x 1 + 8) 8 0 ∧
      sStreamX.readsAt .load (sStreamX.x 1 + 16) 8 0 ∧ sStreamX.readsAt .load (sStreamX.x 1 + 24) 8 0 :=
  ⟨posts_of (by decide +kernel), posts_of (by decide +kernel), by decide, by decide +kernel, by decide +kernel,
    by decide +kernel,
    reads_of (pa := 0x8000000200) (bs := List.replicate 8 0) (by decide +kernel),
    reads_of (pa := 0x8000000208) (bs := List.replicate 8 0) (by decide +kernel),
    reads_of (pa := 0x8000000210) (bs := List.replicate 8 0) (by decide +kernel),
    reads_of (pa := 0x8000000218) (bs := List.replicate 8 0) (by decide +kernel)⟩

theorem test_hypotheses_of_WeightLoad :
    (Instr.wbld ⟨1, 0, 3, 1, 0⟩).wellFormed = true ∧ sMat.vectorReady (.wbld ⟨1, 0, 3, 1, 0⟩) ∧ (sMat.x 1).toNat % 64 = 0 ∧
      (sMat.x 0).toNat % 64 = 0 ∧
      2 = (List.range (sMat.hart.v.mshape.k * sMat.hart.v.mshape.n)).countP (fun p => mget sMat.hart.masks 0 p) ∧
      imageBlocks (sMat.x 1) (imageSizes 3 1 2 2).1 ++ imageBlocks (sMat.x 0) (imageSizes 3 1 2 2).2 = [(0x200, 4)] ∧
      sMat.readsBytes 0x200 4 [0, 0, 0, 0] :=
  ⟨by decide, ⟨posts_of (by decide +kernel), by decide +kernel⟩, by decide +kernel, by decide +kernel,
    by decide +kernel, by decide +kernel, 0x8000000200, .rc, by decide, by decide +kernel, by decide +kernel⟩

/-- A descriptor of the round `id` with one sender, one receiver and payload width 0. -/
def dRound : RoundDesc := ⟨0, 0, 0, 0, 0, false, [], [], none⟩
/-- A round of that descriptor whose only hart is hart 0, its sender opened or not, its receiver opened, with records. -/
def rBase (state : RoundState) (sender : XSender) (receiver : XReceiver) : Round :=
  ⟨0, 7, state, dRound, [sender], [receiver], newPoints dRound [0] [0], [], []⟩
/-- The package with a round, its ROUNDID in x5. -/
def State.inRound (s : State) (r : Round) : State := { (s.xs [(5, 7)]) with rounds := [r] }

theorem test_hypotheses_of_ExchangeSteps :
    (let r := rBase .armed ⟨0, false, false, 0, none, none⟩ ⟨0, false, 0, [], false, [], false, 0, false, none⟩;
      (sVec.inRound r).vectorReady (.xopen ⟨5, 1, 3⟩) ∧ (sVec.inRound r).usesRound 5 r ∧
        (sVec.inRound r).mySender r = some 0 ∧ (r.sender 0).opened = false ∧
        (sVec.inRound r).myReceiver r = some 0 ∧ (r.receiver 0).opened = false ∧
        ((sVec.inRound r).x 1).toNat < 2 ^ 57 ∧ (sVec.inRound r).hart.sbuf = []) ∧
    (let r := rBase .opened ⟨0, true, false, 0, some 2, some 0⟩ ⟨0, true, 0, [], false, [], false, 0, false, some 0⟩;
      (sVec.inRound r).vectorReady (.xclose 5) ∧ (sVec.inRound r).vectorReady (.xfloor ⟨5, 3⟩) ∧
        (sVec.inRound r).usesRound 5 r ∧ (sVec.inRound r).mySender r = some 0 ∧ (r.sender 0).opened = true ∧
        (r.sender 0).closed = false ∧ r.freeFlits 0 ≠ 0 ∧
        (r.sender 0).kept.getD 0 ≤ ((sVec.inRound r).x 3).toNat % 2 ^ 32 ∧
        ((sVec.inRound r).x 0).toNat % 2 ^ 32 < (r.sender 0).kept.getD 0 ∧
        (sVec.inRound r).vectorReady (.xstat ⟨6, 5⟩) ∧ ((sVec.inRound r).x 5).toNat < 65536 ∧
        (sVec.inRound r).round (sVec.inRound r).hart.xctx.ctxid (((sVec.inRound r).x 5).setWidth 16) = some r ∧
        sVec.round sVec.hart.xctx.ctxid ((sVec.x 5).setWidth 16) = none) :=
  ⟨⟨⟨posts_of (by decide +kernel), by decide +kernel⟩, by unfold State.usesRound; decide +kernel,
      by decide +kernel⟩,
    ⟨⟨posts_of (by decide +kernel), by decide +kernel⟩, ⟨posts_of (by decide +kernel), by decide +kernel⟩,
      by unfold State.usesRound; decide +kernel, by decide +kernel, by decide +kernel, by decide +kernel, by decide +kernel,
      by decide +kernel, by decide +kernel, ⟨posts_of (by decide +kernel), by decide +kernel⟩,
      by decide +kernel⟩⟩

/-- A descriptor at 0x200 of a round with hart 0 as its sender and receiver, listed at 0x300 and 0x304. -/
def sArm : State :=
  { sVec with store := { sVec.store with mem := memOf [(0x200, 7), (0x208, 0x100000001), (0x210, 0x300), (0x218, 0x304)] } }

theorem test_hypotheses_of_ExchangeRounds_arm :
    sArm.hart.sbuf = [] ∧ sArm.vectorReady (.xround 1) ∧ (sArm.x 1).toNat % 64 = 0 ∧
      sArm.readsTable (sArm.x 1) 8 [7, 0x100000001, 0x300, 0x304, 0, 0, 0, 0] ∧
      (DescWords.mk 7 0x100000001 0x300 0x304 0 0 0 0).valid = true ∧
      (DescWords.mk 7 0x100000001 0x300 0x304 0 0 0 0).misaligned = none ∧
      sArm.readsTable (BitVec.ofNat 64 0x300) 4 [0] ∧ sArm.readsTable (BitVec.ofNat 64 0x304) 4 [0] ∧
      rising [0] = true ∧ notFalling [] = true ∧ sArm.partyPresent sArm.hart.xctx.ctxid 0 = true ∧
      sArm.round sArm.hart.xctx.ctxid 7 = none ∧ sArm.rounds = [] := by
  refine ⟨by decide +kernel, ⟨posts_of (by decide +kernel), by decide +kernel⟩, by decide +kernel, ?_,
    by decide, by decide, ?_, ?_, by decide, by decide, by decide +kernel, by decide +kernel, by decide +kernel⟩
  · intro i x h
    match i, h with
    | 0, h => cases h; exact reads_of (pa := 0x8000000200) (bs := [7, 0, 0, 0, 0, 0, 0, 0]) (by decide +kernel)
    | 1, h => cases h; exact reads_of (pa := 0x8000000208) (bs := [1, 0, 0, 0, 1, 0, 0, 0]) (by decide +kernel)
    | 2, h => cases h; exact reads_of (pa := 0x8000000210) (bs := [0, 3, 0, 0, 0, 0, 0, 0]) (by decide +kernel)
    | 3, h => cases h; exact reads_of (pa := 0x8000000218) (bs := [4, 3, 0, 0, 0, 0, 0, 0]) (by decide +kernel)
    | 4, h => cases h; exact reads_of (pa := 0x8000000220) (bs := List.replicate 8 0) (by decide +kernel)
    | 5, h => cases h; exact reads_of (pa := 0x8000000228) (bs := List.replicate 8 0) (by decide +kernel)
    | 6, h => cases h; exact reads_of (pa := 0x8000000230) (bs := List.replicate 8 0) (by decide +kernel)
    | 7, h => cases h; exact reads_of (pa := 0x8000000238) (bs := List.replicate 8 0) (by decide +kernel)
    | n + 8, h => simp at h
  · intro i x h
    match i, h with
    | 0, h => cases h; exact reads_of (pa := 0x8000000300) (bs := [0, 0, 0, 0]) (by decide +kernel)
    | n + 1, h => simp at h
  · intro i x h
    match i, h with
    | 0, h => cases h; exact reads_of (pa := 0x8000000304) (bs := [0, 0, 0, 0]) (by decide +kernel)
    | n + 1, h => simp at h

/-- A finished sampling round of two receivers with one splitter proposed; the descriptor of `sArm` names the splitter
table at 0x304. -/
def sSplit : State :=
  { (sVec.xs [(5, 7), (1, 0x1C0)]) with
    completions := [⟨0, 7, true, true, 2, 9, [3]⟩]
    store := { sVec.store with mem := memOf [(0x1C8, 0x200000000), (0x1E0, 0x400)] } }

theorem test_hypotheses_of_ExchangeRounds_split :
    sSplit.vectorReady (.xsplit ⟨6, 5, 1⟩) ∧ (sSplit.x 5).toNat < 65536 ∧
      sSplit.round sSplit.hart.xctx.ctxid ((sSplit.x 5).setWidth 16) = none ∧
      sSplit.completion sSplit.hart.xctx.ctxid ((sSplit.x 5).setWidth 16) = some ⟨0, 7, true, true, 2, 9, [3]⟩ ∧
      (sSplit.x 1).toNat % 64 = 0 ∧ sSplit.readsAt .load (sSplit.x 1 + 0x0C) 4 2 ∧
      sSplit.readsAt .load (sSplit.x 1 + 0x20) 8 0x400 ∧ 0x400 % 4 = 0 ∧
      sSplit.storesAt (BitVec.ofNat 64 (0x400 + 4 * 0)) (0x8000000400, .rc) ∧ sSplit.homeMemory 0x8000000400 :=
  ⟨⟨posts_of (by decide +kernel), by decide +kernel⟩, by decide +kernel, by decide +kernel, by decide +kernel,
    by decide +kernel, reads_of (pa := 0x80000001CC) (bs := [2, 0, 0, 0]) (by decide +kernel),
    reads_of (pa := 0x80000001E0) (bs := [0, 4, 0, 0, 0, 0, 0, 0]) (by decide +kernel), by decide,
    ⟨by decide, by decide +kernel, by decide +kernel⟩, home_of (d := 0) (by decide +kernel) (by decide +kernel)⟩

/-- A record. -/
def xRec (key : BitVec 32) : XRecord := ⟨key, 0, 0, false, false, 0, 0, [], 0⟩

theorem test_hypotheses_of_ExchangeRecords :
    (let r := rBase .opened ⟨0, true, false, 0, none, some 0⟩ ⟨0, true, 0, [], false, [], false, 0, false, some 0⟩;
      (sVec.inRound r).hart.sbuf = [] ∧ (sVec.inRound r).vectorReady (.xsend none ⟨none, 4, 5, 0⟩) ∧
        (sVec.inRound r).usesRound 5 r ∧ (sVec.inRound r).mySender r = some 0 ∧ (r.sender 0).opened = true ∧
        (r.sender 0).closed = false ∧ r.desc.pwidth = 0 ∧
        (sendAll (sVec.inRound r).hart.vrf 0 none ⟨none, 4, 5, 0⟩
          ((List.range (sVec.inRound r).hart.v.vl).filter (mget (sVec.inRound r).hart.masks 0)) r false).2.1 = [] ∧
        (sVec.inRound r).vectorReady (.xrecv ⟨8, 9, none, 5, true⟩) ∧ (Instr.xrecv ⟨8, 9, none, 5, true⟩).wellFormed = true ∧
        (sVec.inRound r).myReceiver r = some 0 ∧ (r.receiver 0).opened = true ∧ (r.receiver 0).ended = false ∧
        r.stream (r.receiver 0) = [] ∧ r.atEnd (r.receiver 0) = false) ∧
    (let r := rBase .opened ⟨0, true, false, 0, none, some 0⟩ ⟨0, true, 0, [xRec 1, xRec 2, xRec 3], false, [], false, 0, false, some 0⟩;
      (sVec.inRound r).vectorReady (.xrecv ⟨8, 9, none, 5, false⟩) ∧ (sVec.inRound r).usesRound 5 r ∧
        (takeFitting (sVec.inRound r).hart.v.vrows false (sVec.inRound r).hart.v.vl (r.stream (r.receiver 0))).length = 2) ∧
    (let r := rBase .draining ⟨0, true, true, 0, none, some 0⟩ ⟨0, true, 0, [], true, [], false, 0, false, some 0⟩;
      (sVec.inRound r).vectorReady (.xrecv ⟨8, 9, none, 5, false⟩) ∧ (sVec.inRound r).usesRound 5 r ∧
        r.atEnd (r.receiver 0) = true ∧ r.desc.endgate = none) :=
  ⟨⟨by decide +kernel, ⟨posts_of (by decide +kernel), by decide +kernel⟩, by unfold State.usesRound; decide +kernel,
      by decide +kernel, by decide +kernel, by decide +kernel, by decide +kernel, by decide +kernel,
      ⟨posts_of (by decide +kernel), by decide +kernel⟩, by decide +kernel⟩,
    ⟨⟨posts_of (by decide +kernel), by decide +kernel⟩, by unfold State.usesRound; decide +kernel, by decide +kernel⟩,
    ⟨⟨posts_of (by decide +kernel), by decide +kernel⟩, by unfold State.usesRound; decide +kernel, by decide +kernel⟩⟩

/-- CPY of 64 bytes and of none, CMWAIT, CMTEST and CMCLR of the chunks of map 3. -/
theorem test_hypotheses_of_Copies :
    (let s := sVec.xs [(4, 0x1000040)];
      takeFailure s.hart.copies = none ∧ s.vectorReady (.cpy false ⟨0, 1, 2, 4, 0, 0, .c, 3, 0⟩) ∧ s.hart.sbuf = [] ∧
        s.hart.copies.length < 8 ∧
        (copyOf (s.entryOf (.cpy false ⟨0, 1, 2, 4, 0, 0, .c, 3, 0⟩)) false ⟨0, 1, 2, 4, 0, 0, .c, 3, 0⟩).rows *
          (copyOf (s.entryOf (.cpy false ⟨0, 1, 2, 4, 0, 0, .c, 3, 0⟩)) false ⟨0, 1, 2, 4, 0, 0, .c, 3, 0⟩).rowBytes ≠ 0) ∧
    sVec.vectorReady (.cpy true ⟨0, 1, 2, 0, 0, 0, .c, 3, 0⟩) ∧
    (copyOf (sVec.entryOf (.cpy true ⟨0, 1, 2, 0, 0, 0, .c, 3, 0⟩)) true ⟨0, 1, 2, 0, 0, 0, .c, 3, 0⟩).rows = 0 ∧
    (copyOf (sVec.entryOf (.cpy true ⟨0, 1, 2, 0, 0, 0, .c, 3, 0⟩)) true ⟨0, 1, 2, 0, 0, 0, .c, 3, 0⟩).gate = none ∧
    sVec.vectorReady (.cmwait ⟨1, 3, true⟩) ∧ sVec.x 1 &&& ~~~(sVec.hart.chunks[(3 : Fin 64)]).released = 0 ∧
    sVec.vectorReady (.cmtest ⟨6, 1, 3, false⟩) ∧ sVec.vectorReady (.cmclr ⟨1, 3⟩) ∧
    sVec.x 1 &&& (sVec.hart.chunks[(3 : Fin 64)]).busy = 0 :=
  ⟨⟨by decide +kernel, ⟨posts_of (by decide +kernel), by decide +kernel⟩, by decide +kernel⟩,
    ⟨posts_of (by decide +kernel), by decide +kernel⟩, by decide +kernel, by decide +kernel,
    ⟨posts_of (by decide +kernel), by decide +kernel⟩, by decide +kernel,
    ⟨posts_of (by decide +kernel), by decide +kernel⟩,
    ⟨posts_of (by decide +kernel), by decide +kernel⟩, by decide +kernel⟩

/-- The current hart's marks changed. -/
def State.marked (s : State) (f : Marks → Marks) : State := s.withHart fun h => { h with marks := f h.marks }

theorem holds_of {s : State} {h : HartId} {k : Hart}
    (e : s.findHart h = some k ∧ k.marks.halted = false ∧ (s.placed.map fun j => j.ident.id).Nodup) : s.holds h k := e

/-- A complete entry whose recheck is held at the head of the VIQ, in the recheck unit of its core. -/
def sHeld : State :=
  (sBase.withPosted (.mnot ⟨1, 2, 0⟩)).withHart fun h => { h with viq := h.viq.map fun q =>
    { e := { q.e with begun := true, complete := true }, r := { q.r with phase := .held } } }

theorem test_hypotheses_of_HartEvents :
    sBase.holds 0 sBase.hart ∧
      (∀ w ∈ [Wait.waitm 64, .gate 5, .qpush 63], (sBase.marked fun m => { m with wait := w }).holds 0
        (sBase.marked fun m => { m with wait := w }).hart) ∧
      sHeld.holds 0 sHeld.hart ∧ (sHeld.hart.viq.map fun q => q.r.phase) = [.held] ∧
      (sBase.marked fun m => { m with removed := true }).holds 0 (sBase.marked fun m => { m with removed := true }).hart ∧
      sBase.power.endgame = false ∧ sBase.hart.quiet ∧ sBase.debugInForce = .none ∧
      ({ sBase with mgmt := { sBase.mgmt with debugReq := .observe } } : State).debugInForce ≠ .none ∧
      (let s := { (sBase.marked fun m => { m with debugHalted := true }) with
          mgmt := { sBase.mgmt with debugReq := .invasive } };
        s.holds 0 s.hart ∧ s.debugInForce = .invasive ∧ s.hart.marks.debugHalted = true) := by
  unfold State.holds Hart.quiet; decide +kernel

theorem test_hypotheses_of_StripEvents :
    sBase.isAt 0 ∧ sBase.hart.orderly ∧ sBase.hart.viq = [] ∧ sBase.hart.sbuf = [] ∧
      sBase.tlbHeld (some 0) 0 0 0 = false ∧ sBase.tlbHeld (some 0) 1 5 0 = false ∧
      sBase.tlbHeld (some 0) 2 0xFFFF (2 ^ 41 - 1) = false ∧
      (let s := { sBase.stripOpen with cycle := 65536 };
        s.isAt 0 ∧ s.hart.orderly ∧ (s.hart.strip.map fun st => st.since + 65536) = some 65536) := by
  unfold State.isAt Hart.orderly Hart.timely Hart.quiet; decide +kernel

/-- A vector instruction posted on a tile, begun, complete or not. -/
def sPosted (v : VInstr) (complete : Bool) : State :=
  let s := sVec.withPosted v
  s.withHart fun h => { h with viq := h.viq.map fun q => { q with e := { q.e with begun := true, complete := complete } } }

/-- An element group of an entry whose work has begun. -/
theorem test_hypotheses_of_VectorUnitEvents_group :
    let s := sPosted (.via .add ⟨4, 5, .x 1, .w32, 0⟩) false
    s.isAt 0 ∧ s.hart.marks.removed = false ∧ s.hart.marks.saving = false ∧ (s.hart.viq.all fun q => q.e.begun && !q.e.complete &&
      decide (q.e.done < s.entryGroups q.e) && decide (q.e.vl ≤ 2 ^ 20) && decide (q.e.vrows ≤ 2 ^ 20)) = true ∧
      s.hart.viq.length = 1 ∧ Memory.wf s.hart.vrf = true := by
  unfold State.isAt; decide +kernel

/-- A complete integer addition on a tile whose recheck is held. -/
def sHeldAdd : State :=
  (sPosted (.via .add ⟨4, 5, .x 0, .w32, 0⟩) true).withHart fun h => { h with viq := h.viq.map fun q =>
    { q with r := { q.r with phase := .held } } }
/-- That state in an open strip, whose first instruction is the entry. -/
def sHeldStrip : State := sHeldAdd.withHart fun h => { h with
  strip := some ⟨0, [], 0, 1, none, 0, [], [], 0, none, [], 0, 0, false, false⟩ }
/-- A run that delivered 99 in element 1. -/
def dRun : RunDiff := ⟨[(4, 1, 99)], [], none, none, none, none⟩
/-- A run that delivered 7 in element 0. -/
def dRun' : RunDiff := ⟨[(4, 0, 7)], [], none, none, none, none⟩
/-- What the run `k` of the head delivered. -/
def State.headRun (s : State) (k : Nat) (d : RunDiff) : Option RunView := s.hart.viq.head?.map fun q => s.runView q k d

/-- A complete entry that retires, and one whose recheck is held: its runs agree, or one of them is outvoted. No two
are equal in the strip below. -/
theorem test_hypotheses_of_VectorUnitEvents_retire :
    let s := sPosted (.via .add ⟨4, 5, .x 1, .w32, 0⟩) true
    let none' : RunDiff := ⟨[], [], none, none, none, none⟩
    s.isAt 0 ∧ (s.hart.viq.map fun q => (q.e.complete, q.r.order, q.r.phase, s.mayRetire q)) = [(true, none, .off, true)] ∧
      sHeldAdd.isAt 0 ∧ (sHeldAdd.hart.viq.map fun q => (q.e.complete, q.r.order, q.r.phase)) = [(true, none, .held)] ∧
      (sHeldAdd.core sHeldAdd.hart.core).verdicts = [] ∧ sHeldAdd.hart.trap.inTrap = false ∧
      sHeldAdd.headRun 1 none' = sHeldAdd.headRun 0 none' ∧ sHeldAdd.headRun 1 dRun ≠ sHeldAdd.headRun 0 none' ∧
      sHeldAdd.headRun 2 none' = sHeldAdd.headRun 0 none' ∧ sHeldAdd.headRun 2 dRun = sHeldAdd.headRun 1 dRun ∧
      (sHeldAdd.headRun 1 dRun).map (fun v => v.order) = some none := by
  refine ⟨by unfold State.isAt; decide +kernel, by decide +kernel, by unfold State.isAt; decide +kernel, by decide +kernel,
    by decide +kernel, by decide +kernel, by decide +kernel, by decide +kernel, by decide +kernel, by decide +kernel,
    by decide +kernel⟩

theorem test_hypotheses_of_VectorUnitEvents_rewind :
    let none' : RunDiff := ⟨[], [], none, none, none, none⟩
    sHeldStrip.isAt 0 ∧ sHeldStrip.headRun 1 dRun ≠ sHeldStrip.headRun 0 none' ∧
      sHeldStrip.headRun 2 dRun' ≠ sHeldStrip.headRun 0 none' ∧ sHeldStrip.headRun 2 dRun' ≠ sHeldStrip.headRun 1 dRun ∧
      (sHeldStrip.hart.viq.all fun q => match sHeldStrip.hart.stripOf q.e.strip with
        | some st => !st.sealed && !st.noMajority.contains q.e.pc && decide (st.rewinds < 4 ∧ st.id < q.e.seq)
        | none => false) = true ∧ sHeldStrip.hart.sbuf = [] := by
  unfold State.isAt; decide +kernel

/-- Entries that wait for the grid and for the merge unit. -/
theorem test_hypotheses_of_VectorUnitEvents_grants :
    let s := sPosted (.mma .op ⟨8, 0, some 2, false, 0, 0, 0, false, 0, 3, 3⟩) false
    let m := sPosted (.vsort ⟨4, 6, .w32, true, false, 0⟩) false
    s.isAt 0 ∧ s.hart.trap.ordTrap = false ∧ s.effectiveMode = 0 ∧ (s.hart.viq.map fun q => q.r.phase) = [.off] ∧
      (MmaOps.kind ⟨8, 0, some 2, false, 0, 0, 0, false, 0, 3, 3⟩).isSome = true ∧
      0 % 4 = ((s.core 0).gridLast.val + 1 + 0) % 4 ∧ m.isAt 0 ∧ m.effectiveMode = 0 ∧
      0 % 4 = ((m.core 0).mergeLast.val + 1 + 0) % 4 := by
  unfold State.isAt; decide +kernel

/-- A core without harts: a group of it may go, or be one too many; and test kernels that run there or wait. -/
theorem test_hypotheses_of_CoreEvents :
    (∀ k ∈ sBase.placed, k.core ≠ 5) ∧ (sBase.core 5).lanemap.getLsbD 7 = true ∧ sBase.placing = true ∧
      3 ≤ countOnes 8 ((sBase.core 5).lanemap &&& ~~~(sBase.core 5).marked &&& ~~~(BitVec.ofNat 8 (2 ^ 7))).toNat ∧
      (let s := sBase.setCore 5 { sBase.core 5 with lanemap := 0x83 };
        (∀ k ∈ s.placed, k.core ≠ 5) ∧ (s.core 5).lanemap.getLsbD 7 = true ∧
          countOnes 8 ((s.core 5).lanemap &&& ~~~(s.core 5).marked &&& ~~~(BitVec.ofNat 8 (2 ^ 7))).toNat < 3) ∧
      sBase.coreOnline 5 = true ∧ (sBase.core 5).testKernel = none ∧ sBase.savedTests = [] ∧
      (let s := sBase.setCore 5 { sBase.core 5 with testKernel := some (13, 7), testPending := true };
        s.coresOn = true ∧ (s.core 5).testKernel = some (13, 7) ∧ (s.core 5).fenced.getLsbD 13 = false) := by
  decide +kernel

/-- A copy of 64 bytes inside the page of the line. -/
def cBase : Copy where
  src := 0x100
  dst := 0x400
  spitch := 0
  dpitch := 0
  rows := 1
  rowBytes := 64
  c0 := 0
  csize := 512
  scope := .c
  map := 3
  sh := false
  gate := none
  next := 0
  inFlight := []
  failure := none
  reported := false
/-- A hart with that copy outstanding, and the copy engine admitted to near memory. -/
def sCopy (c : Copy) : State :=
  { sBase.withHart fun h => { h with copies := [⟨c, h.xctx, .u⟩] } with
    access := sBase.access ++ [⟨4, 1, 0, 0x800000000F, 0x8000000000⟩] }
/-- A piece that a copy has read. -/
def pBase : CopyPiece := ⟨0x8000000400, List.replicate 8 1, false⟩

theorem test_hypotheses_of_EngineEvents_copies :
    (sCopy cBase).isAt 0 ∧ (sCopy cBase).hart.copies = [⟨cBase, (sCopy cBase).hart.xctx, .u⟩] ∧
      cBase.next < cBase.chunks ∧ cBase.failure = none ∧ (sCopy cBase).hart.marks.saving = false ∧
      (∃ ps, State.readPieces ⟨cBase, (sCopy cBase).hart.xctx, .u⟩ false (cBase.chunkPieces 0) (sCopy cBase) =
        (sCopy cBase, .ok ps)) ∧
      (∀ next ∈ [0, 1], (sCopy { cBase with next := next, inFlight := [(0, [pBase])] }).isAt 0) ∧ cBase.chunks = 1 ∧
      pBase.poison = false ∧ ∀ c, (sCopy c).homeMemory pBase.pa := by
  refine ⟨by unfold State.isAt; decide +kernel, rfl, by decide +kernel, rfl, by decide +kernel, ⟨_, rfl⟩,
    by unfold State.isAt; decide +kernel, by decide +kernel, rfl, fun c => home_of (d := 0) rfl (by decide +kernel)⟩

/-- A stream whose next element is not fetched, an expiring copy, a pathless hart and a hart with an error. -/
theorem test_hypotheses_of_EngineEvents :
    (let s := sVec.withHart fun h => { h with streams := h.streams.set 2 (some { qStream with fetched := [] }) };
      s.isAt 0 ∧ s.hart.streams[(2 : Fin 4)] = some { qStream with fetched := [] } ∧
        0 < 8 * (s.hart.v.vl * s.hart.v.vrows) ∧ qStream.pos < qStream.count ∧
        ∃ v, s.streamElem { qStream with fetched := [] } (s.hart.newest + 1) 1 = (s, .value v)) ∧
      (sBase.marked fun m => { m with wait := .remote false }).isAt 0 ∧ sBase.hart.copies = [] ∧ sBase.isAt 0 :=
  ⟨⟨by unfold State.isAt; decide +kernel, by decide +kernel, by decide +kernel, by decide, _, rfl⟩,
    by unfold State.isAt; decide +kernel, by decide +kernel, by unfold State.isAt; decide +kernel⟩

/-- A round whose record waits at its injector, at its merge switch and at its egress merge. -/
def rSent : Round :=
  ((rBase .opened ⟨0, true, false, 0, none, some 0⟩ ⟨0, true, 0, [], false, [], false, 0, false, some 0⟩).send 0 (xRec 9)).1
/-- What a package's round is after an event. -/
def State.roundAfter (s : State) (i : Instr) : Round :=
  match exec i s with
  | .next t => t.rounds.headD rSent
  | _ => rSent

theorem test_hypotheses_of_ExchangeEvents :
    (let r := rSent;
      (sBase.inRound r).round r.ctx r.id = some r ∧ (r.port 0 0).isSome = true ∧
        r.ready 0 0 = some (.data (xRec 9), some (0, false))) ∧
    (let r := (sBase.inRound rSent).roundAfter (.mergePointEmit 0 7 0 0);
      (sBase.inRound r).round r.ctx r.id = some r ∧ (r.ready 1 0).isSome = true) ∧
    (let r := (sBase.inRound ((sBase.inRound rSent).roundAfter (.mergePointEmit 0 7 0 0))).roundAfter
        (.mergePointEmit 0 7 1 0);
      (sBase.inRound r).round r.ctx r.id = some r ∧ r.desc.comb % 4 = 0 ∧
        ((r.ready 2 0).map fun p => p.1) = some (.data (xRec 9)) ∧ (r.receivers[0]?).isSome = true ∧
        (r.port 2 0).map (fun p => (p.next, p.lo)) = some (none, 0)) ∧
    (({ xRec 9 with kind := 3 } : XRecord).kind = 3 ∧ rSent.state ≠ .aborted) ∧
    (let r := { rSent with desc := { dRound with groups := [(0, 1)] } };
      let x : XItem := .data { xRec 9 with mc := true };
      let r1 := r.setPoint 0 { r.point 0 with ingress := [(0, x)] };
      let r2 := r.setPoint 0 { r.point 0 with hold := [(0, 0, x)] };
      (sBase.inRound r1).round r1.ctx r1.id = some r1 ∧ ((r1.point 0).copyNext r1.desc 0).isSome = true ∧
        (sBase.inRound r2).round r2.ctx r2.id = some r2 ∧ ((r2.point 0).releaseNext 0).isSome = true ∧
        0 < r1.points.length) := by
  decide +kernel

/-- The package with the host attached, and the host and the fabric ingress admitted to the device space and to near
memory. -/
def sHost : State :=
  { sBase with
    power := { sBase.power with cxlUp := true, bootOk := true }
    access := sBase.access ++ [⟨10, 3, 0, 0x7, 0xFFFFFF0000⟩, ⟨4, 3, 0, 0x7, 0xFFFFFF0000⟩, ⟨4, 2, 0, 0x7, 0xFFFFFF0000⟩,
      ⟨9, 2, 0, 0x7, 0xFFFFFF0000⟩]
    sched := { sBase.sched with lpEn := true } }

/-- Every address that a register statement names is reached, and each clause's values lie at the edge of their range. -/
theorem test_hypotheses_of_HostRegisters :
    (∀ la ∈ [0xF000000000, 0xF000000038, 0xF000000040, 0xF000001000, 0xF000001008, 0xF000001010, 0xF000001020, 0xF000001030,
      0xF000001038, 0xF000001040, 0xF000010008], sHost.hostReaches la) ∧ sHost.sched.lpEn = true ∧
      (0x1FFFFFFFFFFFF00 : Word).toNat % 256 = 0 ∧ (0x1FFFFFFFFFFFF00 : Word).toNat < 2 ^ 57 ∧
      (sHost.portFifo 7).length < 16 ∧ (0x1FFFFFFFFE00001 : Word).toNat % 2 ^ 21 / 2 = 0 ∧
      (0x1FFFFFFFFFFF008 : Word).toNat % 4096 / 16 = 0 ∧ (0xF800000000 : Word).toNat % 2 ^ 35 = 0 ∧
      2 ^ 57 ≤ (0x200000000000000 : Word).toNat ∧ sHost.power.state ≠ .ret ∧ sHost.anyHart = true ∧
      (sHost.marked fun m => { m with halted := true }).anyHart = false ∧
      (sHost.marked fun m => { m with halted := true }).hostReaches 0xF000001038 ∧ sHost.tlbHeld none 0 0 0 = false ∧
      ({ sHost with fdie := { sHost.fdie with tlbInv := [(0, 0, 0)] } } : State).fdie.tlbInv = [(0, 0, 0)] := by
  unfold State.hostReaches; decide +kernel

/-- An atomic of another package. -/
def qRemote : RemoteReq := ⟨1, 0, 0, 0x8000000040, .atomic 0 true 5⟩

theorem test_hypotheses_of_HostAccesses :
    sHost.hostReachesMemory .load 0x8000000040 64 ∧ sHost.hostReachesMemory .store 0x8000000040 64 ∧
      sHost.store.transient = [] ∧ sHost.attached = true ∧
      (sHost.checkLocal sHost.hostParty .load (sHost.pkg.toNat * 2 ^ 40 + 0x40)).2 = false ∧
      (sHost.checkLocal sHost.hostParty .store (sHost.pkg.toNat * 2 ^ 40 + 0x40)).2 = false ∧
      qRemote.addr < 2 ^ 40 ∧ sHost.serving = true ∧ sHost.homeMemory (sHost.pkg.toNat * 2 ^ 40 + qRemote.addr) ∧
      sHost.permits 9 2 (remoteKind qRemote.op) qRemote.addr = true ∧
      sHost.checkLocal (RemoteReq.party qRemote) (remoteKind qRemote.op) (sHost.pkg.toNat * 2 ^ 40 + qRemote.addr) =
        (sHost, true) := by
  refine ⟨by unfold State.hostReachesMemory; decide +kernel, by unfold State.hostReachesMemory; decide +kernel,
    by decide +kernel, by decide +kernel, by decide +kernel, by decide +kernel, by decide +kernel, by decide +kernel,
    home_of (d := 0) (by decide +kernel) (by decide +kernel), by decide +kernel, by decide +kernel⟩

/-- The power state changed. -/
def State.powerSet (s : State) (f : Power → Power) : State := { s with power := f s.power }
/-- No hart is placed. -/
def State.noHart (s : State) : State := s.marked fun m => { m with halted := true }

theorem test_hypotheses_of_PowerEvents :
    sBase.powered ∧ (31 : Fin 32).val < sBase.power.lanes.length ∧ sBase.power.lanes.getD 31 0 ≠ 0 ∧
      sBase.rounds = [] ∧ sBase.power.bootOk = false ∧ sHost.powered ∧ sHost.power.bootOk = true ∧
      (sHost.powerSet fun p => { p with sdOk := 8 }).power.sdOk.getLsbD 3 = true ∧
      (let s := { (sBase.powerSet fun p => { p with sdOk := 0xF, bulkOk := 0xF }) with
          cores := (List.range 64).map fun i => (192 + i, { Core.boot with testPassed := true }) };
        s.powered ∧ s.power.sdOk.getLsbD 3 = true ∧ s.power.bulkOk.getLsbD 3 = true ∧ s.power.throttled = false ∧
          ∀ i, i < 64 → (s.core (64 * 3 + i)).testPassed = true) ∧
      (let s := sBase.powerSet fun p => { p with full := 0xF, target := some .p0 };
        s.powered ∧ s.power.full = 0xF ∧ s.power.throttled = false ∧ s.power.target = some .p0 ∧ s.power.state = .p1 ∧
          s.power.req = .p0) ∧
      (sBase.powerSet fun p => { p with target := some .p1 }).powered ∧
      (∀ q ∈ [PowerState.ret, .off], (sBase.noHart.powerSet fun p => { p with target := some q }).powered ∧
        (sBase.noHart.powerSet fun p => { p with target := some q }).anyHart = false) := by
  unfold State.powered; decide +kernel

/-- A granted hold-up slot with one item of 64 bytes at unit 0. -/
def hBase : HoldSlot :=
  ⟨1, 0, 4, 7, 0, false, false, 0, 0, 0, 0, [⟨0x100, 64, 1, 64⟩], [0], []⟩
/-- An endgame whose window is closed, with a plan and its budget. -/
def sEnd (plan : List HoldWrite) (reserve allowance : Nat) : State :=
  { (sBase.noHart.powerSet fun p => { p with endgame := true }) with
    holdup := { sBase.holdup with plan := plan, reserve := reserve, allowance := allowance, slots := [(5, hBase)] } }

theorem test_hypotheses_of_PowerFailure :
    sBase.powered ∧ sBase.power.state ≠ .off ∧ (sBase.placed.map fun k => k.ident.id).Nodup ∧
      (∃ k ∈ sBase.placed, k.granted = false) ∧ (∃ k ∈ sHold.placed, k.granted = true) ∧
      (sBase.powerSet fun p => { p with endgame := true, window := true }).power.window = true ∧
      (sEnd [] 0 0).power.endgame = true ∧ (sEnd [] 0 0).power.window = false ∧ (sEnd [] 0 0).holdup.plan = [] ∧
      (sEnd [.block 5 0 0] 272 0).holdup.pay (.block 5 0 0) = none ∧
      (∀ w ∈ [HoldWrite.slot 5, .item 5 0, .block 5 0 0, .sealRecord 5 0], (sEnd [w] 273 1000000000).slot 5 = some hBase) ∧
      ∀ w, ((sEnd [w] 273 1000000000).holdup.pay w).isSome = true := by
  refine ⟨by unfold State.powered; decide +kernel, by decide +kernel, by decide +kernel,
    ⟨sBase.hart, by decide +kernel, by decide +kernel⟩, ⟨sHold.hart, by decide +kernel, by decide +kernel⟩,
    by decide +kernel, by decide +kernel, by decide +kernel, by decide +kernel, by decide +kernel, by decide +kernel, ?_⟩
  have h : sideUnits + shutdownUnits ≤ 1000000000 := by unfold sideUnits shutdownUnits; omega
  intro w
  cases w <;> simp [Holdup.pay, sEnd, h]

theorem test_hypotheses_of_MailboxServices :
    sHost.mailboxTakes ∧ (List.replicate 32 (0 : Byte)).length = 32 ∧ sHost.mgmt.lifecycle = .secure ∧
      (7 : Fin 8).val < sHost.mgmt.mrs.length ∧ accessReserved 0xFFFFFF000F 0xFFFFFF0000 = false ∧
      (let s := { sHost with sched := { sHost.sched with launches := [lBase] } };
        s.mailboxTakes ∧ (s.sched.launches.find? fun l => l.seq % 65536 == (0 : BitVec 16).toNat) = some lBase ∧
          lBase.removal = none ∧ s.power.window = false ∧ s.launch lBase.seq = some lBase) ∧
      (let s := { sHost with holdup := { sHost.holdup with slots := [(63, { hBase with state := 2 })] } };
        s.mailboxTakes ∧ s.slot 63 = some { hBase with state := 2 }) ∧
      sHost.unlocks .observe [] = false ∧
      (let s := { sHost with mgmt := { sHost.mgmt with unlocked := true } };
        s.mailboxTakes ∧ s.unlocks .observe [] = true ∧ s.unlocks .invasive [] = true ∧ s.refusesInvasive = false ∧
          s.mgmt.debugReq ≠ .invasive) ∧
      (∀ q ∈ [Lifecycle.manufacture, .rma], ({ sHost with mgmt := { sHost.mgmt with lifecycle := q } } : State).mailboxTakes) := by
  unfold State.mailboxTakes State.hostReaches; decide +kernel

/-- A launch record at address 0x1000 of context 0: one stage of one hart whose entry is 0; the context's descriptor is at
0x8000600000. -/
def mRecord : Mem :=
  [(0x8000001000, 0x10001), (0x8000001040, 0), (0x8000001048, 0x10001007FFFFF), (0x8000001050, 0xFF),
    (0x8000600000, 0x8000010000), (0x8000600010, 1)].foldl (fun m p => writeNat m p.1 8 p.2) mTables
/-- A package with that record at launch port 0. -/
def sRecord (r : LaunchReq) : State :=
  { sHost.noHart with
    store := { sBase.store with mem := mRecord }
    access := [⟨4, 0, 0, 0x7, 0xFFFFFF0000⟩]
    fdie := { sBase.fdie with ctxtab := 0x8000600001 }
    tlb := sBase.tlb
    sched := { sHost.sched with fifo := [r] } }

/-- The package once the record is taken from its port. -/
def sTaken : State := { sRecord ⟨0, 0, 0, none, 0⟩ with sched := { sHost.sched with fifo := [] } }

/-- A record that is accepted, one that is rejected because it cannot be read, and none. -/
theorem test_hypotheses_of_SchedulerPlaces_take :
    sBase.nextRecord = none ∧ sBase.placeHead = none ∧
      (sRecord ⟨0x1000, 0, 0, none, 0⟩).nextRecord = some ⟨0x1000, 0, 0, none, 0⟩ ∧
      (sRecord ⟨0x40000000, 0, 0, none, 0⟩).nextRecord = some ⟨0x40000000, 0, 0, none, 0⟩ ∧
      (sTaken.judge ⟨0x1000, 0, 0, none, 0⟩).2.toOption.isSome = true ∧
      sTaken.judge ⟨0x40000000, 0, 0, none, 0⟩ = (sTaken, .error 0x02) := by
  decide +kernel

/-- A package with a launch that waits at the head of the queue. -/
def sQueued (l : Launch) : State := { sBase.noHart with sched := { sBase.sched with launches := [l] } }

theorem test_hypotheses_of_SchedulerPlaces :
    (let l := { lBase with phase := .queued };
      (sQueued l).headLaunch = some l ∧ (sQueued l).launch l.seq = some l ∧ (sQueued l).placing = true ∧
        (sQueued l).fitQueued (fun _ => false) l = some [[0]] ∧ l.record.stages.length ≤ 8) ∧
      (sBase.placed.map fun k => k.ident.id).Nodup ∧
      (∀ k ∈ sBase.placed, k.marks.halted = false ∧ k.viq = [] ∧ k.scalarWait = false) := by
  decide +kernel

/-- A saved hart whose use mask asks for no class that cores lack. -/
def hSaved : Hart := { sBase.hart with ctl := { sBase.hart.ctl with usemask := 0x7FDFFF } }

/-- Harts to be saved and restored, and a hart of stage 1 that waits in QPOP. -/
theorem test_hypotheses_of_SavesAndRestores :
    (let s := sBase.withHart fun h => { h with ctl := { h.ctl with preqReq := true } };
      s.isAt 0 ∧ s.hart.marks.saving = false ∧ s.preqLeft s.hart = 0 ∧ s.hart.viq = []) ∧
    (let s := sBase.launched.marked fun m => { m with saving := true };
      s.isAt 0 ∧ s.hart.marks.test = none ∧ s.hart.saveReady = true ∧ s.launch s.hart.ident.seq = some lBase ∧ lBase.phase = .running ∧
        (s.placed.map fun k => k.ident.id).Nodup ∧ s.others = []) ∧
    sBase.nextRestore = none ∧
    (let l := { lBase with phase := .saved, savedHarts := [hSaved] };
      (sQueued l).rounds = [] ∧ (sQueued l).headLaunch = some l ∧ (sQueued l).launch l.seq = some l ∧ (sQueued l).placing = true ∧
        (sQueued l).fitSaved (fun _ => false) l = some [(hSaved, 0)] ∧ hSaved.marks.test = none) := by
  unfold State.isAt; decide +kernel

/-- A running launch of two stages of one hart or more. -/
def lTwo : Launch := { lBase with record := { lBase.record with
  stages := [⟨0, 0x7FDFFF, 1, 1, some 63, 16, 0⟩, ⟨0, 0x7FDFFF, 1, 2, none, 0, 0⟩] } }
/-- Its second hart of stage 1, waiting in QPOP for 65,536 cycles, beside the first. -/
def sTwo : State :=
  { (sBase.withHart fun h => { h with ident := ⟨0, 0, 1, 1, 0⟩, marks := { h.marks with wait := .qpop 63 0 false } }) with
    cycle := 65536, sched := { sBase.sched with launches := [lTwo] }, others := [{ sBase.hart with ident := ⟨4, 0, 1, 0, 0⟩ }] }

theorem test_hypotheses_of_SavesAndRestores_surplus :
    sTwo.isAt 0 ∧ (sTwo.sched.launches.filter fun k => k.phase == .running && k.removal.isNone) = [lTwo] ∧
      sTwo.placing = true ∧ sTwo.queueDie 0 63 = 0 ∧ 1 < (sTwo.stageHarts lTwo 1).length ∧
      sTwo.hart.ident.seq = lTwo.seq ∧ sTwo.hart.ident.stage = 1 ∧ sTwo.hart.die = 0 ∧
      sTwo.hart.marks.wait = .qpop 63 0 false ∧ 0 + 65536 ≤ sTwo.cycle ∧
      ∀ k ∈ sTwo.others, k.ident.id ≠ 0 ∧ (k.ident.seq = lTwo.seq → k.ident.index < sTwo.hart.ident.index) := by
  unfold State.isAt; decide +kernel

theorem test_hypotheses_of_LaunchesEnd :
    sBase.launched.launch 0 = some lBase ∧ sBase.launched.holds 0 sBase.launched.hart ∧
      sBase.launched.hart.ident.seq = lBase.seq ∧ lBase.removal = none ∧ sBase.launched.power.window = false ∧
      (let l := { lBase with stage0Halted := true };
        (sQueued l).launch l.seq = some l ∧ (sQueued l).allEnded l = true ∧ l.record.doneptr = 0) ∧
      (let l := { lBase with phase := .removing };
        (sQueued l).launch l.seq = some l ∧ (sQueued l).removalReady l = true ∧ l.record.doneptr = 0) ∧
      (let l := { lBase with stage0Halted := true, record := { lBase.record with doneptr := 0xFFF0 } };
        (sQueued l).launch l.seq = some l ∧ (sQueued l).allEnded l = true ∧
        (sQueued l).translate ((sQueued l).unit l.ctxid) l.xctx .u .store l.record.doneptr.toNat =
          (sQueued l, .ok (0x800000FFF0, .rc)) ∧
        (sQueued l).physCheck ((sQueued l).unit l.ctxid) .store 0x800000FFF0 = (sQueued l, .bytes [] none) ∧
        Memory.wf (sQueued l).store.mem = true) := by
  unfold State.holds; decide +kernel

theorem test_hypotheses_of_ClassTraps :
    (let s := sBase.withHart fun h => { h with ctl := { h.ctl with usemask := 0 } };
      s.issueClass (.add ⟨5, 6, 7⟩) = some 0 ∧ s.issueClass (.vadd ⟨4, 5, .x 1, .w32, 0⟩) = some 4 ∧ s.hart.viq = [] ∧
        s.canTrap s ∧ s.hart.scalar.level = .u ∧ s.hart.ctl.usemask.getLsbD 0 = false) ∧
    (let s := sBase.atS.setCore 0 { Core.boot with cap := 0 };
      s.issueClass (.add ⟨5, 6, 7⟩) = some 0 ∧ s.hart.viq = [] ∧ s.hart.scalar.level = .s ∧
        s.capable 0 = false ∧ s.canTrap s) := by
  unfold State.canTrap; decide +kernel

theorem test_hypotheses_of_EncodeDecode :
    (Instr.vadd ⟨2, 0, .v 1, .w32, 3⟩).wellFormed = true ∧ encode (.vadd ⟨2, 0, .v 1, .w32, 3⟩) = some (0x8142, 0x8104C080) ∧
      0x8142 < 65536 ∧ 0x8104C080 < 2 ^ (16 * tailWords 0x8142) ∧
      decodeInstr 0x8142 0x8104C080 = .ok (.vadd ⟨2, 0, .v 1, .w32, 3⟩) := by
  decide

/-- The base state with another first word in its line. -/
def sWord (nbits w : Nat) : State := State.reset.withFetchWord nbits w

/-- A line with an instruction, one with an unassigned major, and a slot that the line does not have. -/
theorem test_hypotheses_of_StepRunsDecoded :
    ∀ s ∈ [sBase, sWord 16 0xFE00], s.due = none ∧ s.internal = none ∧ s.runnable = true ∧ s.asyncDue = none ∧
      s.hart.owesWork = false ∧ s.hart.viq.length < 64 ∧ pcReserved s.hart.scalar.pc = false ∧
      (s.fetchLine s.hart.scalar.level (pcLine s.hart.scalar.pc)).1 = s := by
  decide +kernel

/-- What the line of the base state and a bad one decode to. -/
theorem test_hypotheses_of_StepRunsDecoded_line :
    (match (sBase.fetchLine .u 0).2 with
    | .ok ws => decodeSlot ws 0 == .instr .nop && decodeSlot ws 31 == .noSlot
    | .error _ => false) = true ∧
    (match ((sWord 16 0xFE00).fetchLine .u 0).2 with
    | .ok ws => decodeSlot ws 0 == .badInstr .major 0xFE00
    | .error _ => false) = true := by
  decide +kernel

/-- An input that is due, and a turn with another hart to move and with none. -/
theorem test_hypotheses_of_StepRunsDecoded_turn :
    (({ sBase with agenda := [(0, .event (.debugHalt 0 .halt))] } : State).due.map fun p => p.1) =
        some (.event (.debugHalt 0 .halt)) ∧ isInput (.debugHalt 0 .halt) = true ∧
      (({ sBase with agenda := [(0, .linkReset 31)] } : State).due.map fun p => p.1) = some (.linkReset 31) ∧
      sBase.turns = [] ∧ sBase.others = [] ∧ sBase.hart.marks.halted = false ∧
      ({ sBase with others := [sBase.hart] } : State).turns = [] := by
  decide +kernel

/-- Whether a step gives a next state. -/
def stepsOn (s : State) : Bool :=
  match step s with
  | .next _ => true
  | _ => false

theorem next_of_stepsOn {s : State} (h : stepsOn s = true) : ∃ t, step s = .next t := by
  unfold stepsOn at h
  split at h
  · exact ⟨_, by assumption⟩
  · cases h

/-- A state in canonical form whose step gives a next state. -/
theorem test_hypotheses_of_StepKeeps : sBase.memoriesOk ∧ sBase.hartsOk ∧ ∃ t, step sBase = .next t := by
  refine ⟨⟨by decide +kernel, by decide +kernel, by decide +kernel, by decide +kernel, fun a h => absurd h List.not_mem_nil⟩,
    ⟨by unfold Hart.orderly Hart.timely Hart.quiet; decide +kernel, fun k h => absurd h List.not_mem_nil,
      fun l h => absurd h List.not_mem_nil, fun k h => absurd h List.not_mem_nil⟩,
    next_of_stepsOn (by decide +kernel)⟩

/-! ### Single steps and worked examples: every expected value is the spec's own or computed by hand from its rules -/

/-- The state an answer holds. -/
def after (i : Instr) (s : State) : State :=
  match exec i s with
  | .next t => t
  | _ => s

/-- A scalar register of a state. -/
def xr (s : State) (r : XReg) : Nat := (s.x r).toNat

/-- Elements written from position 0 of row 0 of a register. -/
def fill (bits r : Nat) (row : Nat) (vs : List Nat) (m : Mem) : Mem :=
  (vs.zip (List.range vs.length)).foldl (fun m p => vset m r bits row p.2 p.1) m

/-- A register file with a row of elements of 32 bits in each register of a list. -/
def State.rows (s : State) (bits : Nat) (l : List (Nat × Nat × List Nat)) : State :=
  s.withHart fun h => { h with vrf := l.foldl (fun m p => fill bits p.1 p.2.1 p.2.2 m) h.vrf }

/-- The first `n` elements of a row of a register. -/
def row (s : State) (bits r i n : Nat) : List Nat := (List.range n).map (vget s.hart.vrf r bits i)

/-- Wrap at 2^64 (R95). -/
theorem test_add_wraps : xr (after (.add ⟨5, 6, 7⟩) (sBase.xs [(6, BitVec.allOnes 64), (7, 2)])) 5 = 1 := by
  decide +kernel

/-- The most negative number divided by -1 (R95), and a division by 0. -/
theorem test_div_corners :
    xr (after (.div ⟨5, 6, 7⟩) (sBase.xs [(6, 0x8000000000000000), (7, BitVec.allOnes 64)])) 5 = 2 ^ 63 ∧
      xr (after (.rem ⟨5, 6, 7⟩) (sBase.xs [(6, 0x8000000000000000), (7, BitVec.allOnes 64)])) 5 = 0 := by
  decide +kernel

/-- (-1) times (-1): the high half is 0; unsigned, it is 2^64 - 2 (R95). -/
theorem test_mulh :
    (let s := sBase.xs [(6, BitVec.allOnes 64), (7, BitVec.allOnes 64)];
      xr (after (.mulh ⟨5, 6, 7⟩) s) 5 = 0 ∧ xr (after (.mulhu ⟨5, 6, 7⟩) s) 5 = 2 ^ 64 - 2) := by decide +kernel

/-- A source that is also the destination (R98), and a write of x0 (R47). -/
theorem test_sel_and_x0 :
    (let s := sBase.xs [(5, 9), (6, 4)];
      xr (after (.sel ⟨5, 5, 6, 0⟩) s) 5 = 4 ∧ xr (after (.add ⟨0, 5, 6⟩) s) 0 = 0) := by decide +kernel

/-- A byte is sign-extended (R99); a doubleword is stored with its low byte first (R3). -/
theorem test_ldb_signs_and_std_is_little_endian :
    (let s := sBase.xs [(1, 0x200), (2, 0x1122334455667788)];
      let t := after (.std ⟨2, 1, 0⟩) s;
      xr (after (.ldbu ⟨3, 1, 7⟩) t) 3 = 0x11 ∧ xr (after (.ldb ⟨3, 1, 0⟩) t) 3 = 2 ^ 64 - 0x78) := by decide +kernel

/-- A word atomic answers the old word zero-extended and compares unsigned (R250). -/
theorem test_amominu_word :
    (let s := after (.stw ⟨2, 1, 0⟩) (sBase.xs [(1, 0x200), (2, 0x80000000), (4, 7)]);
      let t := after (.amominu ⟨3, 1, 4, false, .p, .ar⟩) s;
      xr t 3 = 0x80000000 ∧ xr (after (.ldw ⟨5, 1, 0⟩) t) 5 = 7) := by decide +kernel

/-- The reduction tree example: VL = 5, with every element and without element 2. -/
theorem test_reduction_tree :
    (let s := (sBase.tiled 1 5).rows 32 [(4, 0, [0x4B800000, 0x3F800000, 0x3F800000, 0x3F800000, 0x3F800000])];
      row (after (.vredfsum ⟨6, 4, .row, .f32, .rne, 0⟩) s) 32 6 0 1 = [0x4B800002] ∧
        row (after (.vredfsum ⟨6, 4, .row, .f32, .rne, 1⟩) (s.withHart fun h =>
          { h with masks := [0, 1, 3, 4].foldl (fun m p => mset m 1 p true) h.masks })) 32 6 0 1 = [0x4B800000]) := by
  decide +kernel

/-- The example of R148. -/
theorem test_vredmini :
    (let s := ((sBase.tiled 1 8).rows 32 [(4, 0, [7, 3, 9, 3, 2, 5, 2, 8])]);
      let s1 := s.withHart fun h => { h with masks := [0, 1, 2, 3, 5, 7].foldl (fun m p => mset m 1 p true) h.masks };
      let t := after (.vredmini ⟨6, 4, .row, .w32, 1⟩) s1;
      let u := after (.vredmini ⟨6, 4, .row, .w32, 1⟩) s;
      row t 32 6 0 1 = [3] ∧ row t 32 7 0 1 = [1] ∧ row u 32 6 0 1 = [0x7FFFFFFF] ∧ row u 32 7 0 1 = [0xFFFFFFFF]) := by
  decide +kernel

/-- The exclusive scan example of R150. -/
theorem test_exclusive_scan :
    row (after (.vxscansum ⟨5, 4, .row, .w32, 0⟩) ((sBase.tiled 1 4).rows 32 [(4, 0, [3, 0, 2, 4])])) 32 5 0 4 =
      [0, 3, 3, 5] := by decide +kernel

/-- The ascending sort example of R157. -/
theorem test_vsort :
    (let t := after (.vsort ⟨4, 2, .w32, false, false, 0⟩) ((sBase.tiled 1 4).rows 32 [(2, 0, [5, 3, 5, 1])]);
      row t 32 4 0 4 = [1, 3, 5, 5] ∧ row t 32 5 0 4 = [3, 1, 0, 2]) := by decide +kernel

/-- The tile of the example of R159: rows 0.5, 2, 2, -1 and 0, 3, 0, 0, with k = 3. -/
def sTopk : State :=
  ((sBase.tiled 2 4).xs [(5, 3)]).rows 32
    [(2, 0, [0x3F000000, 0x40000000, 0x40000000, 0xBF800000]), (2, 1, [0, 0x40400000, 0, 0])]

/-- The plain form of R159. -/
theorem test_vtopk :
    (let t := after (.vtopk ⟨6, 9, 2, 5, .f32, false, 0⟩) sTopk;
      row t 32 6 0 3 = [0x40000000, 0x40000000, 0x3F000000] ∧ row t 32 7 0 3 = [1, 2, 0] ∧
        row t 32 6 1 3 = [0x40400000, 0, 0] ∧ row t 32 7 1 3 = [1, 0, 2] ∧ xr t 9 = 6) := by decide +kernel

/-- The .nz form of R159. -/
theorem test_vtopk_nz :
    (let t := after (.vtopk ⟨6, 9, 2, 5, .f32, true, 0⟩) sTopk;
      row t 32 6 1 3 = [0x40400000, 0xFF800000, 0xFF800000] ∧ row t 32 7 1 3 = [1, 0xFFFFFFFF, 0xFFFFFFFF] ∧
        xr t 9 = 4) := by decide +kernel

/-- The lists of the worked merge; `b` the second list's indices and values. -/
def sMerge (ib vb : List Nat) : State :=
  ((sBase.tiled 1 8).xs [(7, 0x400000003)]).withHart fun h =>
    { h with v := { h.v with nvCode := 1 },
             vrf := fill 32 2 0 [2, 5, 9] (fill 32 3 0 [0x3FC00000, 0x40000000, 0xBF800000]
               (fill 32 4 0 ib (fill 32 5 0 vb h.vrf))) }

/-- The worked merge. -/
theorem test_vunionadd :
    (let s := sMerge [1, 5, 9, 12] [0x40800000, 0xC0000000, 0x3F800000, 0x40400000];
      let t := after (.vunionadd ⟨8, 9, 2, 4, 7, false, .f32, .rne⟩) s;
      let u := after (.vunionadd ⟨8, 9, 2, 4, 7, true, .f32, .rne⟩) s;
      row t 32 8 0 5 = [1, 2, 5, 9, 12] ∧ row t 32 9 0 5 = [0x40800000, 0x3FC00000, 0, 0, 0x40400000] ∧ xr t 9 = 5 ∧
        row u 32 8 0 3 = [1, 2, 12] ∧ row u 32 9 0 3 = [0x40800000, 0x3FC00000, 0x40400000] ∧ xr u 9 = 3) := by
  decide +kernel

/-- The worked merge with the order broken: source 1, position 2, count 3. -/
theorem test_vunionadd_order :
    (let t := after (.vunionadd ⟨8, 9, 2, 4, 7, false, .f32, .rne⟩)
        (sMerge [1, 5, 5, 12] [0x40800000, 0xC0000000, 0x3F800000, 0x40400000]);
      row t 32 8 0 3 = [1, 2, 5] ∧ xr t 9 = 3 ∧ t.hart.v.order = true ∧ t.hart.v.osrc = true ∧ t.hart.v.opos = 2 ∧
        t.hart.v.cnt = 3) := by
  decide +kernel

/-- The worked k-groups: BF16 into FP32, K = 6. -/
theorem test_mma_k_groups :
    (let s := (sBase.tiled 1 8).withHart fun h =>
        { h with v := { h.v with nvCode := 1, mshape := ⟨1, 1, 6⟩ },
                 vrf := fill 16 2 0 [0x3F80, 0x3F80, 0x3F80, 0x3F80, 0x3F80, 0x3F80]
                   ((List.range 6).foldl (fun m k => vset m 4 16 k 0 (if k = 0 then 0x4B80 else 0x3F80)) h.vrf) };
      row (after (.mmaIp ⟨8, 2, some 4, false, 0, 0, 0, false, 0, 3, 3⟩) s) 32 8 0 1 = [0x4B800003] ∧
        row (after (.mmaOp ⟨8, 2, some 4, false, 0, 0, 0, false, 0, 3, 3⟩) s) 32 8 0 1 = [0x4B800003]) := by
  decide +kernel

/-- The conversions from FP32 under RNE of the worked table: 300, 500, 500 saturating, 5, 7 and infinity. -/
theorem test_conversions :
    vcvtValue 1 4 .rne false 0x43960000 = (0x79, 1) ∧ vcvtValue 1 4 .rne false 0x43FA0000 = (0x7F, 5) ∧
      vcvtValue 1 4 .rne true 0x43FA0000 = (0x7E, 5) ∧ vcvtValue 1 6 .rne false 0x40A00000 = (0x6, 1) ∧
      vcvtValue 1 6 .rne false 0x40E00000 = (0x7, 5) ∧ vcvtValue 1 4 .rne false 0x7F800000 = (0x7F, 16) ∧
      vcvtValue 1 4 .rtz false 0x43FA0000 = (0x7F, 5) ∧ vcvtValue 1 4 .rtz false 0x43E10000 = (0x7E, 1) := by
  decide +kernel

/-- The two striping examples of R225, with VBASE, LBASE and PBASE 0. -/
theorem test_striping :
    stripePlace 0 0 0 4 0x12345 = some (1, 0x4845) ∧ stripePlace 0 0 0 5 0x12345 = some (1, 0x3A45) := by
  decide +kernel

/-- The worked capacities: G = 4,096 and NV = 16, so 256 words per lane. -/
theorem test_grants :
    grantVr 64 256 32 256 1000 = 64 ∧ grantVr 56 256 32 256 1000 = 51 ∧ grantVr 64 256 64 256 1000 = 32 ∧
      grantVr 64 256 8 256 1000 = 256 ∧ grantVr 64 256 32 8 1000 = 256 := by decide +kernel

/-- The tables of the worked walk in die 0's near memory, PTROOT at its start, nothing in the TLB. -/
def sWalk : State :=
  let s := sBase.setAccess ⟨4, 0, 0, 0x800000000F, 0x8000FF0000⟩
  { s with
    tlb := []
    store := { s.store with
      mem := writeNat (writeNat (writeNat (writeNat s.store.mem 0x8000000000 8 0x8000100003) 0x8000100000 8 0x8000110003)
        0x8000110488 8 0x8000120003) 0x800012A2B0 8 0x800001002D } }

/-- Where a load at U or a fetch of the worked address goes. -/
def walked (k : AccessKind) : Option (Nat × PageKind) ⊕ AccFault :=
  match (sWalk.translate ⟨0, 0, 0, 0⟩ ⟨0, 0x8000000000, 0⟩ .u k 0x123456789A).2 with
  | .ok p => .inl (some p)
  | .error f => .inr f

/-- The worked walk: the load's place, and the fetch's fault (cause 0x08, reason 4, level 3). -/
theorem test_walk : walked .load = .inl (some (0x800001789A, .rc)) ∧ walked .fetch = .inr (.fault 8 4 3) := by
  decide +kernel

/-- The worked line, byte for byte as the spec writes its first and last bytes. -/
def countingLine : List Byte :=
  [0x00, 0x20, 0x05, 0x11, 0x05, 0x05, 0x00, 0x31, 0x02, 0x40] ++ List.replicate 42 0 ++
    [0x01, 0x80, 0x00, 0x0A, 0xFF, 0xFF, 0xFF, 0x0B, 0x40, 0x00, 0x00, 0x00]

/-- One step on the worked line loads 64 into x5 and goes to slot 1. -/
theorem test_step_on_the_worked_line :
    (match step (State.reset.withLine countingLine) with
    | .next t => xr t 5 == 64 && pcSlot t.hart.scalar.pc == 1
    | _ => false) = true := by decide +kernel

/-! ### Where instructions trap, wait and rewind -/

/-- The page of the line may be read only, at U; a second page lies at a place that no access entry admits. -/
def sDenied : State :=
  { (sBase.xs [(1, 0x40), (2, 0x10000), (3, 0x200000000000000)]) with
    tlb := [⟨0, 0, false, 0x8000000035, none⟩, ⟨0, 1, false, 0x903FFF003D, none⟩] }

/-- A translation that faults, an address beyond 57 bits, an entry that refuses, and a target that refuses a load and a
store. -/
theorem test_hypotheses_of_AccessFaults :
    scalarAccess sDenied (.std ⟨5, 1, 0⟩) = some (0, .store, 0x40, 8) ∧
      scalarAccess sDenied (.ldw ⟨5, 3, 0⟩) = some (0, .load, 0x200000000000000, 4) ∧
      scalarAccess sDenied (.ldb ⟨5, 2, 0⟩) = some (0, .load, 0x10000, 1) ∧
      scalarAccess sDenied (.stb ⟨5, 2, 0⟩) = some (0, .store, 0x10000, 1) ∧ sDenied.isReady 0 ∧
      sDenied.locate .store 0x40 = (sDenied, .error (.fault 8 4 3)) ∧
      sDenied.locate .load 0x200000000000000 = (sDenied, .error (.fault 7 3 0)) ∧ sDenied.canTrap sDenied ∧
      sDenied.tlbFind sDenied.hart.xctx.ctxid 0x40 = some ⟨0, 0, false, 0x8000000035, none⟩ ∧
      leafRefuses 0x8000000035 sDenied.hart.scalar.level .store = some 4 ∧
      sDenied.locate .load 0x10000 = (sDenied, .ok (0x903FFF0000, .rc)) ∧
      sDenied.locate .store 0x10000 = (sDenied, .ok (0x903FFF0000, .rc)) ∧
      (let p := (sDenied.ordered .rc).readAt .load 0x903FFF0000 1 .rc 1;
        p = (p.1, .error (.fault 8 8 3)) ∧ p.1.canTrap (p.1.targetIllegal .s p.1.hart.trap.tvec).1) ∧
      (let p := sDenied.checkAt .store 0x903FFF0000;
        p = (p.1, .error (.fault 8 8 3)) ∧ p.1.canTrap (p.1.targetIllegal .s p.1.hart.trap.tvec).1) := by
  refine ⟨?_, ?_, ?_, ?_, ?_, ?_, ?_, ?_, ?_, ?_, ?_, ?_, ⟨?_, ?_⟩, ?_, ?_⟩ <;>
    first | decide +kernel | (unfold State.canTrap; decide +kernel) |
      (unfold State.isReady State.mayUse Hart.orderly Hart.timely Hart.quiet; decide +kernel)

/-- Every gate instruction on a gate that is not bound, and GINIT with a count of 0. -/
theorem test_hypotheses_of_GateMisuse :
    sGate.isReady 1 ∧ sGate.canTrap sGate ∧
      (∀ i ∈ [Instr.garr ⟨6, 4, 0, .c⟩, .gwait ⟨4, 3, .c⟩, .garw ⟨6, 4, 0, .c⟩, .gqry ⟨6, 4, .c⟩],
        (gateForm sGate i).bind (fun p => sGate.gateMisuse p.1 sGate.hart.xctx.ctxid p.2) = some 3) ∧
      (gateForm sGate (.ginit ⟨4, 3, .c⟩)).bind (fun p => sGate.gateMisuse p.1 sGate.hart.xctx.ctxid p.2) = some 2 := by
  unfold State.isReady State.mayUse Hart.orderly Hart.timely Hart.quiet State.canTrap; decide +kernel

/-- The three queue instructions on a queue that is not bound, and a pop of a queue that the stage does not pop. -/
theorem test_hypotheses_of_QueueErrors_pop :
    queueForm (.qpop ⟨0, 12, 14⟩) = some (0, false) ∧ queueForm (.qtrypop ⟨0, 12, 14⟩) = some (0, false) ∧
      sBase.isReady 2 ∧ sBase.canTrap sBase ∧ sBase.queueReason 0 false = some 0x21 ∧
      (sQueue 0 []).queueReason 63 false = some 0x23 := by
  unfold State.isReady State.mayUse Hart.orderly Hart.timely Hart.quiet State.canTrap; decide +kernel

/-- The queue of a neighbour filled. -/
def State.neighbour (s : State) (c : Nat) (es : List (Word × Word)) : State := s.setQueue c 63 ⟨16, some 0, es⟩

/-- A steal from the next core of the ring and from the last, DRAINED, SURPLUS, and a wait. -/
theorem test_hypotheses_of_HardwareQueues_empty :
    (∀ p ∈ [(0, 1), (62, 63)],
      let s := (sQueue 1 []).neighbour p.2 [(5, 6), (1, 2)];
      s.isReady 2 ∧ s.queueReason 63 false = none ∧ p.1 < 63 ∧ p.2 = s.hart.core / 64 * 64 + (s.hart.core + 1 + p.1) % 64 ∧
        s.badQueue p.2 63 = false ∧ (s.queue s.hart.core 63).entries = [] ∧
        (∀ m, m < p.1 → (s.queue (s.hart.core / 64 * 64 + (s.hart.core + 1 + m) % 64) 63).entries = []) ∧
        (s.queue p.2 63).entries = [(5, 6)] ++ [(1, 2)]) ∧
    (let s := sQueue 1 [];
      let ls := s.sched.launches.map fun l => { l with stage0Halted := true };
      let t : State := { s with sched := { s.sched with launches := ls } };
      t.isReady 2 ∧ t.queueReason 63 false = none ∧ t.popFrom 63 = none ∧ t.feedEnded = true ∧ t.queueTotal 63 = 0) ∧
    (let s := (sQueue 1 []).marked fun m => { m with wait := .qpop 63 9 true };
      s.isReady 2 ∧ s.queueReason 63 false = none ∧ s.popFrom 63 = none ∧ s.feedEnded = false ∧
        s.hart.marks.wait = .qpop 63 9 true) ∧
    (sQueue 1 []).hart.marks.wait = .none := by
  refine ⟨?_, ⟨?_, ?_⟩, ⟨?_, ?_⟩, ?_⟩
  · intro p h
    rcases List.mem_cons.1 h with rfl | h
    · refine ⟨?_, ?_⟩ <;> first | decide +kernel |
        (unfold State.isReady State.mayUse Hart.orderly Hart.timely Hart.quiet; decide +kernel)
    · rcases List.mem_cons.1 h with rfl | h
      · refine ⟨?_, ?_⟩ <;> first | decide +kernel |
          (unfold State.isReady State.mayUse Hart.orderly Hart.timely Hart.quiet; decide +kernel)
      · exact absurd h (by simp)
  all_goals first | decide +kernel |
      (unfold State.isReady State.mayUse Hart.orderly Hart.timely Hart.quiet; decide +kernel)

/-- SETVR where one row of VL fits, and where none does. -/
theorem test_hypotheses_of_TileSetting_rows :
    (sTile.tiled 1 3).vectorPosts (.setvr ⟨5, 2, .w32⟩) ∧
      tileFits sTile.lw sTile.hart.v.words Width.w32.bits 1 3 = true ∧
      (sTile.tiled 1 1048576).vectorPosts (.setvr ⟨5, 2, .w64⟩) ∧
      tileFits sTile.lw sTile.hart.v.words Width.w64.bits 1 1048576 = false :=
  ⟨posts_of (by decide +kernel), by decide +kernel, posts_of (by decide +kernel), by decide +kernel⟩

/-- A tile whose second index leads below address 0, beyond 57 bits. -/
def sPart : State := sVec.withHart fun h => { h with vrf := vset h.vrf 6 32 0 1 0xFFFF0000 }

/-- A gather and scatters whose second element faults. -/
theorem test_hypotheses_of_PartialFaults :
    sPart.hart.trap.pfGroup = false ∧ sPart.hart.sbuf = [] ∧ sPart.canTrap sPart ∧
      (∀ v ∈ [VInstr.vldx ⟨4, 1, 6, .w32, 0⟩, .vstx false ⟨4, 1, 6, .w32, 0⟩, .vstx true ⟨4, 1, 6, .w32, 0⟩],
        sPart.vectorReady v ∧ sPart.allAligned v 0 4 ∧ sPart.active (sPart.maskOf v 0) 0 1 = true ∧
          sPart.memAddr (sPart.entryOf v) v 0 0 = 0x200 ∧
          (∀ k ∈ [AccessKind.load, .store],
            sPart.locate k (sPart.memAddr (sPart.entryOf v) v 0 1) = (sPart, .error (.fault 7 3 0)))) ∧
      sPart.readsAt .load 0x200 4 0 ∧ sPart.storesAt 0x200 (0x8000000200, .rc) ∧ sPart.homeMemory 0x8000000200 := by
  refine ⟨by decide +kernel, by decide +kernel, by unfold State.canTrap; decide +kernel, ?_,
    reads_of (pa := 0x8000000200) (bs := [0, 0, 0, 0]) (by decide +kernel), ⟨by decide, by decide +kernel, by decide +kernel⟩,
    home_of (d := 0) (by decide +kernel) (by decide +kernel)⟩
  intro v h
  have al : ∀ v ∈ [VInstr.vldx ⟨4, 1, 6, .w32, 0⟩, .vstx false ⟨4, 1, 6, .w32, 0⟩, .vstx true ⟨4, 1, 6, .w32, 0⟩],
      sPart.allAligned v 0 4 := by
    intro v h row el ha
    obtain ⟨rfl, rfl | rfl⟩ := active_two (by decide +kernel) (by decide +kernel) ha <;> revert v <;> decide +kernel
  refine ⟨⟨?_, ?_⟩, al v h, ?_⟩
  · rcases List.mem_cons.1 h with rfl | h
    · exact posts_of (by decide +kernel)
    · rcases List.mem_cons.1 h with rfl | h
      · exact posts_of (by decide +kernel)
      · rcases List.mem_cons.1 h with rfl | h
        · exact posts_of (by decide +kernel)
        · exact absurd h (by simp)
  · revert v; decide +kernel
  · revert v; decide +kernel

/-- A tile of a stream whose second element failed when it was fetched ahead. -/
theorem test_hypotheses_of_StreamFaults :
    let q := { qStream with fetched := [.value 7, .fail 1 0x30000 none] }
    let s := sVec.withHart fun h => { h with streams := h.streams.set 2 (some q) }
    posted (.vmv ⟨10, 9, .w32, 0⟩) = some (.vmv ⟨10, 9, .w32, 0⟩) ∧ s.vectorPosts (.vmv ⟨10, 9, .w32, 0⟩) ∧
      s.hart.sbuf = [] ∧ s.canTrap s ∧ 0 < s.hart.v.vl ∧ 9 ∈ vreads (.vmv ⟨10, 9, .w32, 0⟩) ∧
      s.hart.streamOn 9 = some 2 ∧ s.hart.streams[(2 : Fin 4)] = some q ∧
      (∀ r ∈ vreads (.vmv ⟨10, 9, .w32, 0⟩), r ≠ 9 → s.hart.streamOn r = none) ∧
      s.hart.v.vrows * s.hart.v.vl ≤ q.fetched.length ∧ 1 < s.hart.v.vrows * s.hart.v.vl ∧
      q.pos + s.hart.v.vrows * s.hart.v.vl ≤ q.count ∧ q.fetched[1]? = some (.fail 1 0x30000 none) ∧
      q.fetched[0]? = some (.value 7) :=
  ⟨rfl, posts_of (by decide +kernel), by decide +kernel, by unfold State.canTrap; decide +kernel, by decide +kernel⟩

/-- A failure of kind 1 recorded for the copy of the hart. -/
def cFail : Copy := { cBase with failure := some ⟨1, 0x140, none, none⟩ }

/-- Each copy-class instruction with the failure pending; and ERET from its trap, for a failure of kind 5 too. -/
theorem test_hypotheses_of_CopyFaults :
    (let s := (sCopy cFail).xs [(1, 0x100), (2, 1)];
      cFail.reported = false ∧ s.canTrap s ∧ s.vectorReady (.cpy false ⟨0, 1, 2, 4, 0, 0, .c, 3, 0⟩) ∧
        s.vectorReady (.cmwait ⟨1, 3, true⟩) ∧ s.vectorReady (.cmtest ⟨6, 1, 3, false⟩) ∧ s.vectorReady (.cmclr ⟨1, 3⟩) ∧
        s.isReady 1 ∧ (s.x 2).toNat ≤ 4096 ∧ s.isReady 0 ∧ s.hart.marks.removed = false ∧ s.hart.sbuf = []) ∧
    (∀ kind ∈ [1, 5],
      let s := ((sCopy { cFail with failure := some ⟨kind, 0x140, none, none⟩, reported := true }).atS.withHart fun h =>
        { h with trap := { h.trap with cause := 0x0B } });
      s.isReady 0 ∧ s.hart.scalar.level = .s ∧ s.hart.trap.cause = 0x0B ∧
        s.targetIllegal (if s.hart.trap.spl then .s else .u) s.hart.trap.tpc = (s, .ok false)) := by
  refine ⟨⟨by decide +kernel, by unfold State.canTrap; decide +kernel, ⟨posts_of (by decide +kernel), by decide +kernel⟩,
    ⟨posts_of (by decide +kernel), by decide +kernel⟩, ⟨posts_of (by decide +kernel), by decide +kernel⟩,
    ⟨posts_of (by decide +kernel), by decide +kernel⟩, ?_⟩, ?_⟩ <;>
    (unfold State.isReady State.mayUse Hart.orderly Hart.timely Hart.quiet; decide +kernel)

/-- A granule of the line's page poisoned, read by a hart with an address in it. -/
def sPoison : State :=
  { (sBase.xs [(1, 0x408)]) with store := { sBase.store with poison := [0x400000020] } }

/-- A load of a poisoned granule: outside a strip, in one that may be rewound, and in one that may not. -/
theorem test_hypotheses_of_LoadErrors :
    (loadForm (.ldw ⟨5, 1, 4⟩)).isSome = true ∧
      (∀ s ∈ [sPoison, sPoison.stripOpen], s.isReady 0 ∧ (s.x 1 + (4 : BitVec 25).signExtend 64).toNat % 4 = 0 ∧
        s.locate .load (s.x 1 + (4 : BitVec 25).signExtend 64) = (s, .ok (0x800000040C, .rc)) ∧
        s.readAt .load 0x800000040C 4 .rc s.hart.nextSeq = (s, .error (.ecc 0x400000020)) ∧
        (s.dropTransient 0x400000020).canTrap s) ∧
      sPoison.hart.strip = none ∧ sPoison.stripOpen.hart.sbuf = [] ∧ 0 < sPoison.hart.nextSeq ∧
      (sPoison.stripOpen.hart.strip.map fun st => (st.id, st.sealed, st.rewinds, st.errGranule)) =
        some (0, false, 0, none) ∧
      (let s := sPoison.stripOpen.withHart fun h =>
          { h with strip := h.strip.map fun st => { st with rewinds := 4, errGranule := some 0x400000020 } };
        (s.hart.strip.map fun st => (st.sealed, decide (4 ≤ st.rewinds), st.errGranule)) =
          some (false, true, some 0x400000020) ∧ s.isReady 0 ∧ (s.dropTransient 0x400000020).canTrap s) := by
  have both : ∀ s ∈ [sPoison, sPoison.stripOpen], s.isReady 0 := by
    unfold State.isReady State.mayUse Hart.orderly Hart.timely Hart.quiet; decide +kernel
  have trap : ∀ s ∈ [sPoison, sPoison.stripOpen], (s.dropTransient 0x400000020).canTrap s := by
    unfold State.canTrap; decide +kernel
  have reads : ∀ s ∈ [sPoison, sPoison.stripOpen], (s.x 1 + (4 : BitVec 25).signExtend 64).toNat % 4 = 0 ∧
      s.locate .load (s.x 1 + (4 : BitVec 25).signExtend 64) = (s, .ok (0x800000040C, .rc)) ∧
      s.readAt .load 0x800000040C 4 .rc s.hart.nextSeq = (s, .error (.ecc 0x400000020)) := by decide +kernel
  refine ⟨rfl, fun s h => ⟨both s h, (reads s h).1, (reads s h).2.1, (reads s h).2.2, trap s h⟩, ?_, ?_, ?_, ?_, ?_, ?_, ?_⟩ <;>
    first | decide +kernel | (unfold State.canTrap; decide +kernel) |
      (unfold State.isReady State.mayUse Hart.orderly Hart.timely Hart.quiet; decide +kernel)

/-- An error in a scalar register, in a gate, and in a queue. -/
theorem test_hypotheses_of_StateErrors :
    (let s := sBase.marked fun m => { m with badRegs := [.scalarRegister 0 6] };
      s.hart.viq = [] ∧ s.hart.orderly ∧ s.canTrap s ∧ (aluResult s (.sub ⟨5, 6, 0⟩)).isSome = true ∧ s.mayUse 0 ∧
        s.hart.strip = none ∧ s.hart.badX 6 = true) ∧
    (let s := sGate.setCore 0 { sGate.core 0 with bad := [.gate 0 5] };
      s.hart.viq = [] ∧ s.hart.orderly ∧ s.canTrap s ∧ s.isReady 1 ∧
        gateForm s (.gqry ⟨6, 1, .c⟩) = some (5, .look) ∧ s.gateMisuse 5 s.hart.xctx.ctxid .look = none ∧
        s.badGate 5 = true) ∧
    (let q := sQueue 0 [];
      let s := q.setCore 0 { q.core 0 with bad := [.queue 0 63] };
      s.hart.viq = [] ∧ s.hart.orderly ∧ s.canTrap s ∧ s.isReady 2 ∧ s.hart.sbuf = [] ∧
        s.queueReason 63 true = none ∧ s.badQueue s.hart.core 63 = true) := by
  refine ⟨⟨?_, ?_, ?_, ?_, ?_, ?_⟩, ⟨?_, ?_, ?_, ?_, ?_, ?_⟩, ⟨?_, ?_, ?_, ?_, ?_⟩⟩ <;>
    first | decide +kernel | (unfold State.canTrap; decide +kernel) | (unfold Hart.orderly Hart.timely Hart.quiet; decide +kernel) |
      (unfold State.mayUse; decide +kernel) | (unfold State.isReady State.mayUse Hart.orderly Hart.timely Hart.quiet; decide +kernel)

/-- A hart that waits in QPOP and is woken: with an entry at hand, and without. -/
theorem test_hypotheses_of_HartEvents_qpop :
    ∀ es ∈ [[((1 : Word), (2 : Word))], []],
      let s := (sQueue 1 es).marked fun m => { m with wait := .qpop 63 9 false };
      s.holds 0 s.hart ∧ s.isAt 0 ∧ s.hart.marks.wait = .qpop 63 9 false ∧ s.isReady 2 ∧ s.queueReason 63 false = none ∧
        s.badQueue s.hart.core 63 = false ∧
        ((s.queue s.hart.core 63).entries ≠ [] ∨ s.popFrom 63 = none ∧ s.feedEnded = false) := by
  unfold State.holds State.isAt State.isReady State.mayUse Hart.orderly Hart.timely Hart.quiet; decide +kernel

/-- A stream that waits for the pop that resumes it; MBCMD reached by the host; the CXL link down; and a save that was
forced. -/
theorem test_hypotheses_of_single_events :
    (let q := { qStream with fetched := [], again := true };
      let s := sVec.withHart fun h => { h with streams := h.streams.set 2 (some q) };
      s.isAt 0 ∧ s.hart.streams[(2 : Fin 4)] = some q ∧ q.again = true) ∧
    sHost.hostReaches 0xF000010000 ∧ sHost.hostReaches 0xF000001010 ∧ sHost.mgmt.busy = false ∧
    (sHost.powerSet fun p => { p with cxlUp := false }).powered ∧
    (let s := sBase.launched.marked fun m => { m with saving := true, forced := true };
      s.isAt 0 ∧ s.hart.saveReady = true ∧ s.hart.marks.forced = true) := by
  unfold State.isAt State.hostReaches State.powered; decide +kernel

end

end Sys2Proof.Machine
end

section
/-! PROOFS. Accesses that only look: what translation, permission checks and reads change, and that they do not depend on the
rest of the current hart. -/

noncomputable section

namespace Sys2Proof.Machine

/-! ### What an access that only looks may change -/

/-- `t` is `s` but for what a look may change: translations held, violation logs, and cached copies of remote lines (R222, R352,
R360). -/
structure State.probed (s t : State) : Prop where
  eq : t = { s with
    tlb := t.tlb
    vlogs := t.vlogs
    store := { s.store with far := { s.store.far with rdc := t.store.far.rdc, l1 := t.store.far.l1 } } }

theorem State.probed_refl (s : State) : s.probed s := ⟨rfl⟩

theorem State.probed.trans {s t u : State} (h : s.probed t) (g : t.probed u) : s.probed u := by
  obtain ⟨h⟩ := h
  obtain ⟨g⟩ := g
  rw [h] at g
  exact ⟨g⟩

theorem State.probed.hart {s t : State} (h : s.probed t) : t.hart = s.hart := (congrArg State.hart h.eq :)
theorem State.probed.others {s t : State} (h : s.probed t) : t.others = s.others := (congrArg State.others h.eq :)
theorem State.probed.pkg {s t : State} (h : s.probed t) : t.pkg = s.pkg := (congrArg State.pkg h.eq :)
theorem State.probed.cores {s t : State} (h : s.probed t) : t.cores = s.cores := (congrArg State.cores h.eq :)
theorem State.probed.cycle {s t : State} (h : s.probed t) : t.cycle = s.cycle := (congrArg State.cycle h.eq :)
theorem State.probed.mem {s t : State} (h : s.probed t) : t.store.mem = s.store.mem :=
  (congrArg (fun u : State => u.store.mem) h.eq :)

theorem State.probed.sameMemory {s t : State} (h : s.probed t) : s.sameMemory t :=
  ⟨fun _ => by rw [h.mem], fun a => (congrArg (fun u : State => memRead u.store.host a) h.eq :),
    (congrArg (fun u : State => u.store.peers) h.eq :)⟩

/-- A function of a state that only looks, and looks at nothing of the current hart. -/
structure IsProbe {α : Type} (F : State → State × α) : Prop where
  withHart : ∀ s f, F (s.withHart f) = ((F s).1.withHart f, (F s).2)
  probed : ∀ s : State, s.probed (F s).1

/-- A value read from the state without its hart. -/
theorem IsProbe.pure {α : Type} {a : State → α} (h : ∀ s f, a (s.withHart f) = a s) : IsProbe fun s => (s, a s) :=
  ⟨fun s f => by simp [h], fun s => s.probed_refl⟩

/-- One look after another. -/
theorem IsProbe.bind {α β : Type} {F : State → State × α} {G : α → State → State × β} (hF : IsProbe F)
    (hG : ∀ a, IsProbe (G a)) : IsProbe fun s => G (F s).2 (F s).1 :=
  ⟨fun s f => by rw [hF.withHart, (hG _).withHart], fun s => (hF.probed s).trans ((hG _).probed _)⟩

theorem IsProbe.congr {α : Type} {F G : State → State × α} (h : IsProbe G) (e : ∀ s, F s = G s) : IsProbe F := by
  have same : F = G := funext e
  rwa [same]

theorem IsProbe.ite {α : Type} {c : State → Prop} [∀ s, Decidable (c s)] {F G : State → State × α} (hF : IsProbe F)
    (hG : IsProbe G) (hc : ∀ s f, c (s.withHart f) ↔ c s) : IsProbe fun s => if c s then F s else G s := by
  refine ⟨fun s f => ?_, fun s => ?_⟩
  · by_cases h : c s <;> simp [h, hc, hF.withHart, hG.withHart]
  · by_cases h : c s
    · simpa [h] using hF.probed s
    · simpa [h] using hG.probed s

/-! ### Checks and reads at physical addresses -/

theorem State.logViolation_probe (t : Fin 11) (r : Requester) (k : AccessKind) (pa : Nat) :
    IsProbe fun s => (s.logViolation t r k pa, false) :=
  ⟨fun _ _ => rfl, fun _ => ⟨rfl⟩⟩

theorem State.checkLocal_probe (r : Requester) (k : AccessKind) (pa : Nat) : IsProbe fun s => s.checkLocal r k pa := by
  have still : IsProbe fun s : State => (s, s.present (region (paLocal pa))) := IsProbe.pure fun _ _ => by
    cases region (paLocal pa) <;> rfl
  unfold State.checkLocal
  simp only []
  cases hg : (region (paLocal pa)).target with
  | none => exact IsProbe.pure fun _ _ => rfl
  | some t =>
    refine IsProbe.ite (State.logViolation_probe t r k pa) ?_ fun _ _ => Iff.rfl
    cases hr : region (paLocal pa) <;> rw [hr] at still
    case hostWindow => exact IsProbe.ite (State.logViolation_probe 8 r k pa) still fun _ _ => Iff.rfl
    all_goals exact still

theorem State.deviceByte_withHart (s : State) (f : Hart → Hart) (la : Nat) :
    (s.withHart f).deviceByte la = s.deviceByte la := by
  have lpstat : (s.withHart f).lpstat = s.lpstat := rfl
  have lpctx : (s.withHart f).lpctx = s.lpctx := rfl
  have fdieRead : ∀ n, (s.withHart f).fdieRead n = s.fdieRead n := fun _ => rfl
  have mbstat : (s.withHart f).mbstat = s.mbstat := rfl
  have telemetry : ∀ n, (s.withHart f).telemetryByte n = s.telemetryByte n := fun _ => rfl
  have access : ∀ n, (s.withHart f).accessByte n = s.accessByte n := fun _ => rfl
  simp only [State.deviceByte, lpstat, lpctx, fdieRead, mbstat, telemetry, access, State.withHart_mgmt]

theorem State.deviceRead_withHart (s : State) (f : Hart → Hart) (la n : Nat) :
    (s.withHart f).deviceRead la n = s.deviceRead la n := by
  induction n generalizing la with
  | zero => rfl
  | succ n ih =>
    rw [State.deviceRead, State.deviceRead, ih, State.deviceByte_withHart]

theorem State.localBytes_withHart (s : State) (f : Hart → Hart) (la n : Nat) :
    (s.withHart f).localBytes la n = s.localBytes la n := by
  unfold State.localBytes
  cases region la with
  | device _ => exact s.deviceRead_withHart f la n
  | _ => rfl

theorem State.cachedRemote_probe (core pa n : Nat) (kind : PageKind) (m : Mem) :
    IsProbe fun s => s.cachedRemote core pa n kind m := by
  refine ⟨fun s f => ?_, fun s => ?_⟩
  all_goals unfold State.cachedRemote
  · simp only [State.withHart_store, State.withHart_cycle]
    cases (findCopy s.store.far.l1 s.cycle core (pa / 128) kind).or
      (findCopy s.store.far.rdc s.cycle (core / 64) (pa / 128) kind) with
    | some bs => rfl
    | none => 
      simp only []
      change (if (s.eccAt (pa / 128 * 128) 128).isSome then _ else _) = _
      split <;> rfl
  · cases hc : (findCopy s.store.far.l1 s.cycle core (pa / 128) kind).or
      (findCopy s.store.far.rdc s.cycle (core / 64) (pa / 128) kind) with
    | some bs => simpa only [hc] using s.probed_refl
    | none =>
      by_cases he : (s.eccAt (pa / 128 * 128) 128).isSome = true
      · simpa only [hc, he, if_true] using s.probed_refl
      · simp only [hc, he]
        exact ⟨rfl⟩

theorem State.readHome_withHart (s : State) (f : Hart → Hart) (core pa : Nat) (bs : List Byte) :
    (s.withHart f).readHome core pa bs = (s.readHome core pa bs).withHart f := rfl

theorem State.readHome_probed (s : State) (core pa : Nat) (bs : List Byte) : s.probed (s.readHome core pa bs) := ⟨rfl⟩

/-- What a read that reached another package does there, before older pending stores overlay it (R222, R229, R237). -/
def State.peerRead (s : State) (r : Requester) (k : AccessKind) (pa n : Nat) (kind : Option PageKind) (p : Peer) :
    State × PhysRes :=
  match cachedKind (paLocal pa) kind with
  | some kd => s.cachedRemote r.core pa n kd p.mem
  | none =>
    (if decide (k = AccessKind.atomic) || kind == some PageKind.so then
      s.readHome r.core pa (readBytes p.mem (paLocal pa) n) else s,
      PhysRes.bytes (readBytes p.mem (paLocal pa) n) (s.eccAt pa n))

theorem State.peerRead_probe (r : Requester) (k : AccessKind) (pa n : Nat) (kind : Option PageKind) (p : Peer) :
    IsProbe fun s => s.peerRead r k pa n kind p := by
  unfold State.peerRead
  cases cachedKind (paLocal pa) kind with
  | some kd => exact State.cachedRemote_probe r.core pa n kd p.mem
  | none =>
    refine ⟨fun s f => ?_, fun s => ?_⟩
    · simp only []
      split <;> rfl
    · simp only []
      split
      · exact s.readHome_probed _ _ _
      · exact s.probed_refl

/-- A read at a physical address by its target: this package, or another one (R221). -/
theorem State.physRead_eq (s : State) (r : Requester) (k : AccessKind) (pa n : Nat) (kind : Option PageKind) :
    s.physRead r k pa n kind =
      if paPkg pa = s.pkg.toNat then
        ((s.checkLocal r k pa).1, if (s.checkLocal r k pa).2 then
          .bytes ((s.checkLocal r k pa).1.localBytes (paLocal pa) n) ((s.checkLocal r k pa).1.eccAt pa n) else .error)
      else
        match assocGet s.store.peers (paPkg pa) with
        | none => (s, .error)
        | some p =>
          if !p.answers (paLocal pa) then (s, .error)
          else if !s.hasPath (paPkg pa) then (s, .noPath)
          else
            ((s.peerRead r k pa n kind p).1,
              match (s.peerRead r k pa n kind p).2 with
              | .bytes bs ecc =>
                .bytes (overlay pa bs ((s.peerRead r k pa n kind p).1.store.far.pendingUn.map fun q => q.2)) ecc
              | res => res) := by
  unfold State.physRead
  split
  · rcases s.checkLocal r k pa with ⟨t, ok⟩
    cases ok <;> rfl
  · cases assocGet s.store.peers (paPkg pa) with
    | none => rfl
    | some p =>
      simp only []
      split
      · rfl
      split
      · rfl
      change (match s.peerRead r k pa n kind p with
        | (t, res) => match (res : PhysRes) with
          | .bytes bs ecc => ((t : State), PhysRes.bytes (overlay pa bs (t.store.far.pendingUn.map fun q : (Nat × Nat × Nat) × Nat × List Byte => q.2)) ecc)
          | res => (t, res)) = _
      rcases s.peerRead r k pa n kind p with ⟨t, res⟩
      cases res <;> rfl

theorem State.physRead_probe (r : Requester) (k : AccessKind) (pa n : Nat) (kind : Option PageKind) :
    IsProbe fun s => s.physRead r k pa n kind := by
  refine ⟨fun s f => ?_, fun s => ?_⟩
  · simp only [State.physRead_eq, State.withHart_pkg, State.withHart_store, (State.checkLocal_probe r k pa).withHart,
      State.localBytes_withHart]
    split
    · rfl
    cases assocGet s.store.peers (paPkg pa) with
    | none => rfl
    | some p =>
      simp only [(State.peerRead_probe r k pa n kind p).withHart]
      split
      · rfl
      change (if !s.hasPath (paPkg pa) then _ else _) = _
      split <;> rfl
  · rw [State.physRead_eq]
    split
    · exact (State.checkLocal_probe r k pa).probed s
    cases assocGet s.store.peers (paPkg pa) with
    | none => exact s.probed_refl
    | some p =>
      simp only []
      split
      · exact s.probed_refl
      split
      · exact s.probed_refl
      · exact (State.peerRead_probe r k pa n kind p).probed s

theorem State.physCheck_probe (r : Requester) (k : AccessKind) (pa : Nat) : IsProbe fun s => s.physCheck r k pa := by
  refine ⟨fun s f => ?_, fun s => ?_⟩
  all_goals unfold State.physCheck
  · simp only [State.withHart_pkg, State.withHart_store, (State.checkLocal_probe r k pa).withHart]
    split
    · rfl
    · cases assocGet s.store.peers (paPkg pa) <;> rfl
  · simp only []
    split
    · exact (State.checkLocal_probe r k pa).probed s
    · cases assocGet s.store.peers (paPkg pa) <;> exact s.probed_refl

/-! ### Translation -/

theorem State.walkRead_probe (r : Requester) (lv ea : Nat) : IsProbe fun s => s.walkRead r lv ea := by
  have read := State.physRead_probe { r with cls := 0 } .load ea 8 none
  refine ⟨fun s f => ?_, fun s => ?_⟩
  all_goals unfold State.walkRead
  · simp only [State.withHart_pkg, read.withHart]
    split
    · rfl
    · rcases s.physRead { r with cls := 0 } .load ea 8 none with ⟨t, ⟨bs, _ | g⟩ | _ | _⟩ <;> rfl
  · split
    · exact s.probed_refl
    · have := read.probed s
      revert this
      rcases s.physRead { r with cls := 0 } .load ea 8 none with ⟨t, ⟨bs, _ | g⟩ | _ | _⟩ <;> exact id

/-- A look that goes on only where the one before it answered. -/
theorem IsProbe.andThen {ε α β : Type} {F : State → State × Except ε α} {G : α → State → State × Except ε β}
    (hF : IsProbe F) (hG : ∀ a, IsProbe (G a)) :
    IsProbe fun s => match F s with
      | (s, .error e) => (s, .error e)
      | (s, .ok a) => G a s := by
  refine (hF.bind (G := fun r s => match r with | .error e => (s, .error e) | .ok a => G a s) ?_).congr fun s => ?_
  · intro r
    cases r with
    | error e => exact IsProbe.pure fun _ _ => rfl
    | ok a => exact hG a
  · rcases F s with ⟨t, _ | _⟩ <;> rfl

theorem State.walkFrom_probe (r : Requester) (va fuel lv t : Nat) : IsProbe (State.walkFrom r va fuel lv t) := by
  induction fuel generalizing lv t with
  | zero => exact IsProbe.pure fun _ _ => rfl
  | succ fuel ih =>
    refine ((State.walkRead_probe r lv (t + 8 * walkIndex lv va)).andThen (G := fun e s =>
      if !entryBit e 0 then (s, .error (.fault 7 1 lv))
      else if entryMalformed e lv then (s, .error (.fault 7 2 lv))
      else if entryBit e 1 then State.walkFrom r va fuel (lv + 1) (entryAddr e) s
      else (s, .ok ⟨e, lv, t + 8 * walkIndex lv va⟩)) fun e => ?_).congr fun s => ?_
    · refine IsProbe.ite (IsProbe.pure fun _ _ => rfl) ?_ fun _ _ => Iff.rfl
      refine IsProbe.ite (IsProbe.pure fun _ _ => rfl) ?_ fun _ _ => Iff.rfl
      exact IsProbe.ite (ih _ _) (IsProbe.pure fun _ _ => rfl) fun _ _ => Iff.rfl
    · rw [State.walkFrom]
      rcases s.walkRead r lv (t + 8 * walkIndex lv va) with ⟨u, _ | _⟩ <;> rfl

theorem State.walk_probe (r : Requester) (xc : XlateCtx) (va : Nat) : IsProbe fun s => s.walk r xc va :=
  IsProbe.ite (IsProbe.pure fun _ _ => rfl) (State.walkFrom_probe r va 4 0 _) fun _ _ => Iff.rfl

/-- A stripe descriptor's words checked (R351). -/
def stripeOf (vb lb pc v : Nat) (s : State) : State × Except AccFault (Nat × Nat × Nat × Nat) :=
  if v ≠ 1 ∨ 2 ^ 57 ≤ vb ∨ vb % 65536 ≠ 0 ∨ 2 ^ 40 ≤ lb ∨ lb % 65536 ≠ 0 ∨ 2 ^ 17 ≤ pc % 2 ^ 32 then
    (s, .error (.fault 8 9 3))
  else (s, .ok (vb, lb, pc % 2 ^ 32, pc / 2 ^ 32))

theorem State.readStripe_probe (r : Requester) (xc : XlateCtx) (n : Nat) : IsProbe fun s => s.readStripe r xc n := by
  have words := State.walkRead_probe r 3
  generalize ha : xc.strbase.toNat % 2 ^ 57 / 4096 * 4096 + 32 * n = a
  have checked : ∀ vb lb pc v, IsProbe (stripeOf vb lb pc v) := fun vb lb pc v =>
    IsProbe.ite (IsProbe.pure fun _ _ => rfl) (IsProbe.pure fun _ _ => rfl) fun _ _ => Iff.rfl
  have found := (words a).andThen fun vb => (words (a + 8)).andThen fun lb => (words (a + 16)).andThen fun pc =>
    (words (a + 24)).andThen (checked vb lb pc)
  have absent : IsProbe fun s : State =>
      (s, (Except.error (.fault 8 9 3) : Except AccFault (Nat × Nat × Nat × Nat))) := IsProbe.pure fun _ _ => rfl
  refine (absent.ite (c := fun _ => (!xc.strbase.getLsbD 0) = true) found fun _ _ => Iff.rfl).congr fun s => ?_
  simp only [State.readStripe, ha]
  split
  · rfl
  rcases s.walkRead r 3 a with ⟨s, _ | vb⟩
  · rfl
  simp only []
  rcases s.walkRead r 3 (a + 8) with ⟨s, _ | lb⟩
  · rfl
  simp only []
  rcases s.walkRead r 3 (a + 16) with ⟨s, _ | pc⟩
  · rfl
  simp only []
  rcases s.walkRead r 3 (a + 24) with ⟨s, _ | v⟩ <;> rfl

/-- The TLB entry of a walk that reached a leaf: permission first, then the stripe descriptor (R348, R352). -/
def State.fillTlb (r : Requester) (xc : XlateCtx) (lvl : Level) (k : AccessKind) (va : Nat) (w : WalkLeaf) (s : State) :
    State × Except AccFault TlbEntry :=
  let entry := fun st : Option (Nat × Nat × Nat × Nat) =>
    (⟨xc.ctxid, if w.level == 2 then va / 2 ^ 29 else va / 65536, w.level == 2, BitVec.ofNat 64 w.leaf, st⟩ : TlbEntry)
  if entryBit w.leaf 9 then
    match leafRefuses w.leaf lvl k with
    | some reason => (s, .error (.fault 8 reason w.level))
    | none =>
      match s.readStripe r xc (w.leaf / 2 ^ 57) with
      | (s, .error f) => (s, .error f)
      | (s, .ok st) => ({ s with tlb := entry (some st) :: s.tlb }, .ok (entry (some st)))
  else ({ s with tlb := entry none :: s.tlb }, .ok (entry none))

theorem State.fillTlb_probe (r : Requester) (xc : XlateCtx) (lvl : Level) (k : AccessKind) (va : Nat) (w : WalkLeaf) :
    IsProbe (State.fillTlb r xc lvl k va w) := by
  have fill : ∀ e : TlbEntry, IsProbe fun s : State => ({ s with tlb := e :: s.tlb }, Except.ok (ε := AccFault) e) :=
    fun e => ⟨fun _ _ => rfl, fun _ => ⟨rfl⟩⟩
  refine IsProbe.ite ?_ (fill _) fun _ _ => Iff.rfl
  cases leafRefuses w.leaf lvl k with
  | some reason => exact IsProbe.pure fun _ _ => rfl
  | none =>
    refine ((State.readStripe_probe r xc (w.leaf / 2 ^ 57)).andThen fun st => fill
      ⟨xc.ctxid, if w.level == 2 then va / 2 ^ 29 else va / 65536, w.level == 2, BitVec.ofNat 64 w.leaf, some st⟩).congr
      fun s => ?_
    simp only []
    rcases s.readStripe r xc (w.leaf / 2 ^ 57) with ⟨u, _ | _⟩ <;> rfl

/-- The walk of an access, and the TLB entry it fills (R348, R352). -/
def State.walkTlb (s : State) (r : Requester) (xc : XlateCtx) (lvl : Level) (k : AccessKind) (va : Nat) :
    State × Except AccFault TlbEntry :=
  match s.walk r xc va with
  | (s, .error f) => (s, .error f)
  | (s, .ok w) => State.fillTlb r xc lvl k va w s

theorem State.walkTlb_probe (r : Requester) (xc : XlateCtx) (lvl : Level) (k : AccessKind) (va : Nat) :
    IsProbe fun s => s.walkTlb r xc lvl k va :=
  ((State.walk_probe r xc va).andThen fun w => State.fillTlb_probe r xc lvl k va w).congr fun s => by
    unfold State.walkTlb
    rcases s.walk r xc va with ⟨u, _ | _⟩ <;> rfl

/-- The TLB entry of an access: one that is held, or that of a walk (R352). -/
theorem State.tlbEntry_eq (s : State) (r : Requester) (xc : XlateCtx) (lvl : Level) (k : AccessKind) (va : Nat) :
    s.tlbEntry r xc lvl k va =
      match if va < 2 ^ 57 then s.tlbFind xc.ctxid va else none with
      | some e => (s, .ok e)
      | none => s.walkTlb r xc lvl k va := rfl

theorem State.tlbEntry_probe (r : Requester) (xc : XlateCtx) (lvl : Level) (k : AccessKind) (va : Nat) :
    IsProbe fun s => s.tlbEntry r xc lvl k va := by
  have walked := State.walkTlb_probe r xc lvl k va
  refine ⟨fun s f => ?_, fun s => ?_⟩
  · simp only [State.tlbEntry_eq, walked.withHart]
    change (match if va < 2 ^ 57 then s.tlbFind xc.ctxid va else none with | some e => _ | none => _) = _
    cases (if va < 2 ^ 57 then s.tlbFind xc.ctxid va else none : Option TlbEntry) <;> rfl
  · rw [State.tlbEntry_eq]
    cases (if va < 2 ^ 57 then s.tlbFind xc.ctxid va else none : Option TlbEntry) with
    | some e => exact s.probed_refl
    | none => exact walked.probed s

/-- The end of a translation: the leaf's permission and the place in its page or stripe (R225, R348). -/
def placeAccess (lvl : Level) (k : AccessKind) (va : Nat) (e : TlbEntry) : Except AccFault (Nat × PageKind) :=
  match leafRefuses e.leaf.toNat lvl k with
  | some reason => .error (.fault 8 reason (if e.block then 2 else 3))
  | none =>
    match tlbPlace e va with
    | some pa => .ok (pa, leafKind e.leaf.toNat)
    | none => .error (.fault 8 9 3)

theorem State.translate_eq (s : State) (r : Requester) (xc : XlateCtx) (lvl : Level) (k : AccessKind) (va : Nat) :
    s.translate r xc lvl k va =
      ((s.tlbEntry r xc lvl k va).1, (s.tlbEntry r xc lvl k va).2.bind (placeAccess lvl k va)) := by
  unfold State.translate
  rcases s.tlbEntry r xc lvl k va with ⟨t, f | e⟩
  · rfl
  · simp only [Except.bind, placeAccess]
    cases leafRefuses e.leaf.toNat lvl k with
    | some reason => rfl
    | none => cases tlbPlace e va <;> rfl

theorem State.translate_probe (r : Requester) (xc : XlateCtx) (lvl : Level) (k : AccessKind) (va : Nat) :
    IsProbe fun s => s.translate r xc lvl k va := by
  have entry := State.tlbEntry_probe r xc lvl k va
  refine ⟨fun s f => ?_, fun s => ?_⟩
  · simp only [State.translate_eq, entry.withHart]
  · rw [State.translate_eq]
    exact entry.probed s

/-! ### Accesses of the current hart -/

/-- What of a hart its own accesses look at: its context, its place and its level. -/
structure Hart.sameAccess (h k : Hart) : Prop where
  xctx : k.xctx = h.xctx
  ident : k.ident = h.ident
  level : k.scalar.level = h.scalar.level

theorem State.locateAt_probed (s : State) (lvl : Level) (k : AccessKind) (va : Word) : s.probed (s.locateAt lvl k va).1 :=
  (State.translate_probe _ _ _ _ _).probed s

theorem State.locate_probed (s : State) (k : AccessKind) (va : Word) : s.probed (s.locate k va).1 :=
  s.locateAt_probed _ k va

theorem State.me_withHart {s : State} {f : Hart → Hart} (h : s.hart.sameAccess (f s.hart)) : (s.withHart f).me = s.me := by
  simp only [State.me, State.withHart_hart, State.withHart_pkg, Hart.core, h.xctx, h.ident]

theorem State.locateAt_withHart {s : State} {f : Hart → Hart} (h : s.hart.sameAccess (f s.hart)) (lvl : Level)
    (k : AccessKind) (va : Word) :
    (s.withHart f).locateAt lvl k va = ((s.locateAt lvl k va).1.withHart f, (s.locateAt lvl k va).2) := by
  simp only [State.locateAt, State.me_withHart h, State.withHart_hart, h.xctx]
  exact (State.translate_probe _ _ _ _ _).withHart s f

theorem State.locate_withHart {s : State} {f : Hart → Hart} (h : s.hart.sameAccess (f s.hart)) (k : AccessKind) (va : Word) :
    (s.withHart f).locate k va = ((s.locate k va).1.withHart f, (s.locate k va).2) := by
  simp only [State.locate, State.withHart_hart, h.level]
  exact State.locateAt_withHart h _ k va

theorem State.readAt_probed (s : State) (k : AccessKind) (pa n : Nat) (kind : PageKind) (upTo : Nat) :
    s.probed (s.readAt k pa n kind upTo).1 := by
  have read := (State.physRead_probe s.me k pa n (some kind)).probed s
  unfold State.readAt
  revert read
  rcases s.physRead s.me k pa n (some kind) with ⟨t, ⟨bs, _ | g⟩ | _ | _⟩ <;> intro read <;> simp only []
  · split <;> exact read
  all_goals exact read

theorem State.checkAt_probed (s : State) (k : AccessKind) (pa : Nat) : s.probed (s.checkAt k pa).1 := by
  have check := (State.physCheck_probe s.me k pa).probed s
  unfold State.checkAt
  revert check
  rcases s.physCheck s.me k pa with ⟨t, ⟨bs, g⟩ | _ | _⟩ <;> exact id

theorem State.fetchLine_probed (s : State) (lvl : Level) (line : Nat) : s.probed (s.fetchLine lvl line).1 := by
  have found := (State.translate_probe s.me s.hart.xctx lvl .fetch line).probed s
  unfold State.fetchLine
  revert found
  rcases s.translate s.me s.hart.xctx lvl .fetch line with ⟨t, f | ⟨pa, kind⟩⟩ <;> intro found <;> simp only []
  · exact found
  · have read := found.trans
      ((State.physRead_probe t.me .fetch pa 64 (if kind = .un then none else some kind)).probed t)
    revert read
    rcases t.physRead t.me .fetch pa 64 (if kind = .un then none else some kind) with ⟨u, ⟨bs, _ | g⟩ | _ | _⟩ <;> exact id

theorem State.targetIllegal_probed (s : State) (lvl : Level) (target : Word) :
    s.probed (s.targetIllegal lvl target).1 := by
  have line := s.fetchLine_probed lvl (pcLine target)
  unfold State.targetIllegal
  split
  · exact s.probed_refl
  · revert line
    rcases s.fetchLine lvl (pcLine target) with ⟨t, (_ | _ | _) | words⟩ <;> intro line
    · exact s.probed_refl
    all_goals exact line

end Sys2Proof.Machine
end
end

section
/-! PROOFS. The commit of a hart with nothing posted, and the end of a scalar instruction. -/

noncomputable section

namespace Sys2Proof.Machine

theorem State.withHart_congr {s : State} {f g : Hart → Hart} (h : f s.hart = g s.hart) : s.withHart f = s.withHart g := by
  simp only [State.withHart, h]

/-! ### A hart with nothing posted -/

theorem Hart.newest_idle {h : Hart} (hv : h.viq = []) (ho : h.orderly) : h.newest + 1 = h.nextSeq := by
  obtain ⟨-, -, -, -, -, ⟨hs, -⟩, -⟩ := ho
  simp [Hart.newest, hv]
  omega

theorem Hart.oldest_idle {h : Hart} (hv : h.viq = []) : h.oldest = h.nextSeq := by simp [Hart.oldest, hv]

theorem Hart.orderly.sbuf_after {h : Hart} (ho : h.orderly) : ∀ e ∈ h.sbuf, e.after < h.nextSeq := by
  obtain ⟨-, -, -, -, -, ⟨-, -, hb, -⟩, -⟩ := ho
  exact hb

theorem Hart.orderly.closing_nil {h : Hart} (ho : h.orderly) (hv : h.viq = []) : h.closing = [] := by
  obtain ⟨-, -, -, -, -, -, hq⟩ := ho
  exact (hq hv).1

theorem Hart.orderly.sbuf_nil {h : Hart} (ho : h.orderly) (hv : h.viq = []) (hs : h.strip = none) : h.sbuf = [] := by
  obtain ⟨-, -, -, -, -, -, hq⟩ := ho
  refine List.eq_nil_iff_forall_not_mem.2 fun e he => ?_
  obtain ⟨t, ht, -⟩ := (hq hv).2 e he
  simp [hs] at ht

/-- A hart whose strips are gone and whose buffer is empty. -/
def Hart.drained (h : Hart) : Hart := { h with strip := none, closing := [], sbuf := [] }

/-- A strip that closes leaves everything else of its hart (R24). -/
theorem Hart.closed_fields (h : Hart) (b : Bool) : (h.closeStrip b).sealStrips =
    { h with strip := none, closing := (h.closeStrip b).sealStrips.closing } := by
  cases hs : h.strip with
  | none =>
    have : h.closeStrip b = h := by simp [Hart.closeStrip, hs]
    rw [this, ← hs]
    rfl
  | some t => simp only [Hart.closeStrip, Hart.sealStrips, hs]

/-! ### Commits of a hart with nothing posted -/

/-- Every buffered store of a hart with no strip is performed, in order. -/
theorem State.settleStores_idle {s : State} (hv : s.hart.viq = []) (hs : s.hart.strip = none)
    (hc : ∀ t ∈ s.hart.closing, t.closedAt < s.hart.nextSeq) (hb : ∀ e ∈ s.hart.sbuf, e.after < s.hart.nextSeq) :
    s.settleStores = (s.hart.sbuf.foldl State.performStore
      (s.withHart fun h => { h with closing := [] })).withHart Hart.drained := by
  have closes : s.hart.closing.filter (fun t => decide (s.hart.oldest ≤ t.closedAt)) = [] := by
    rw [List.filter_eq_nil_iff]
    intro t ht
    have := hc t ht
    simp only [Hart.oldest_idle hv, decide_eq_true_eq]
    omega
  have first : (s.withHart fun h => { h with closing := h.closing.filter fun t => decide (h.oldest ≤ t.closedAt) }) =
      s.withHart fun h => { h with closing := [] } := State.withHart_congr (by rw [closes])
  have visible : ∀ e ∈ s.hart.sbuf, ({ s.hart with closing := [] } : Hart).visible e = true := by
    intro e he
    have := hb e he
    simp [Hart.visible, Hart.oldest, hv, Hart.stripOf, hs, this]
  have invisible : s.hart.sbuf.filter (fun e => !({ s.hart with closing := [] } : Hart).visible e) = [] := by
    rw [List.filter_eq_nil_iff]
    intro e he
    simp [visible e he]
  rw [State.settleStores, first, State.flushStores]
  simp only [State.withHart_hart]
  rw [List.filter_eq_self.2 visible]
  apply State.withHart_congr
  rw [(State.performStores_harts s.hart.sbuf (s.withHart fun h => { h with closing := [] })).1]
  exact (congrArg (fun l => ({ s.hart with closing := [], sbuf := l } : Hart)) invisible).trans (by simp only [Hart.drained, hs, State.withHart_hart])

/-- A commit with nothing posted: the buffered stores are performed and the strip is gone (R24, R238). -/
theorem State.commit_idle {s : State} (hv : s.hart.viq = []) (ho : s.hart.orderly) :
    s.commit = (s.hart.sbuf.foldl State.performStore
      (s.withHart fun h => { h with strip := none, closing := [] })).withHart Hart.drained := by
  have hn := Hart.newest_idle hv ho
  have hc := ho.closing_nil hv
  have closed : ∀ t ∈ (s.hart.closeStrip false).sealStrips.closing, t.closedAt < s.hart.nextSeq := by
    cases hs : s.hart.strip with
    | none => simp [Hart.closeStrip, Hart.sealStrips, hs, hc]
    | some t =>
      simp only [Hart.closeStrip, Hart.sealStrips, hs, hc, List.nil_append, List.map_cons, List.map_nil, List.mem_singleton,
        forall_eq]
      omega
  have fields := s.hart.closed_fields false
  generalize hk : (s.hart.closeStrip false).sealStrips.closing = k at fields closed
  have first : (s.withHart fun h => (h.closeStrip false).sealStrips) =
      s.withHart fun h => { h with strip := none, closing := k } := by
    simp only [State.withHart]
    rw [fields]
  have settled := State.settleStores_idle (s := s.withHart fun h => { h with strip := none, closing := k }) hv rfl closed
    ho.sbuf_after
  rw [State.commit, first, settled]
  rfl

/-- A commit with nothing posted and nothing buffered changes nothing but the strip. -/
theorem State.commit_empty {s : State} (hv : s.hart.viq = []) (ho : s.hart.orderly) (hb : s.hart.sbuf = []) :
    s.commit = s.withHart Hart.drained := by
  rw [State.commit_idle hv ho, hb]
  rfl

theorem State.commit_idle_hart {s : State} (hv : s.hart.viq = []) (ho : s.hart.orderly) :
    s.commit.hart = s.hart.drained := by
  rw [State.commit_idle hv ho, State.withHart_hart, (State.performStores_harts _ _).1]
  rfl

theorem State.commit_others (s : State) : s.commit.others = s.others := (State.commit_closes s).2

/-! ### What a store that is performed keeps -/

/-- The harts, the package's name and its cores are the same, and home memory stays in canonical form. -/
structure State.stored (s t : State) : Prop where
  hart : t.hart = s.hart
  others : t.others = s.others
  pkg : t.pkg = s.pkg
  cores : t.cores = s.cores
  wf : Memory.wf s.store.mem = true → Memory.wf t.store.mem = true

theorem State.stored_refl (s : State) : s.stored s := ⟨rfl, rfl, rfl, rfl, id⟩

theorem State.stored.trans {s t u : State} (h : s.stored t) (g : t.stored u) : s.stored u :=
  ⟨g.hart.trans h.hart, g.others.trans h.others, g.pkg.trans h.pkg, g.cores.trans h.cores, g.wf ∘ h.wf⟩

theorem State.stored_ite {s a b : State} {c : Prop} [Decidable c] (ha : s.stored a) (hb : s.stored b) :
    s.stored (if c then a else b) := by
  split <;> assumption

theorem State.portWrite_stored (s : State) (p : Fin 8) (v : Word) : s.stored (s.portWrite p v) := by
  unfold State.portWrite
  repeat' split
  all_goals exact ⟨rfl, rfl, rfl, rfl, id⟩

theorem State.fdieWrite_stored (s : State) (off : Nat) (v : Word) : s.stored (s.fdieWrite off v) := by
  have power : ∀ req, s.stored (s.powerRequest req) := fun req =>
    State.stored_ite ⟨rfl, rfl, rfl, rfl, id⟩ ⟨rfl, rfl, rfl, rfl, id⟩
  unfold State.fdieWrite
  simp only []
  split
  · exact State.stored_ite s.stored_refl ⟨rfl, rfl, rfl, rfl, id⟩
  · exact ⟨rfl, rfl, rfl, rfl, id⟩
  · exact State.stored_ite s.stored_refl ⟨rfl, rfl, rfl, rfl, id⟩
  · exact State.stored_ite s.stored_refl ⟨rfl, rfl, rfl, rfl, id⟩
  · exact State.stored_ite s.stored_refl ⟨rfl, rfl, rfl, rfl, id⟩
  · exact State.stored_ite s.stored_refl (power _)
  · exact State.stored_ite s.stored_refl (State.stored_ite ⟨rfl, rfl, rfl, rfl, id⟩ s.stored_refl)
  · exact s.stored_refl

theorem State.deviceWrite_stored (s : State) (cls : Fin 5) (la : Nat) (bs : List Byte) : s.stored (s.deviceWrite cls la bs) := by
  have mgmt : ∀ m, s.stored { s with mgmt := m } := fun _ => ⟨rfl, rfl, rfl, rfl, id⟩
  have lpctx : ∀ v, s.stored (s.writeLpctx v) := fun v => by
    unfold State.writeLpctx
    split <;> exact ⟨rfl, rfl, rfl, rfl, id⟩
  unfold State.deviceWrite
  extract_lets o v
  refine State.stored_ite (mgmt _) (State.stored_ite s.stored_refl (State.stored_ite (s.portWrite_stored _ _) ?_))
  refine State.stored_ite ⟨rfl, rfl, rfl, rfl, id⟩ (State.stored_ite (lpctx _) (State.stored_ite (s.fdieWrite_stored _ _) ?_))
  refine State.stored_ite (State.stored_ite ⟨rfl, rfl, rfl, rfl, id⟩ ⟨rfl, rfl, rfl, rfl, id⟩)
    (State.stored_ite ⟨rfl, rfl, rfl, rfl, id⟩ (State.stored_ite ?_ s.stored_refl))
  exact State.stored_ite ⟨rfl, rfl, rfl, rfl, id⟩ (State.stored_ite ⟨rfl, rfl, rfl, rfl, id⟩ s.stored_refl)

theorem State.physWrite_stored (s : State) (r : Requester) (pa : Nat) (bs : List Byte) : s.stored (s.physWrite r pa bs) := by
  unfold State.physWrite
  simp only []
  split
  · split
    · exact s.deviceWrite_stored _ _ _
    · exact ⟨rfl, rfl, rfl, rfl, id⟩
    · exact ⟨rfl, rfl, rfl, rfl, writeBytes_wf _ _⟩
  · split
    · exact s.stored_refl
    · exact ⟨rfl, rfl, rfl, rfl, id⟩

theorem State.performStore_stored (s : State) (e : StoreEntry) : s.stored (s.performStore e) := by
  unfold State.performStore
  split
  · exact ⟨rfl, rfl, rfl, rfl, id⟩
  · exact s.physWrite_stored _ _ _

theorem State.performStores_stored (es : List StoreEntry) (s : State) : s.stored (es.foldl State.performStore s) := by
  induction es generalizing s with
  | nil => exact s.stored_refl
  | cons e rest ih => exact (s.performStore_stored e).trans (ih _)

/-- A commit with nothing posted keeps the package's name, its cores and the form of its memory. -/
theorem State.commit_stored {s : State} (hv : s.hart.viq = []) (ho : s.hart.orderly) :
    s.commit.pkg = s.pkg ∧ s.commit.cores = s.cores ∧
      (Memory.wf s.store.mem = true → Memory.wf s.commit.store.mem = true) := by
  have kept := State.performStores_stored s.hart.sbuf (s.withHart fun h => { h with strip := none, closing := [] })
  rw [State.commit_idle hv ho]
  exact ⟨kept.pkg, kept.cores, kept.wf⟩

theorem State.commit_sameMemory {s : State} (hv : s.hart.viq = []) (ho : s.hart.orderly) (hb : s.hart.sbuf = []) :
    s.sameMemory s.commit := by
  rw [State.commit_empty hv ho hb]
  exact ⟨fun _ => rfl, fun _ => rfl, rfl⟩

theorem State.sameMemory_refl (s : State) : s.sameMemory s := ⟨fun _ => rfl, fun _ => rfl, rfl⟩

theorem State.sameMemory.trans {s t u : State} (h : s.sameMemory t) (g : t.sameMemory u) : s.sameMemory u := by
  obtain ⟨h1, h2, h3⟩ := h
  obtain ⟨g1, g2, g3⟩ := g
  exact ⟨fun a => (g1 a).trans (h1 a), fun a => (g2 a).trans (h2 a), g3.trans h3⟩

/-! ### The end of a scalar instruction -/

theorem Hart.writeX_sameButX (h : Hart) (d : XReg) (v : Word) (hb : h.marks.badRegs = []) :
    h.writeX d v = { h with scalar := { h.scalar with x := (h.writeX d v).scalar.x } } := by
  unfold Hart.writeX
  split
  · rfl
  · simp only [hb, List.filter_nil]
    rw [← hb]

theorem State.advance_sameButScalars (s : State) : s.hart.sameButScalars s.advance.hart := rfl

theorem State.wrote_sameButScalars {s : State} (d : XReg) (v : Word) (hb : s.hart.marks.badRegs = []) :
    s.hart.sameButScalars (s.wrote d v).hart := by
  have recorded : ∀ i, s.hart.record i = { s.hart with hist := (s.hart.record i).hist } := fun i => by
    unfold Hart.record; split <;> rfl
  unfold Hart.sameButScalars State.wrote State.writeX
  generalize hk : s.hart.record (fun n => .x n d (s.hart.readX d)) = k
  have hk' := recorded fun n => .x n d (s.hart.readX d)
  rw [hk] at hk'
  have written := k.writeX_sameButX d v (by rw [hk']; exact hb)
  simp only [State.advance, State.withHart_hart, hk]
  rw [written, hk']
  rfl

theorem State.wrote_hist {s : State} (d : XReg) (v : Word) (hv : s.hart.viq = []) :
    (s.wrote d v).hart.hist = s.hart.hist := by
  simp only [State.wrote, State.writeX, State.advance, State.withHart_hart, Hart.goto, Hart.record, hv, List.isEmpty_nil, if_true,
    Hart.writeX]
  split <;> rfl

end Sys2Proof.Machine
end
end

section
/-! PROOFS. Scalar loads and stores (R99 to R101, R236, R238). -/

noncomputable section

namespace Sys2Proof.Machine

/-! ### Probes and commits of a ready hart -/

theorem State.probed.isReady {s t : State} (h : s.probed t) {cls : Nat} (r : s.isReady cls) : t.isReady cls := by
  obtain ⟨⟨hl, hcap⟩, hv, hb, ho⟩ := r
  have cap : t.capable cls = s.capable cls := by simp only [State.capable, State.core, h.hart, h.cores]
  unfold State.isReady State.mayUse
  rw [h.hart, cap]
  exact ⟨⟨hl, hcap⟩, hv, hb, ho⟩

theorem State.probed.x {s t : State} (h : s.probed t) (r : XReg) : t.x r = s.x r := by
  simp only [State.x, h.hart]

theorem State.aligned_of_mod {va : Word} {n : Nat} (h : va.toNat % n = 0) : aligned va n = true := by
  simp [aligned, h]

theorem State.ordered_hart {s : State} (kind : PageKind) (hv : s.hart.viq = []) (ho : s.hart.orderly) :
    (s.ordered kind).hart = if kind = .so then s.hart.drained else s.hart := by
  unfold State.ordered
  split
  · exact State.commit_idle_hart hv ho
  · rfl

/-- The posted accesses that a load must not overtake: there are none with nothing posted (R93, R230). -/
theorem Hart.accessPosted_idle {h : Hart} (hv : h.viq = []) : h.accessPosted = false := by simp [Hart.accessPosted, hv]
theorem Hart.acquirePosted_idle {h : Hart} (hv : h.viq = []) : h.acquirePosted = false := by simp [Hart.acquirePosted, hv]

/-! ### Loads -/

/-- A load of a ready hart whose address is aligned and translates goes on to its read (R101, R236). -/
theorem State.load_located {s s1 : State} {va : Word} {n pa : Nat} {kind : PageKind} (k : Nat → State → State)
    (hv : s.hart.viq = []) (hb : s.hart.marks.badRegs = []) (ho : s.hart.orderly) (ha : va.toNat % n = 0)
    (hl : s.locate .load va = (s1, .ok (pa, kind))) :
    s.load va n k =
      match (s1.ordered kind).readAt .load pa n kind s.hart.nextSeq with
      | (u, .error f) => s.failing u .load va f
      | (u, .ok bs) => k (leNat bs) u := by
  have clean : s1.hart.marks.badRegs = [] := by
    have := (s.locate_probed .load va).hart
    rw [hl] at this
    rw [this, hb]
  rw [State.load]
  simp only [State.aligned_of_mod ha, Hart.accessPosted_idle hv, Hart.acquirePosted_idle hv, Bool.not_true, Bool.or_self,
    Bool.false_eq_true, if_false, hl, hv, List.isEmpty_nil, and_false, State.committing_clean _ _ clean,
    Hart.newest_idle hv ho]
  rfl

/-- A load that reads writes its register (R99). -/
theorem State.loadOp_reads {s s1 s2 : State} {o : LoadOps} {n pa : Nat} {kind : PageKind} {bs : List Byte} (f : Nat → Word)
    (hr : s.isReady 0) (ha : (s.loadAddr o).toNat % n = 0) (hl : s.locate .load (s.loadAddr o) = (s1, .ok (pa, kind)))
    (hd : (s1.ordered kind).readAt .load pa n kind s.hart.nextSeq = (s2, .ok bs)) :
    s.loadOp o n f = s2.wrote o.d (f (leNat bs)) := by
  obtain ⟨-, hv, hb, ho⟩ := id hr
  rw [State.loadOp, State.scalar_ready _ _ _ hr, State.load_located _ hv hb ho ha hl, hd]

theorem exec_loadForm {i : Instr} {o : LoadOps} {n : Nat} {f : Nat → Word} (h : loadForm i = some (o, n, f)) (s : State) :
    exec i s = .next (s.loadOp o n f) := by
  cases i <;> simp only [loadForm, Option.some.injEq, Prod.mk.injEq, reduceCtorEq] at h
  all_goals
    obtain ⟨rfl, rfl, rfl⟩ := h
    rfl

/-- Settles O2: the load is its read followed by the write of its register. -/
theorem scalarLoads : Obligations.ScalarLoads := by
  unfold Obligations.ScalarLoads
  intro i s s1 s2 o n f pa kind bs hi hr ha hl hd
  obtain ⟨-, hv, hb, ho⟩ := id hr
  have located : s.probed s1 := by simpa only [hl] using s.locate_probed .load (s.x o.base + o.off.signExtend 64)
  have read : (s1.ordered kind).probed s2 := by
    simpa only [hd] using (s1.ordered kind).readAt_probed .load pa n kind s.hart.nextSeq
  have hart : s2.hart = if kind = .so then s.hart.drained else s.hart := by
    rw [read.hart, State.ordered_hart kind (by rw [located.hart]; exact hv) (by rw [located.hart]; exact ho), located.hart]
  have x : ∀ r, s2.x r = s.x r := fun r => by
    simp only [State.x, hart]
    split <;> rfl
  have nextPc : s2.hart.nextPc = s.hart.nextPc := by
    rw [hart]
    split <;> rfl
  have clean : s2.hart.marks.badRegs = [] := by
    rw [hart]
    split <;> exact hb
  have same := (s2.wrote_package o.d (f (leNat bs))).2
  refine ⟨_, (exec_loadForm hi s).trans (congrArg _ (State.loadOp_reads f hr ha hl hd)), fun r => ?_, ?_,
    State.wrote_sameButScalars _ _ clean, s2.wrote_package _ _, read.sameMemory.trans same, fun hk => ?_⟩
  · rw [State.x_wrote, x]
  · rw [State.wrote_pc, nextPc]
  · have kept := State.wrote_sameButScalars o.d (f (leNat bs)) clean
    have unordered : s1.ordered kind = s1 := if_neg hk
    rw [unordered] at read
    rw [if_neg hk] at hart
    refine ⟨(located.trans read).sameMemory.trans same, ?_, ?_⟩
    · rw [kept, ← hart]
    · rw [kept, ← hart]

/-! ### Stores -/

theorem exec_storeForm {i : Instr} {o : StoreOps} {n : Nat} (h : storeForm i = some (o, n)) (s : State) :
    exec i s = .next (s.storeOp o n) := by
  cases i <;> simp only [storeForm, Option.some.injEq, Prod.mk.injEq, reduceCtorEq] at h
  all_goals
    obtain ⟨rfl, rfl⟩ := h
    rfl

/-- A store of a ready hart whose address is aligned, translates and is accepted (R101, R236). -/
theorem State.storeOp_accepted {s s1 s2 : State} {o : StoreOps} {n pa : Nat} {kind : PageKind} (hr : s.isReady 0)
    (ha : (s.storeAddr o).toNat % n = 0) (hl : s.locate .store (s.storeAddr o) = (s1, .ok (pa, kind)))
    (hc : s1.checkAt .store pa = (s2, .ok ())) :
    s.storeOp o n =
      ((s2.ordered kind).writeAt (s.storeAddr o) pa (natBytes n (s.x o.src).toNat) kind).advance := by
  obtain ⟨-, hv, hb, ho⟩ := id hr
  have clean : s1.hart.marks.badRegs = [] := by
    have := (s.locate_probed .store (s.storeAddr o)).hart
    rw [hl] at this
    rw [this, hb]
  have data : s.dataReads (s.storeAddr o) n [o.src] (fun s =>
      s.storeTo (s.storeAddr o) (natBytes n (s.x o.src).toNat) fun s => s.advance) =
        s.storeTo (s.storeAddr o) (natBytes n (s.x o.src).toNat) fun s => s.advance := by
    simp [State.dataReads, Hart.pendingX_nil hv, State.aligned_of_mod ha, Hart.badX, hb]
  rw [State.storeOp, State.scalar_ready _ _ _ hr, data, State.storeTo]
  simp only [natBytes_length, State.aligned_of_mod ha, Hart.acquirePosted_idle hv, Bool.not_true, Bool.false_eq_true, if_false, hl,
    hv, List.isEmpty_nil, and_false, State.committing_clean _ _ clean, hc]
  rfl

theorem scalarStoresBuffered : Sys2Proof.Claims.ScalarStoresBuffered := by
  unfold Sys2Proof.Claims.ScalarStoresBuffered
  intro i s s1 s2 o n pa kind hi hr ha hl hc hk hs hov
  obtain ⟨-, hv, hb, ho⟩ := id hr
  have located : s.probed s1 := by simpa only [hl] using s.locate_probed .store (s.x o.base + o.off.signExtend 64)
  have checked : s1.probed s2 := by simpa only [hc] using s1.checkAt_probed .store pa
  have hart : s2.hart = s.hart := (located.trans checked).hart
  have room : s2.hart.wouldOverflow (natBytes n (s.x o.src).toNat).length = false := by rw [natBytes_length, hart, hov]
  have opened : (s.hart.strip.isSome || !s.hart.viq.isEmpty) = true := by
    rw [Option.isSome_iff_ne_none.2 hs, Bool.true_or]
  have waits : s.storeOp o n = (s2.withHart fun h => { h with sbuf := h.sbuf ++ [⟨pa, natBytes n (s.x o.src).toNat, kind,
      s.hart.newest, s.hart.stripId, s.hart.xctx.ctxid, (s.storeAddr o).toNat⟩] }).advance := by
    rw [State.storeOp_accepted hr ha hl hc, State.ordered, if_neg hk, State.writeAt, if_neg hk, room]
    simp only [Bool.false_eq_true, if_false, State.bufferStore, hart, opened, if_true]
  refine ⟨_, (exec_storeForm hi s).trans (congrArg _ waits), ?_, fun r => ?_, ?_, (located.trans checked).sameMemory, ?_, ?_⟩
  · simp only [State.advance, State.withHart_hart, Hart.goto, hart]
    rfl
  · simp only [State.x, State.advance, State.withHart_hart, hart]
    rfl
  · simp only [State.advance, State.withHart_hart, Hart.goto, hart]
    rfl
  · exact ⟨rfl, State.sameMemory_refl _⟩
  · simp only [State.advance, State.withHart_hart, hart]
    rfl

/-- A store to home memory changes its bytes, and the poison of its granules (R219, R238). -/
theorem State.physWrite_home {s : State} {pa : Nat} (r : Requester) (bs : List Byte) (hh : s.homeMemory pa) :
    s.physWrite r pa bs = { s with store := { s.store with
      mem := writeBytes s.store.mem (paLocal pa) bs
      poison := clearedPoison s.store.poison pa bs.length } } := by
  obtain ⟨hp, hg⟩ := hh
  unfold State.physWrite
  simp only [hp, if_true]
  split
  · exact absurd ‹_› (hg _).1
  · exact absurd ‹_› (hg _).2
  · rfl

/-- A store outside a strip, or to an SO page, is performed at once (R236, R238). -/
theorem State.writeAt_home {s : State} {pa : Nat} {kind : PageKind} (va : Word) (bs : List Byte) (hh : s.homeMemory pa)
    (hk : kind = .so ∨ s.hart.strip = none ∧ s.hart.sbuf = [] ∧ s.hart.viq = []) (hn : bs.length ≤ 8) :
    s.writeAt va pa bs kind = { s with store := { s.store with
      mem := writeBytes s.store.mem (paLocal pa) bs
      poison := clearedPoison s.store.poison pa bs.length } } := by
  unfold State.writeAt
  by_cases so : kind = .so
  · rw [if_pos so, State.physWrite_home _ _ hh]
  · obtain ⟨hs, hb, hv⟩ := hk.resolve_left so
    have room : s.hart.wouldOverflow bs.length = false := by
      simp [Hart.wouldOverflow, hb, bufferedBytes]
      omega
    rw [if_neg so, room]
    simp only [Bool.false_eq_true, if_false, State.bufferStore, hs, hv, Option.isSome_none, List.isEmpty_nil, Bool.not_true,
      Bool.or_self, State.performStore, hh.1, ne_eq, not_true, and_false]
    exact State.physWrite_home _ _ hh

theorem storeForm_bytes {i : Instr} {o : StoreOps} {n : Nat} (h : storeForm i = some (o, n)) : n ≤ 8 := by
  cases i <;> simp only [storeForm, Option.some.injEq, Prod.mk.injEq, reduceCtorEq] at h
  all_goals omega

theorem scalarStoresPerformed : Sys2Proof.Claims.ScalarStoresPerformed := by
  unfold Sys2Proof.Claims.ScalarStoresPerformed
  intro i s s1 s2 o n pa kind hi hr ha hl hc hk hh hw
  obtain ⟨-, hv, hb, ho⟩ := id hr
  have located : s.probed s1 := by simpa only [hl] using s.locate_probed .store (s.x o.base + o.off.signExtend 64)
  have checked : s.probed s2 := located.trans (by simpa only [hc] using s1.checkAt_probed .store pa)
  have hv2 : s2.hart.viq = [] := by rw [checked.hart, hv]
  have ho2 : s2.hart.orderly := by rw [checked.hart]; exact ho
  have hart : (s2.ordered kind).hart = if kind = .so then s.hart.drained else s.hart := by
    rw [State.ordered_hart kind hv2 ho2, checked.hart]
  have pkg : (s2.ordered kind).pkg = s.pkg := by
    unfold State.ordered
    split
    · rw [(State.commit_stored hv2 ho2).1, checked.pkg]
    · exact checked.pkg
  have wf : Memory.wf (s2.ordered kind).store.mem = true := by
    have hw2 : Memory.wf s2.store.mem = true := by rw [checked.mem]; exact hw
    unfold State.ordered
    split
    · exact (State.commit_stored hv2 ho2).2.2 hw2
    · exact hw2
  have home : (s2.ordered kind).homeMemory pa := by
    unfold State.homeMemory
    rw [pkg]
    exact hh
  have performed : kind = .so ∨ (s2.ordered kind).hart.strip = none ∧ (s2.ordered kind).hart.sbuf = [] ∧
      (s2.ordered kind).hart.viq = [] := by
    refine hk.imp_right fun hs => ?_
    rw [hart]
    split
    · exact ⟨rfl, rfl, hv⟩
    · exact ⟨hs, ho.sbuf_nil hv hs, hv⟩
  have length := natBytes_length n (s.x o.src).toNat
  have stores := State.storeOp_accepted hr ha hl hc
  rw [State.writeAt_home _ _ home performed (by rw [length]; exact storeForm_bytes hi)] at stores
  generalize hu : s2.ordered kind = u at *
  refine ⟨_, (exec_storeForm hi s).trans (congrArg _ stores), ?_, ?_, rfl, rfl, fun r => ?_, ?_, ?_, ?_, ?_, rfl⟩
  · have := readBytes_writeBytes u.store.mem (paLocal pa) (natBytes n (s.x o.src).toNat) wf
    rwa [length] at this
  · intro a ha'
    refine (memRead_writeBytes _ _ _ _ wf).trans (if_neg ?_)
    rw [length]
    omega
  all_goals
    simp only [State.x, State.advance, State.withHart_hart, hart]
    split <;> rfl

/-- Settles O3: a store enters the buffer of the open strip, or is performed at once. -/
theorem scalarStores : Obligations.ScalarStores := ⟨scalarStoresBuffered, scalarStoresPerformed⟩

end Sys2Proof.Machine
end
end

section
/-! PROOFS. Traps: what a hart that enters its handler keeps (R371), and the instructions that trap as their own effect
(R56, R110, R111). -/

noncomputable section

namespace Sys2Proof.Machine

/-! ### Commits of any hart -/

/-- Where stores become visible only the closed strips and the buffer of the hart change (R238). -/
theorem State.settleStores_hart (s : State) : ∃ c b, s.settleStores.hart = { s.hart with closing := c, sbuf := b } := by
  unfold State.settleStores
  rw [(State.flushStores_hart _).1]
  exact ⟨_, _, rfl⟩

/-- The hart after a commit: only its strips and its buffer are changed, and its buffer shrinks (R24, R238). -/
theorem State.commit_hart (s : State) : ∃ c b, s.commit.hart = { s.hart with strip := none, closing := c, sbuf := b } := by
  obtain ⟨c, b, hk⟩ := (s.withHart fun h => (h.closeStrip false).sealStrips).settleStores_hart
  rw [State.withHart_hart, s.hart.closed_fields false] at hk
  exact ⟨c, b, hk⟩

theorem State.commit_cores (s : State) : s.commit.cores = s.cores :=
  (State.performStores_stored _ _).cores

/-- A commit with nothing buffered performs no store. -/
theorem State.commit_unbuffered {s : State} (hb : s.hart.sbuf = []) : s.sameMemory s.commit := by
  have still : s.commit.store = s.store := by
    have empty : (s.hart.closeStrip false).sealStrips.sbuf = [] := by
      rw [s.hart.closed_fields false]
      exact hb
    simp only [State.commit, State.settleStores, State.flushStores, State.withHart_hart, empty, List.filter_nil, List.foldl_nil,
      State.withHart_store]
  unfold State.sameMemory
  rw [still]
  exact ⟨fun _ => rfl, fun _ => rfl, rfl⟩

/-! ### The handler is entered -/

theorem State.canTrap.probed {s t : State} (h : s.canTrap t) : s.probed t := by
  obtain ⟨-, ht⟩ := h
  simpa only [ht] using s.targetIllegal_probed .s s.hart.trap.tvec

/-- What a trap that is no double trap leaves (R371). -/
theorem State.enterTrap_finds {s t : State} (tr : Trap) (h : s.canTrap t) :
    (∃ c b, (s.enterTrap tr).hart = { s.hart with strip := none, closing := c, sbuf := b : Hart }.enterHandler tr) ∧
      (s.enterTrap tr).others = s.others ∧ (s.enterTrap tr).cores = s.cores ∧
      (s.hart.sbuf = [] → s.sameMemory (s.enterTrap tr)) := by
  have probed := h.probed
  rw [State.enterTrap_ok tr h]
  obtain ⟨c, b, hk⟩ := t.commit_hart
  refine ⟨⟨c, b, ?_⟩, ?_, ?_, fun hb => ?_⟩
  · rw [State.withHart_hart, hk, probed.hart]
  · rw [State.withHart_others, t.commit_others, probed.others]
  · rw [State.withHart_cores, t.commit_cores, probed.cores]
  · exact probed.sameMemory.trans (State.commit_unbuffered (by rw [probed.hart, hb]))

/-- A trap that is no double trap is taken, with nothing else done (R371). -/
theorem State.enterTrap_traps {s t : State} {tr : Trap} (h : s.canTrap t) (hr : tr.vresume = none) :
    s.trapsTo (s.enterTrap tr) tr.cause tr.tval tr.pc ∧ s.intact (s.enterTrap tr) := by
  obtain ⟨⟨c, b, hk⟩, ho, -, hm⟩ := State.enterTrap_finds tr h
  refine ⟨?_, ?_⟩
  · unfold State.trapsTo State.sameX State.x
    rw [hk, ho]
    exact ⟨rfl, rfl, rfl, rfl, rfl, rfl, rfl, rfl, rfl, fun _ => rfl, rfl, rfl, rfl, rfl, rfl⟩
  · unfold State.intact
    rw [hk]
    exact ⟨by simp [Hart.enterHandler, hr], rfl, rfl, rfl, rfl, rfl, hm⟩

/-- SUB and XLINFO of a trap that is taken (R349, R375). -/
theorem State.enterTrap_access {s t : State} (tr : Trap) (h : s.canTrap t) :
    (s.enterTrap tr).hart.trap.sub = BitVec.ofNat 4 tr.sub ∧
      ∀ n, tr.xlinfo = some n → (s.enterTrap tr).hart.trap.xlinfo = BitVec.ofNat 12 n := by
  obtain ⟨⟨c, b, hk⟩, -⟩ := State.enterTrap_finds tr h
  rw [hk]
  refine ⟨rfl, fun n hn => ?_⟩
  simp [Hart.enterHandler, TrapCsrs.take, hn]

/-- A trap of a hart with nothing posted leaves no strip and no buffered store (R371). -/
theorem State.enterTrap_drains {s t : State} (tr : Trap) (h : s.canTrap t) (hv : s.hart.viq = []) (ho : s.hart.orderly) :
    (s.enterTrap tr).hart.strip = none ∧ (s.enterTrap tr).hart.sbuf = [] := by
  have probed := h.probed
  have idle : t.commit.hart = t.hart.drained := State.commit_idle_hart (by rw [probed.hart, hv]) (by rw [probed.hart]; exact ho)
  rw [State.enterTrap_ok tr h, State.withHart_hart, idle]
  exact ⟨rfl, rfl⟩

/-- A trap of a state that a look left is a trap of the state before it. -/
theorem State.probed.trapsTo {s u t : State} (h : s.probed u) {c : Nat} {v p : Word} (g : u.trapsTo t c v p) : s.trapsTo t c v p := by
  unfold State.trapsTo State.sameX State.x at g ⊢
  rwa [h.hart, h.others] at g

theorem State.probed.intact {s u t : State} (h : s.probed u) (g : u.intact t) : s.intact t := by
  unfold State.intact at g ⊢
  rw [h.hart] at g
  obtain ⟨h1, h2, h3, h4, h5, h6, h7⟩ := g
  exact ⟨h1, h2, h3, h4, h5, h6, fun hb => h.sameMemory.trans (h7 hb)⟩

/-! ### The check of a target under changes of the hart -/

/-- A fetch of the current hart does not look at its registers, its buffer or its vector state. -/
theorem State.fetchLine_withHart {s : State} {f : Hart → Hart} (hx : (f s.hart).xctx = s.hart.xctx)
    (hi : (f s.hart).ident = s.hart.ident) (hw : (f s.hart).marks.wait = s.hart.marks.wait) (lvl : Level) (line : Nat) :
    (s.withHart f).fetchLine lvl line = ((s.fetchLine lvl line).1.withHart f, (s.fetchLine lvl line).2) := by
  have me : ∀ {u : State}, u.hart = s.hart → (u.withHart f).me = u.me := fun {u} hu => by
    simp only [State.me, State.withHart_hart, State.withHart_pkg, Hart.core, hu, hx, hi]
  have found := (State.translate_probe s.me s.hart.xctx lvl .fetch line).withHart s f
  have same := ((State.translate_probe s.me s.hart.xctx lvl .fetch line).probed s).hart
  unfold State.fetchLine
  rw [me rfl, State.withHart_hart, hx, found]
  revert same
  rcases s.translate s.me s.hart.xctx lvl .fetch line with ⟨t, e | ⟨pa, kind⟩⟩
  · intro _; rfl
  · intro same
    have read := State.physRead_probe t.me .fetch pa 64 (if kind = .un then none else some kind)
    have kept := (read.probed t).hart
    simp only [me same, read.withHart]
    revert kept
    rcases t.physRead t.me .fetch pa 64 (if kind = .un then none else some kind) with ⟨u, ⟨bs, _ | g⟩ | _ | _⟩ <;> intro kept
    case noPath =>
      have hart : u.hart = s.hart := kept.trans same
      simp only [State.withHart_hart, hart, hw]
    all_goals rfl

theorem State.targetIllegal_withHart {s : State} {f : Hart → Hart} (hx : (f s.hart).xctx = s.hart.xctx)
    (hi : (f s.hart).ident = s.hart.ident) (hw : (f s.hart).marks.wait = s.hart.marks.wait) (lvl : Level) (target : Word) :
    (s.withHart f).targetIllegal lvl target =
      ((s.targetIllegal lvl target).1.withHart f, (s.targetIllegal lvl target).2) := by
  unfold State.targetIllegal
  rw [State.fetchLine_withHart hx hi hw]
  split
  · rfl
  · rcases s.fetchLine lvl (pcLine target) with ⟨t, (_ | _ | _) | words⟩ <;> rfl

/-- A change of the hart that leaves what a fetch looks at leaves its handler where it is. -/
theorem State.canTrap.withHart {s t : State} (h : s.canTrap t) {f : Hart → Hart} (hx : (f s.hart).xctx = s.hart.xctx)
    (hi : (f s.hart).ident = s.hart.ident) (hw : (f s.hart).marks.wait = s.hart.marks.wait)
    (ht : (f s.hart).trap = s.hart.trap) : (s.withHart f).canTrap (t.withHart f) := by
  obtain ⟨hin, htg⟩ := h
  unfold State.canTrap
  rw [State.targetIllegal_withHart hx hi hw, State.withHart_hart, ht, htg]
  exact ⟨hin, rfl⟩

/-! ### BRK, TRAP and illegal instructions -/

/-- One more instruction counted. -/
def Hart.counted (h : Hart) : Hart := { h with scalar := { h.scalar with instret := h.scalar.instret + 1 } }

/-- What an instruction of a ready hart does that traps as its own effect, as one trap; `f` counts it where it has completed. -/
theorem exec_ownTrap {i : Instr} {s : State} {cause : Nat} {tval tpc : Word} (hi : ownTrap s i = some (cause, tval, tpc))
    (hr : s.isReady 0) :
    ∃ f : Hart → Hart, (f = id ∨ f = Hart.counted) ∧ (cause == 9) = false ∧
      exec i s = .next ((s.withHart f).enterTrap ⟨cause, tval, 0, tpc, none, none⟩) := by
  obtain ⟨-, hv, -, -⟩ := id hr
  have after : ∀ c v, s.scalar 0 [] [] (fun s => s.trapAfter c v) =
      (s.withHart Hart.counted).enterTrap ⟨c, v, 0, s.hart.nextPc, none, none⟩ := fun c v => by
    rw [State.scalar_ready _ _ _ hr, State.trapAfter, hv]
    rfl
  cases i <;> simp only [ownTrap, Option.some.injEq, Prod.mk.injEq, reduceCtorEq] at hi
  all_goals obtain ⟨rfl, rfl, rfl⟩ := hi
  case brk => exact ⟨_, .inr rfl, by decide, congrArg _ (after 0x10 0)⟩
  case trap code => exact ⟨_, .inr rfl, by decide, congrArg _ (after 0x0F _)⟩
  case illegalInstruction r w =>
    have word : w.toNat % 65536 = w.toNat := Nat.mod_eq_of_lt w.isLt
    refine ⟨_, .inl rfl, by decide, congrArg Host.Outcome.next (?_ : s.illegal r w.toNat = _)⟩
    rw [State.illegal, State.trap, State.takeTrap_idle _ hv, illegalTval, word]
    rfl

/-- Settles O8: each of the three is one trap, taken once nothing is posted. -/
theorem trapEntry : Obligations.TrapEntry := by
  unfold Obligations.TrapEntry
  intro i s s1 cause tval tpc hi hr hc
  obtain ⟨-, hv, -, ho⟩ := id hr
  obtain ⟨f, hf, h9, he⟩ := exec_ownTrap hi hr
  have same : ∃ n, f s.hart = { s.hart with scalar := { s.hart.scalar with instret := n } } := by
    rcases hf with rfl | rfl <;> exact ⟨_, rfl⟩
  obtain ⟨n, hn⟩ := same
  have trapped : (s.withHart f).canTrap (s1.withHart f) := hc.withHart (by rw [hn]) (by rw [hn]) (by rw [hn]) (by rw [hn])
  obtain ⟨takes, kept⟩ := State.enterTrap_traps (tr := ⟨cause, tval, 0, tpc, none, none⟩) trapped rfl
  obtain ⟨strip, sbuf⟩ := State.enterTrap_drains ⟨cause, tval, 0, tpc, none, none⟩ trapped
    (by rw [State.withHart_hart, hn]; exact hv) (by rw [State.withHart_hart, hn]; exact ho)
  unfold State.trapsTo State.sameX State.x at takes
  unfold State.intact at kept
  simp only [State.withHart_hart, hn] at takes kept
  obtain ⟨h1, h2, h3, h4, h5, h6, h7, h8, h9', h10, h11, -, h13, h14, h15⟩ := takes
  obtain ⟨k1, k2, k3, k4, -, -, k7⟩ := kept
  exact ⟨_, he, h1, h2, h3, h4, h5, h6.trans h9, h7, h8, h9', strip, sbuf, h10, h11, k1, k2, k3, h13, h14, k4, h15, k7⟩

end Sys2Proof.Machine
end
end

section
/-! PROOFS. NOP, YIELD and HALT (R110, R332). -/

noncomputable section

namespace Sys2Proof.Machine

/-! ### YIELD -/

theorem exec_yield {s : State} (hr : s.isReady 0) (hq : s.hart.ctl.preqReq = false) :
    exec .yield s = .next s.commit.advance := by
  obtain ⟨-, hv, -, ho⟩ := id hr
  have unasked : s.commit.hart.ctl.preqReq = false := by
    rw [State.commit_idle_hart hv ho]
    exact hq
  refine congrArg Host.Outcome.next ((State.scalarAlone_ready _ _ _ hr).trans ?_)
  simp only [unasked, Bool.false_eq_true, if_false]

theorem exec_yield_asked {s : State} (hr : s.isReady 0) (hq : s.hart.ctl.preqReq = true) (hl : s.hart.ctl.livetab = 0) :
    exec .yield s = .next (s.commit.advance.beginSave (BitVec.allOnes 64)) := by
  obtain ⟨-, hv, -, ho⟩ := id hr
  have hart := State.commit_idle_hart hv ho
  have asked : s.commit.hart.ctl.preqReq = true := by
    rw [hart]
    exact hq
  have all : s.commit.hart.ctl.livetab = 0 := by
    rw [hart]
    exact hl
  refine congrArg Host.Outcome.next ((State.scalarAlone_ready _ _ _ hr).trans ?_)
  simp only [asked, if_true, State.liveMask, all]

/-! ### HALT -/

theorem takeFailure_none {cs : List CopyCtx} (h : ∀ c ∈ cs, c.copy.failure = none) : takeFailure cs = none := by
  induction cs with
  | nil => rfl
  | cons c rest ih =>
    have hc : c.copy.failure = none := h c (by simp)
    simp only [takeFailure, hc, ih fun d hd => h d (by simp [hd])]

/-- A hart that is not removed and whose copies have landed ends (R110). -/
theorem exec_halt {s : State} (hr : s.isReady 0) (hm : s.hart.marks.removed = false)
    (hc : ∀ c ∈ s.hart.copies, c.copy.landed = true ∧ c.copy.failure = none) :
    exec .halt s = .next s.commit.advance.endHart := by
  obtain ⟨-, hv, -, ho⟩ := id hr
  have hart := State.commit_idle_hart hv ho
  have kept : s.commit.hart.marks.removed = false := by
    rw [hart]
    exact hm
  have copies : s.commit.hart.copies = s.hart.copies := by
    rw [hart]
    rfl
  have landed : (s.hart.copies.all fun c => c.copy.landed) = true := List.all_eq_true.2 fun c h => (hc c h).1
  refine congrArg Host.Outcome.next ((State.scalarAlone_ready _ _ _ hr).trans ?_)
  simp only [kept, Bool.false_eq_true, if_false, State.copyClassScalar, copies, takeFailure_none fun c h => (hc c h).2, landed,
    if_true]

/-- Stores sent to their home change no hart (R237). -/
theorem State.sendPending_harts (key : Nat × Nat × Nat) (r : Requester) (ps kept : List ((Nat × Nat × Nat) × Nat × List Byte))
    (s : State) :
    (State.sendPending key r ps kept s).hart = s.hart ∧ (State.sendPending key r ps kept s).others = s.others := by
  induction ps generalizing kept s with
  | nil => exact ⟨rfl, rfl⟩
  | cons p rest ih =>
    rw [State.sendPending]
    split
    · have sent := s.physWrite_hart r p.2.1 p.2.2
      rw [(ih _ _).1, (ih _ _).2]
      exact sent
    · exact ih _ s

theorem State.settleSaved_harts (s : State) (seq : Nat) :
    (s.settleSaved seq).hart = s.hart ∧ (s.settleSaved seq).others = s.others := by
  unfold State.settleSaved
  split <;> exact ⟨rfl, rfl⟩

/-- The hart that ends is halted and in no wait; nothing else of it changes, and no other hart (R110). -/
theorem State.endHart_harts (s : State) :
    s.endHart.hart = { s.hart with marks := { s.hart.marks with halted := true, wait := .none } } ∧
      s.endHart.others = s.others := by
  have left : (s.leaveUnsealed s.hart).hart = s.hart ∧ (s.leaveUnsealed s.hart).others = s.others := by
    unfold State.leaveUnsealed
    split <;> exact ⟨rfl, rfl⟩
  have sent : ((s.leaveUnsealed s.hart).sendUnordered s.hart).hart = s.hart ∧
      ((s.leaveUnsealed s.hart).sendUnordered s.hart).others = s.others := by
    have := State.sendPending_harts s.hart.ident.key ⟨0, 0, (s.leaveUnsealed s.hart).pkg, s.hart.core⟩
      (s.leaveUnsealed s.hart).store.far.pendingUn [] (s.leaveUnsealed s.hart)
    exact ⟨this.1.trans left.1, this.2.trans left.2⟩
  generalize hu : (s.leaveUnsealed s.hart).sendUnordered s.hart = u at sent
  have counted : ∀ f, (if u.hart.ident.stage = 0 then u.updateLaunch u.hart.ident.seq f else u).hart = s.hart ∧
      (if u.hart.ident.stage = 0 then u.updateLaunch u.hart.ident.seq f else u).others = s.others := fun f => by
    split <;> exact sent
  simp only [State.endHart, hu]
  rw [(State.settleSaved_harts _ _).1, (State.settleSaved_harts _ _).2]
  rw [State.withHart_hart, State.withHart_others, (counted _).1, (counted _).2]
  exact ⟨rfl, rfl⟩

/-! ### The obligation -/

theorem systemInstructions_complete : Sys2Proof.Claims.SystemInstructions := by
  unfold Sys2Proof.Claims.SystemInstructions
  intro s hr
  obtain ⟨-, hv, -, ho⟩ := id hr
  have hart := State.commit_idle_hart hv ho
  refine ⟨?_, fun hq => ?_, fun hm hc => ?_⟩
  · exact ⟨s.advance, congrArg Host.Outcome.next (State.scalar_ready _ _ _ hr), rfl, fun _ => rfl, s.advance_sameButScalars,
      rfl, s.sameMemory_refl⟩
  · refine ⟨_, exec_yield hr hq, ?_, fun r => ?_, ?_, ?_, ?_, ?_, ?_, fun hb => State.commit_unbuffered (s := s) hb⟩
    all_goals
      simp only [State.x, State.advance, State.withHart_hart, hart]
      rfl
  · refine ⟨_, exec_halt hr hm hc, ?_, ?_, ?_, fun r => ?_, ?_⟩
    case refine_1 => rw [(State.endHart_harts _).1]
    case refine_5 => rw [(State.endHart_harts _).2]; exact s.commit_others
    all_goals
      simp only [State.x, (State.endHart_harts _).1, State.advance, State.withHart_hart, hart]
      rfl

theorem yieldSaves : Sys2Proof.Claims.YieldSaves := by
  unfold Sys2Proof.Claims.YieldSaves
  intro s hr hq hl
  obtain ⟨-, hv, -, ho⟩ := id hr
  refine ⟨_, exec_yield_asked hr hq hl, rfl, rfl, ?_, ?_, ?_, fun r => ?_⟩
  all_goals
    simp only [State.x, State.beginSave, State.advance, State.withHart_hart, State.commit_idle_hart hv ho]
    rfl

/-- Settles O11: NOP only continues, and YIELD and HALT first commit the strip. -/
theorem systemInstructions : Obligations.SystemInstructions := ⟨systemInstructions_complete, yieldSaves⟩

end Sys2Proof.Machine
end
end

section
/-! PROOFS. CSR instructions (R112, R113): what a write leaves of the scalar registers, and the CSRs that read back what was
written. -/

noncomputable section

namespace Sys2Proof.Machine

/-! ### What a launch's removal leaves of the current hart -/

/-- The scalar side of the current hart is the same. -/
def State.sameScalar (s t : State) : Prop := t.hart.scalar = s.hart.scalar

theorem State.sameScalar.x {s t : State} (h : s.sameScalar t) (r : XReg) : t.x r = s.x r := by
  unfold State.sameScalar at h
  simp only [State.x, Hart.readX, h]

theorem State.mapContext_scalar (s : State) (ctx : BitVec 16) {f : Hart → Hart} (hf : ∀ h, (f h).scalar = h.scalar) :
    s.sameScalar (s.mapContext ctx f) := by
  unfold State.sameScalar State.mapContext State.mapHarts
  simp only []
  split
  · exact hf _
  · rfl

theorem State.mapParty_scalar (s : State) (ctx : BitVec 16) (n : Nat) (owner : Option Nat) {f : Hart → Hart}
    (hf : ∀ h, (f h).scalar = h.scalar) : s.sameScalar (s.mapParty ctx n owner f) :=
  s.mapContext_scalar ctx fun h => by
    split
    · exact hf h
    · rfl

theorem State.abortRound_scalar (s : State) (r : Round) : s.sameScalar (s.abortRound r) := by
  have marks : ∀ (id : BitVec 16) (b : Nat) (h : Hart), (h.setXstatus id b).scalar = h.scalar := fun id b h => by
    unfold Hart.setXstatus
    split <;> rfl
  unfold State.abortRound
  split
  · rfl
  · refine List.foldlRecOn (motive := fun t => s.sameScalar t) _ _ ?_ fun t ht p _ => ?_
    · exact State.mapContext_scalar _ _ fun h => rfl
    · exact Eq.trans (State.mapParty_scalar _ _ _ _ (marks _ _)) ht

theorem State.abortLaunchRounds_scalar (s : State) (seq : Nat) : s.sameScalar (s.abortLaunchRounds seq) := by
  unfold State.abortLaunchRounds
  refine List.foldlRecOn (motive := fun t => s.sameScalar t) _ _ rfl fun t ht h _ => ?_
  unfold State.abortRoundsOf
  refine List.foldlRecOn (motive := fun u => s.sameScalar u) _ _ ht fun u hu r _ => ?_
  split
  · exact Eq.trans (u.abortRound_scalar r) hu
  · exact hu

theorem State.settleStopped_scalar (s : State) : s.sameScalar s.settleStopped := by
  unfold State.settleStopped
  split
  · obtain ⟨c, b, h⟩ := s.settleStores_hart
    unfold State.sameScalar
    rw [h]
  · rfl

theorem State.settleOthers_hart (n : Nat) (s : State) : (State.settleOthers n s).hart = s.hart := by
  induction n generalizing s with
  | zero => rfl
  | succ n ih =>
    rw [State.settleOthers, ih]
    unfold State.settleNext
    split <;> rfl

theorem Hart.removeMark_scalar (writer : Option HartId) (cause : BitVec 8) (h : Hart) :
    (h.removeMark writer cause).scalar = h.scalar := by
  unfold Hart.removeMark
  simp only []
  split
  · rfl
  split <;> rfl

/-- The removal of a launch leaves the scalar side of the hart that began it (R388, R389). -/
theorem State.beginRemoval_scalar (s : State) (seq : Nat) (cause : BitVec 8) (begun writer : Option HartId) :
    s.sameScalar (s.beginRemoval seq cause begun writer) := by
  unfold State.beginRemoval
  extract_lets c u v w
  have ended : u.sameScalar v := u.abortLaunchRounds_scalar seq
  split
  · rfl
  · unfold State.settleAll State.sameScalar
    rw [State.settleOthers_hart]
    refine Eq.trans (State.settleStopped_scalar _) (Eq.trans ?_ ended)
    simp only [State.mapHarts]
    split
    · exact Hart.removeMark_scalar _ _ _
    · rfl

/-! ### What a CSR write leaves -/

theorem Hart.orderly.drained {h : Hart} (ho : h.orderly) : h.drained.orderly := by
  obtain ⟨h1, h2, h3, -, h5, ⟨h6, h7, -, -⟩, -⟩ := ho
  exact ⟨h1, h2, h3, by simp [Hart.drained], h5, ⟨h6, h7, by simp [Hart.drained], by simp [Hart.drained]⟩,
    fun _ => ⟨rfl, by simp [Hart.drained]⟩⟩

theorem Hart.writeVector_x (h : Hart) (lw n : Nat) (v : Word) : (h.writeVector lw n v).scalar.x = h.scalar.x := by
  unfold Hart.writeVector
  split <;> rfl

theorem Hart.writeTrap_fields (h : Hart) (n : Nat) (v : Word) :
    (h.writeTrap n v).scalar = h.scalar ∧ (h.writeTrap n v).strip = h.strip ∧ (h.writeTrap n v).sbuf = h.sbuf := by
  unfold Hart.writeTrap
  split <;> exact ⟨rfl, rfl, rfl⟩

theorem Hart.writeControl_fields (h : Hart) (n : Nat) (v : Word) :
    (h.writeControl n v).scalar = h.scalar ∧ (h.writeControl n v).strip = h.strip ∧ (h.writeControl n v).sbuf = h.sbuf := by
  unfold Hart.writeControl
  split <;> exact ⟨rfl, rfl, rfl⟩

/-- Each of the writes from 0x100 on that is no write of VLGCAP (R113, R384): the strip and the buffer are gone, and the scalar
side is the same. -/
theorem State.csrWrite_drains {s : State} {n : Fin 4096} (v : Word) (hv : s.hart.viq = []) (ho : s.hart.orderly)
    (hn : 0x100 ≤ n.val) (h5 : n.val ≠ 0x105) :
    (s.csrWrite n v).hart.scalar = s.hart.scalar ∧ (s.csrWrite n v).hart.strip = none ∧ (s.csrWrite n v).hart.sbuf = [] := by
  have hart := State.commit_idle_hart hv ho
  unfold State.csrWrite
  rw [if_neg (by omega)]
  simp only [if_neg h5]
  split
  · have again := State.commit_idle_hart (s := s.commit) (by rw [hart]; exact hv) (by rw [hart]; exact ho.drained)
    have inv : ∀ k c p, (s.commit.tlbinv k c p).hart = s.hart.drained.drained := fun k c p =>
      Eq.trans (b := s.commit.commit.hart) rfl (again.trans (by rw [hart]))
    rw [inv]
    exact ⟨rfl, rfl, rfl⟩
  split
  · obtain ⟨h1, h2, h3⟩ := s.commit.hart.writeTrap_fields n.val v
    rw [State.withHart_hart, h1, h2, h3, hart]
    exact ⟨rfl, rfl, rfl⟩
  · obtain ⟨h1, h2, h3⟩ := s.commit.hart.writeControl_fields n.val v
    rw [State.withHart_hart, h1, h2, h3, hart]
    exact ⟨rfl, rfl, rfl⟩

/-- No CSR write changes a scalar register. -/
theorem State.csrWrite_x {s : State} (n : Fin 4096) (v : Word) (hv : s.hart.viq = []) (ho : s.hart.orderly) (r : XReg) :
    (s.csrWrite n v).x r = s.x r := by
  have same : ∀ t : State, t.hart.scalar.x = s.hart.scalar.x → t.x r = s.x r := fun t h => by
    simp only [State.x, Hart.readX, h]
  by_cases hn : n.val < 0x100
  · have recorded : (s.recordCsr n).hart.scalar = s.hart.scalar := by
      unfold State.recordCsr Hart.record
      simp only [State.withHart_hart]
      split <;> rfl
    apply same
    rw [State.csrWrite, if_pos hn, State.withHart_hart, Hart.writeVector_x, recorded]
  · by_cases h5 : n.val = 0x105
    · have removes : s.commit.sameScalar (s.commit.vlgcapWrite v) := by
        unfold State.vlgcapWrite
        simp only []
        split
        · rfl
        · exact State.beginRemoval_scalar _ _ _ _ _
      apply same
      rw [State.csrWrite, if_neg hn]
      simp only [if_pos h5]
      rw [removes, State.commit_idle_hart hv ho]
      rfl
    · exact same _ (by rw [(State.csrWrite_drains v hv ho (by omega) h5).1])

/-! ### CSR instructions -/

theorem State.csrOp_ready {s : State} {o : CsrOps} {always : Bool} {f : Word → Word → Word} (hr : s.isReady 0)
    (hp : csrPermitted s.hart.scalar.level o.csr.val (always || o.a != 0) = true)
    (hw : (always || o.a != 0) = true →
      csrReserved o.csr.val (f (s.csrRead o.csr.val) (s.x o.a)) = false ∧
        s.csrShape o.csr.val (f (s.csrRead o.csr.val) (s.x o.a)) = none)
    (ht : o.csr.val = 0x402 → s.tlbHeld (some s.hart.ident.id) (invFields (f (s.csrRead o.csr.val) (s.x o.a))).1
      (invFields (f (s.csrRead o.csr.val) (s.x o.a))).2.1 (invFields (f (s.csrRead o.csr.val) (s.x o.a))).2.2 = false) :
    s.csrOp o always f =
      (if (always || o.a != 0) = true then s.csrWrite o.csr (f (s.csrRead o.csr.val) (s.x o.a)) else s).wrote o.d
        (s.csrRead o.csr.val) := by
  obtain ⟨-, hv, hb, -⟩ := id hr
  have done : ∀ (w : Bool) (old new : Word), s.csrDone o w old new = (if w then s.csrWrite o.csr new else s).wrote o.d old :=
    fun w old new => by rw [State.csrDone, State.scalar_ready _ _ _ hr, State.drained_clean _ hb]
  have good : s.hart.badX o.a = false := by simp [Hart.badX, hb]
  unfold State.csrOp
  extract_lets n writes old new
  have reserved : (writes && csrReserved n new) = false := by
    cases hc : writes with
    | false => rfl
    | true => exact (hw hc).1
  have shape : (if writes = true then s.csrShape n new else none) = none := by
    split
    · exact (hw ‹_›).2
    · rfl
  have free : ¬(n = 0x402 ∧ writes = true ∧
      s.tlbHeld (some s.hart.ident.id) (invFields new).1 (invFields new).2.1 (invFields new).2.2 = true) := by
    rintro ⟨h1, -, h3⟩
    exact absurd h3 (by rw [ht h1]; decide)
  have permitted : csrPermitted s.hart.scalar.level n writes = true := hp
  simp only [permitted, Hart.pendingX_nil hv, hv, good, reserved, shape, done, Bool.not_true, Bool.false_eq_true, if_false,
    Bool.or_self, List.isEmpty_nil, Bool.and_false, Bool.and_eq_true, decide_eq_true_eq, and_assoc, free]
  rfl

theorem exec_csrForm {i : Instr} {s : State} {o : CsrOps} {w : Bool} {new : Word} (hi : csrForm s i = some (o, w, new)) :
    ∃ always f, exec i s = .next (s.csrOp o always f) ∧ w = (always || o.a != 0) ∧ new = f (s.csrRead o.csr.val) (s.x o.a) := by
  cases i <;> simp only [csrForm, Option.some.injEq, Prod.mk.injEq, reduceCtorEq] at hi
  all_goals obtain ⟨rfl, rfl, rfl⟩ := hi
  case csrrw => exact ⟨true, fun _ v => v, rfl, rfl, rfl⟩
  case csrrs => exact ⟨false, fun old v => old ||| v, rfl, rfl, rfl⟩
  case csrrc => exact ⟨false, fun old v => old &&& ~~~v, rfl, rfl, rfl⟩

theorem State.wrote_buffers (s : State) (d : XReg) (v : Word) :
    (s.wrote d v).hart.strip = s.hart.strip ∧ (s.wrote d v).hart.sbuf = s.hart.sbuf := by
  unfold State.wrote State.writeX Hart.writeX Hart.record
  simp only [State.advance, State.withHart_hart, Hart.goto]
  split <;> split <;> exact ⟨rfl, rfl⟩

theorem csrInstructions_complete : Sys2Proof.Claims.CsrInstructions := by
  unfold Sys2Proof.Claims.CsrInstructions
  intro i s o writes new hi hr hp ht hw
  obtain ⟨-, hv, hb, ho⟩ := id hr
  obtain ⟨always, f, he, rfl, rfl⟩ := exec_csrForm hi
  rw [State.csrOp_ready hr hp hw ht] at he
  refine ⟨fun hn => ?_, fun hy => ?_⟩
  · rw [hn, if_neg (by decide)] at he
    exact ⟨_, he, fun r => s.x_wrote _ r _, s.wrote_pc _ _, State.wrote_sameButScalars _ _ hb, s.wrote_package _ _⟩
  · rw [hy, if_pos rfl] at he
    refine ⟨_, he, rfl, fun hd => ?_, fun r hne => ?_, fun h1 h5 => ?_⟩
    · rw [State.x_wrote, if_pos ⟨rfl, hd⟩]
    · rw [State.x_wrote, if_neg (fun h => hne h.1), State.csrWrite_x _ _ hv ho]
    · obtain ⟨-, strip, sbuf⟩ := State.csrWrite_drains (n := o.csr) (f (s.csrRead o.csr.val) (s.x o.a)) hv ho h1 h5
      rw [(State.wrote_buffers _ _ _).1, (State.wrote_buffers _ _ _).2]
      exact ⟨strip, sbuf⟩

/-! ### Reading back -/

/-- The CSRs that are plain fields of their hart, which S may write. -/
def plainCsrs : List Nat := [0x100, 0x111, 0x203, 0x300, 0x301, 0x302, 0x303, 0x304, 0x400, 0x401, 0x403]

/-- What a plain CSR of a hart reads (R114). -/
def Hart.plainCsr (h : Hart) (n : Nat) : Nat :=
  match n with
  | 0x100 => h.ctl.schkmask.toNat
  | 0x111 => h.ctl.rchkskip.toNat
  | 0x203 => h.ctl.livetab.toNat
  | 0x300 => h.trap.sub.toNat * 256 + h.trap.cause.toNat
  | 0x301 => h.trap.tpc.toNat
  | 0x302 => h.trap.tval.toNat
  | 0x303 => h.trap.tvec.toNat
  | 0x304 => h.trap.status
  | 0x400 => h.xctx.ctxid.toNat
  | 0x401 => h.xctx.ptroot.toNat
  | 0x403 => h.xctx.strbase.toNat
  | _ => 0

/-- A plain CSR of a hart written. -/
def Hart.writePlain (h : Hart) (n : Nat) (v : Word) : Hart := if 0x300 ≤ n then h.writeTrap n v else h.writeControl n v

theorem mem_plainCsrs {n : Nat} (h : n ∈ plainCsrs) : n = 0x100 ∨ n = 0x111 ∨ n = 0x203 ∨ n = 0x300 ∨ n = 0x301 ∨ n = 0x302 ∨
    n = 0x303 ∨ n = 0x304 ∨ n = 0x400 ∨ n = 0x401 ∨ n = 0x403 := by
  simpa [plainCsrs] using h

theorem State.csrNat_plain {n : Nat} (h : n ∈ plainCsrs) (s : State) : s.csrNat n = s.hart.plainCsr n := by
  rcases mem_plainCsrs h with rfl | rfl | rfl | rfl | rfl | rfl | rfl | rfl | rfl | rfl | rfl <;> rfl

theorem State.csrRead_plain {n : Nat} (h : n ∈ plainCsrs) (s : State) : s.csrRead n = BitVec.ofNat 64 (s.hart.plainCsr n) := by
  rw [State.csrRead, State.csrNat_plain h]

theorem Hart.plainCsr_congr {h k : Hart} (hc : k.ctl = h.ctl) (ht : k.trap = h.trap) (hx : k.xctx = h.xctx) (n : Nat) :
    k.plainCsr n = h.plainCsr n := by
  unfold Hart.plainCsr
  rw [hc, ht, hx]

/-- A plain CSR written leaves every other one. -/
theorem Hart.plainCsr_writePlain_of_ne {n m : Nat} (hn : n ∈ plainCsrs) (hm : m ∈ plainCsrs) (hne : m ≠ n) (h : Hart) (v : Word) :
    (h.writePlain n v).plainCsr m = h.plainCsr m := by
  revert hne
  rcases mem_plainCsrs hn with rfl | rfl | rfl | rfl | rfl | rfl | rfl | rfl | rfl | rfl | rfl <;>
    rcases mem_plainCsrs hm with rfl | rfl | rfl | rfl | rfl | rfl | rfl | rfl | rfl | rfl | rfl <;>
    simp [Hart.writePlain, Hart.plainCsr, Hart.writeTrap, Hart.writeControl, TrapCsrs.status]

/-- A value without reserved bits is at most the mask of the bits that are not reserved. -/
theorem le_csrFields {n k : Nat} {v : Word} (h : csrReserved n v = false) (hk : csrFields n = some k) : v.toNat ≤ k := by
  simp only [csrReserved, hk, Option.getD_some, Bool.or_eq_false_iff, bne_eq_false_iff_eq] at h
  rw [← h.1]
  exact Nat.and_le_right

/-- What is written to a plain CSR is what it then reads. -/
theorem Hart.plainCsr_writePlain_self {n : Nat} (hn : n ∈ plainCsrs) (h : Hart) {v : Word} (hr : csrReserved n v = false) :
    (h.writePlain n v).plainCsr n = v.toNat := by
  have low : ∀ w k, csrFields n = some k → k < 2 ^ w → (v.setWidth w).toNat = v.toNat := fun w k hk hw => by
    rw [BitVec.toNat_setWidth, Nat.mod_eq_of_lt (lt_of_le_of_lt (le_csrFields hr hk) hw)]
  rcases mem_plainCsrs hn with rfl | rfl | rfl | rfl | rfl | rfl | rfl | rfl | rfl | rfl | rfl
  case inl => exact low 32 _ rfl (by decide)
  case inr.inl => exact low 32 _ rfl (by decide)
  case inr.inr.inr.inl =>
    have small : v.toNat ≤ 2 ^ 12 - 1 := le_csrFields hr rfl
    simp only [Hart.writePlain, Hart.writeTrap, Hart.plainCsr, BitVec.toNat_ofNat, BitVec.toNat_setWidth, Nat.le_refl, if_true]
    omega
  case inr.inr.inr.inr.inr.inr.inr.inl =>
    have small : v.toNat ≤ 7 := le_csrFields hr rfl
    simp only [Hart.writePlain, Hart.writeTrap, Hart.plainCsr, TrapCsrs.status, BitVec.getLsbD, Nat.reduceLeDiff, if_true]
    interval_cases v.toNat <;> rfl
  case inr.inr.inr.inr.inr.inr.inr.inr.inl => exact low 16 _ rfl (by decide)
  all_goals rfl

theorem Hart.plainCsr_wrote {m : Nat} (s : State) (d : XReg) (v : Word) :
    (s.wrote d v).hart.plainCsr m = s.hart.plainCsr m := by
  unfold State.wrote State.writeX Hart.writeX Hart.record
  simp only [State.advance, State.withHart_hart, Hart.goto]
  split <;> split <;> exact Hart.plainCsr_congr rfl rfl rfl m

/-- The write of a plain CSR of a ready hart (R113, R384). -/
theorem State.csrWrite_plain {s : State} {n : Fin 4096} (v : Word) (hn : n.val ∈ plainCsrs) :
    s.csrWrite n v = s.commit.withHart fun h => h.writePlain n.val v := by
  have split : 0x100 ≤ n.val ∧ n.val ≠ 0x105 ∧ n.val ≠ 0x402 ∧ n.val < 0x500 := by
    rcases mem_plainCsrs hn with h | h | h | h | h | h | h | h | h | h | h <;> rw [h] <;> decide
  obtain ⟨h1, h2, h3, h4⟩ := split
  unfold State.csrWrite Hart.writePlain
  rw [if_neg (by omega)]
  simp only [h2, h3, h4, if_false, and_true]
  split <;> rfl

theorem csrReadsBack : Sys2Proof.Claims.CsrReadsBack := by
  unfold Sys2Proof.Claims.CsrReadsBack
  intro s o hn hr hl hres
  obtain ⟨-, hv, -, ho⟩ := id hr
  have plain : o.csr.val ∈ plainCsrs := hn
  have facts : csrPermitted .s o.csr.val true = true ∧ o.csr.val ≠ 0x402 ∧ s.csrShape o.csr.val (s.x o.a) = none := by
    rcases mem_plainCsrs hn with h | h | h | h | h | h | h | h | h | h | h <;> rw [h] <;> exact ⟨by decide, by decide, rfl⟩
  obtain ⟨hp, h402, hs⟩ := facts
  have done := State.csrOp_ready (o := o) (always := true) (f := fun _ v => v) hr (by rw [hl]; exact hp) (fun _ => ⟨hres, hs⟩)
    fun h => absurd h h402
  rw [Bool.true_or, if_pos rfl, State.csrWrite_plain _ plain] at done
  have committed : ∀ n, s.commit.hart.plainCsr n = s.hart.plainCsr n := fun n => by
    rw [State.commit_idle_hart hv ho]
    exact Hart.plainCsr_congr rfl rfl rfl n
  refine ⟨_, congrArg Host.Outcome.next done, ?_, fun m hm hne => ?_⟩
  · rw [State.csrRead_plain plain, Hart.plainCsr_wrote, State.withHart_hart,
      Hart.plainCsr_writePlain_self plain _ hres, BitVec.ofNat_toNat, BitVec.setWidth_eq]
  · rw [State.csrRead_plain hm, State.csrRead_plain hm s, Hart.plainCsr_wrote, State.withHart_hart,
      Hart.plainCsr_writePlain_of_ne plain hm hne, committed]

/-- Settles O12: one write and x[D], and the CSRs that are plain fields read back. -/
theorem csrInstructions : Obligations.CsrInstructions := ⟨csrInstructions_complete, csrReadsBack⟩

end Sys2Proof.Machine
end
end

section
/-! PROOFS. Misaligned and faulting accesses of scalar instructions (R101, R348, R349, R359). -/

noncomputable section

namespace Sys2Proof.Machine

/-! ### Which fault a translation gives (R349) -/

/-- The causes and reasons of the faults of a translation. -/
def AccFault.translating : AccFault → Prop
  | .fault c r _ => (c = 0x07 ∧ r ∈ [1, 2, 3]) ∨ (c = 0x08 ∧ r ∈ [4, 5, 7, 9])
  | _ => True

theorem State.walkRead_translating {s t : State} {r : Requester} {lv ea : Nat} {f : AccFault}
    (h : s.walkRead r lv ea = (t, .error f)) : f.translating := by
  have table : (AccFault.fault 8 7 lv).translating := .inr ⟨rfl, by simp⟩
  unfold State.walkRead at h
  split at h
  · cases h
    exact table
  · rcases hp : s.physRead { r with cls := 0 } .load ea 8 none with ⟨u, ⟨bs, _ | g⟩ | _ | _⟩ <;> rw [hp] at h <;> cases h
    · trivial
    all_goals exact table

theorem State.walkFrom_translating {r : Requester} {va fuel lv a : Nat} {s t : State} {f : AccFault}
    (h : State.walkFrom r va fuel lv a s = (t, .error f)) : f.translating := by
  induction fuel generalizing lv a s with
  | zero =>
    cases h
    exact .inl ⟨rfl, by simp⟩
  | succ fuel ih =>
    rw [State.walkFrom] at h
    rcases hw : s.walkRead r lv (a + 8 * walkIndex lv va) with ⟨u, e | e⟩ <;> simp only [hw] at h
    · cases h
      exact State.walkRead_translating hw
    · split at h
      · cases h
        exact .inl ⟨rfl, by simp⟩
      split at h
      · cases h
        exact .inl ⟨rfl, by simp⟩
      split at h
      · exact ih h
      · cases h

theorem State.readStripe_translating {s t : State} {r : Requester} {xc : XlateCtx} {n : Nat} {f : AccFault}
    (h : s.readStripe r xc n = (t, .error f)) : f.translating := by
  have bad : (AccFault.fault 8 9 3).translating := .inr ⟨rfl, by simp⟩
  generalize ha : xc.strbase.toNat % 2 ^ 57 / 4096 * 4096 + 32 * n = a
  simp only [State.readStripe, ha] at h
  split at h
  · cases h
    exact bad
  rcases h1 : s.walkRead r 3 a with ⟨s1, e | vb⟩ <;> simp only [h1] at h
  · cases h
    exact State.walkRead_translating h1
  rcases h2 : s1.walkRead r 3 (a + 8) with ⟨s2, e | lb⟩ <;> simp only [h2] at h
  · cases h
    exact State.walkRead_translating h2
  rcases h3 : s2.walkRead r 3 (a + 16) with ⟨s3, e | pc⟩ <;> simp only [h3] at h
  · cases h
    exact State.walkRead_translating h3
  rcases h4 : s3.walkRead r 3 (a + 24) with ⟨s4, e | v⟩ <;> simp only [h4] at h
  · cases h
    exact State.walkRead_translating h4
  split at h
  · cases h
    exact bad
  · cases h

theorem leafRefuses_translating {e reason lv : Nat} {lvl : Level} {k : AccessKind} (h : leafRefuses e lvl k = some reason) :
    (AccFault.fault 8 reason lv).translating := by
  unfold leafRefuses at h
  extract_lets u perm at h
  generalize perm = p at h
  split at h
  · cases h
    exact .inr ⟨rfl, by simp⟩
  split at h
  · cases h
    exact .inr ⟨rfl, by simp⟩
  · cases h

theorem State.walkTlb_translating {s t : State} {r : Requester} {xc : XlateCtx} {lvl : Level} {k : AccessKind} {va : Nat}
    {f : AccFault} (h : s.walkTlb r xc lvl k va = (t, .error f)) : f.translating := by
  unfold State.walkTlb at h
  rcases hw : s.walk r xc va with ⟨u, e | w⟩ <;> simp only [hw] at h
  · cases h
    unfold State.walk at hw
    split at hw
    · cases hw
      exact .inl ⟨rfl, by simp⟩
    · exact State.walkFrom_translating hw
  · unfold State.fillTlb at h
    simp only [] at h
    split at h
    · cases hl : leafRefuses w.leaf lvl k with
      | some reason =>
        simp only [hl] at h
        cases h
        exact leafRefuses_translating hl
      | none =>
        simp only [hl] at h
        rcases hs : u.readStripe r xc (w.leaf / 2 ^ 57) with ⟨v, e | st⟩ <;> simp only [hs] at h <;> cases h
        exact State.readStripe_translating hs
    · cases h

theorem placeAccess_translating {lvl : Level} {k : AccessKind} {va : Nat} {e : TlbEntry} {f : AccFault}
    (h : placeAccess lvl k va e = .error f) : f.translating := by
  unfold placeAccess at h
  cases hl : leafRefuses e.leaf.toNat lvl k with
  | some reason =>
    simp only [hl] at h
    cases h
    exact leafRefuses_translating hl
  | none =>
    simp only [hl] at h
    cases hp : tlbPlace e va <;> simp only [hp] at h <;> cases h
    exact .inr ⟨rfl, by simp⟩

/-- A translation fails with the causes and reasons of R349. -/
theorem State.locate_translating {s t : State} {k : AccessKind} {va : Word} {f : AccFault}
    (h : s.locate k va = (t, .error f)) : f.translating := by
  rw [State.locate, State.locateAt, State.translate_eq] at h
  have he := (congrArg Prod.snd h : _ = Except.error f)
  rcases hte : s.tlbEntry s.me s.hart.xctx s.hart.scalar.level k va.toNat with ⟨u, e | e⟩ <;> simp only [hte, Except.bind] at he
  · cases he
    rw [State.tlbEntry_eq] at hte
    split at hte
    · cases hte
    · exact State.walkTlb_translating hte
  · exact placeAccess_translating he

/-- The only fault of a read at a physical address is the refusal of its target (R359). -/
theorem State.readAt_refused {s t : State} {k : AccessKind} {pa n upTo c r l : Nat} {kind : PageKind}
    (h : s.readAt k pa n kind upTo = (t, .error (.fault c r l))) : c = 8 ∧ r = 8 ∧ l = 3 := by
  unfold State.readAt at h
  rcases hp : s.physRead s.me k pa n (some kind) with ⟨u, ⟨bs, _ | g⟩ | _ | _⟩ <;> simp only [hp] at h
  · split at h <;> cases h
  · cases h
  · cases h
    exact ⟨rfl, rfl, rfl⟩
  · split at h
    · cases h
      exact ⟨rfl, rfl, rfl⟩
    · cases h

theorem State.checkAt_refused {s t : State} {k : AccessKind} {pa c r l : Nat}
    (h : s.checkAt k pa = (t, .error (.fault c r l))) : c = 8 ∧ r = 8 ∧ l = 3 := by
  unfold State.checkAt at h
  rcases hp : s.physCheck s.me k pa with ⟨u, ⟨bs, g⟩ | _ | _⟩ <;> simp only [hp] at h
  · cases h
  · cases h
    exact ⟨rfl, rfl, rfl⟩
  · split at h
    · cases h
      exact ⟨rfl, rfl, rfl⟩
    · cases h

/-- An address with a bit of [63:57] set (R346). -/
theorem State.locate_beyond (s : State) (k : AccessKind) {va : Word} (h : 2 ^ 57 ≤ va.toNat) :
    s.locate k va = (s, .error (.fault 7 3 0)) := by
  rw [State.locate, State.locateAt, State.translate_eq, State.tlbEntry_eq, if_neg (by omega)]
  simp only [State.walkTlb, State.walk, if_pos h]
  rfl

/-- A page whose TLB entry refuses the access (R348). -/
theorem State.locate_refused {s : State} {k : AccessKind} {va : Word} {e : TlbEntry} {r : Nat} (h : va.toNat < 2 ^ 57)
    (he : s.tlbFind s.hart.xctx.ctxid va.toNat = some e) (hr : leafRefuses e.leaf.toNat s.hart.scalar.level k = some r) :
    s.locate k va = (s, .error (.fault 8 r (if e.block then 2 else 3))) := by
  rw [State.locate, State.locateAt, State.translate_eq, State.tlbEntry_eq, if_pos h, he]
  simp only [Except.bind, placeAccess, hr]

/-! ### The forms of scalar accesses -/

/-- A fault of an access of a hart with nothing posted is a trap (R101). -/
theorem State.failing_fault {s u : State} (k : AccessKind) (va : Word) (c r l : Nat) (hv : s.hart.viq = [])
    (hu : u.hart.viq = []) :
    s.failing u k va (.fault c r l) =
      u.enterTrap ⟨c, va, k.acc, u.hart.scalar.pc, some (mkXlinfo k.acc r l), none⟩ := by
  simp only [State.failing, hv, List.isEmpty_nil, if_true, State.accessFault, State.takeTrap_idle _ hu]

theorem State.accessFault_fault {u : State} (k : AccessKind) (va : Word) (c r l : Nat) (hu : u.hart.viq = []) :
    u.accessFault k va (.fault c r l) =
      u.enterTrap ⟨c, va, k.acc, u.hart.scalar.pc, some (mkXlinfo k.acc r l), none⟩ := by
  rw [State.accessFault, State.takeTrap_idle _ hu]

theorem aligned_eq_false {va : Word} {n : Nat} (h : va.toNat % n ≠ 0) : aligned va n = false := by simp [aligned, h]

theorem State.trap_idle {s : State} (c : Nat) (v : Word) (hv : s.hart.viq = []) :
    s.trap c v = s.enterTrap ⟨c, v, 0, s.hart.scalar.pc, none, none⟩ := by
  rw [State.trap, State.takeTrap_idle _ hv]

theorem State.dataReads_misaligned {s : State} {va : Word} {n : Nat} (rs : List XReg) (k : State → State)
    (hv : s.hart.viq = []) (ha : va.toNat % n ≠ 0) : s.dataReads va n rs k = s.trap 0x06 va := by
  simp [State.dataReads, Hart.pendingX_nil hv, aligned_eq_false ha]

theorem State.dataReads_ready {s : State} {va : Word} {n : Nat} (rs : List XReg) (k : State → State)
    (hv : s.hart.viq = []) (hb : s.hart.marks.badRegs = []) (ha : va.toNat % n = 0) : s.dataReads va n rs k = k s := by
  have good : rs.find? s.hart.badX = none := by simp [List.find?_eq_none, Hart.badX, hb]
  simp [State.dataReads, Hart.pendingX_nil hv, State.aligned_of_mod ha, good]

/-- What an access of a scalar instruction does before it is made: its address is checked, and its translation (R101). -/
structure AccessStarts (s : State) (k : AccessKind) (va : Word) (n : Nat) (t : State) : Prop where
  misaligned : va.toNat % n ≠ 0 → t = s.trap 0x06 va
  faults : va.toNat % n = 0 → ∀ s1 c r l, s.locate k va = (s1, .error (.fault c r l)) →
    t = s1.enterTrap ⟨c, va, k.acc, s1.hart.scalar.pc, some (mkXlinfo k.acc r l), none⟩

theorem State.locate_viq {s s1 : State} {k : AccessKind} {va : Word} {res : Except AccFault (Nat × PageKind)}
    (hl : s.locate k va = (s1, res)) (hv : s.hart.viq = []) : s1.hart.viq = [] := by
  have := (s.locate_probed k va).hart
  rw [hl] at this
  rw [this, hv]

theorem State.load_starts {s : State} (va : Word) (n : Nat) (k : Nat → State → State) (hv : s.hart.viq = []) :
    AccessStarts s .load va n (s.load va n k) where
  misaligned ha := by simp [State.load, aligned_eq_false ha]
  faults ha s1 c r l hl := by
    rw [State.load]
    simp only [State.aligned_of_mod ha, Hart.accessPosted_idle hv, Hart.acquirePosted_idle hv, Bool.not_true, Bool.or_self,
      Bool.false_eq_true, if_false, hl, State.failing_fault _ _ _ _ _ hv (State.locate_viq hl hv)]

theorem State.storeTo_starts {s : State} (va : Word) (bs : List Byte) (k : State → State) (hv : s.hart.viq = []) :
    AccessStarts s .store va bs.length (s.storeTo va bs k) where
  misaligned ha := by simp [State.storeTo, aligned_eq_false ha]
  faults ha s1 c r l hl := by
    rw [State.storeTo]
    simp only [State.aligned_of_mod ha, Hart.acquirePosted_idle hv, Bool.not_true, Bool.false_eq_true, if_false, hl,
      State.failing_fault _ _ _ _ _ hv (State.locate_viq hl hv)]

/-- An access behind the check of its alignment and of the registers it reads (R376). -/
theorem State.dataReads_starts {s : State} {k : AccessKind} {va : Word} {n : Nat} (rs : List XReg) {f : State → State}
    (hv : s.hart.viq = []) (hb : s.hart.marks.badRegs = []) (h : va.toNat % n = 0 → AccessStarts s k va n (f s)) :
    AccessStarts s k va n (s.dataReads va n rs f) where
  misaligned ha := State.dataReads_misaligned rs f hv ha
  faults ha := by
    rw [State.dataReads_ready rs f hv hb ha]
    exact (h ha).faults ha

theorem State.atomic_starts {s : State} (sc : Scope) (o : MemOrder) (va : Word) (n : Nat) (f : Nat → Option Nat)
    (k : Nat → State → State) (hv : s.hart.viq = []) (hb : s.hart.marks.badRegs = []) (ha : va.toNat % n = 0) :
    AccessStarts s .atomic va n (s.atomic sc o va n f k) where
  misaligned hn := absurd ha hn
  faults _ s1 c r l hl := by
    simp only [State.atomic, State.committing_clean _ _ hb, hl, State.accessFault_fault _ _ _ _ _ (State.locate_viq hl hv)]

theorem exec_amoForm {i : Instr} {op : AmoOp} {o : AmoOps} (h : amoForm i = some (op, o)) (s : State) :
    exec i s = .next (s.amo op o) := by
  cases i <;> simp only [amoForm, Option.some.injEq, Prod.mk.injEq, reduceCtorEq] at h
  all_goals
    obtain ⟨rfl, rfl⟩ := h
    rfl

theorem exec_ldaq_starts {s : State} (o : LdaqOps) (hr : s.isReady 1) :
    ∃ t, exec (.ldaq o) s = .next t ∧ AccessStarts s .load (s.x o.base + o.off.signExtend 64) o.size.bytes t := by
  obtain ⟨-, hv, hb, -⟩ := id hr
  exact ⟨_, congrArg Host.Outcome.next (State.scalarAlone_ready _ _ _ hr), State.load_starts _ _ _ hv⟩

theorem exec_strl_starts {s : State} (o : StrlOps) (hr : s.isReady 1) :
    ∃ t, exec (.strl o) s = .next t ∧ AccessStarts s .store (s.x o.base + o.off.signExtend 64) o.size.bytes t := by
  obtain ⟨-, hv, hb, -⟩ := id hr
  refine ⟨_, congrArg Host.Outcome.next (State.scalarAlone_ready _ _ _ hr), State.dataReads_starts _ hv hb fun ha => ?_⟩
  simp only []
  split
  · refine ⟨fun hn => absurd ha hn, fun _ s1 c r l hl => ?_⟩
    have located : s.locate .store (s.strlAddr o) = (s1, .error (.fault c r l)) := hl
    simp only [State.committing_clean _ _ hb, located, State.accessFault_fault _ _ _ _ _ (State.locate_viq hl hv)]
    rfl
  · have starts := State.storeTo_starts (s.strlAddr o) (natBytes o.size.bytes (s.x o.src).toNat) (fun s => s.advance) hv
    rwa [natBytes_length] at starts

theorem exec_cas_starts {s : State} (o : CasOps) (hr : s.isReady 1) :
    ∃ t, exec (.cas o) s = .next t ∧ AccessStarts s .atomic (s.x o.addr) (amoBytes o.dbl) t := by
  obtain ⟨-, hv, hb, -⟩ := id hr
  exact ⟨_, congrArg Host.Outcome.next (State.scalarAlone_ready _ _ _ hr),
    State.dataReads_starts _ hv hb (State.atomic_starts _ _ _ _ _ _ hv hb)⟩

theorem exec_waitm_starts {s : State} (o : WaitmOps) (hr : s.isReady 1) :
    ∃ t, exec (.waitm o) s = .next t ∧ AccessStarts s .load (s.x o.addr) (amoBytes o.dbl) t := by
  obtain ⟨-, hv, hb, -⟩ := id hr
  exact ⟨_, congrArg Host.Outcome.next (State.scalarAlone_ready _ _ _ hr),
    State.dataReads_starts _ hv hb fun _ => State.load_starts _ _ _ hv⟩

theorem State.amo_starts {s : State} (op : AmoOp) (o : AmoOps) (hr : s.isReady 1) :
    AccessStarts s .atomic (s.x o.addr) (amoBytes o.dbl) (s.amo op o) := by
  obtain ⟨-, hv, hb, -⟩ := id hr
  rw [State.amo, State.scalarAlone_ready _ _ _ hr]
  exact State.dataReads_starts _ hv hb (State.atomic_starts _ _ _ _ _ _ hv hb)

theorem State.loadOp_starts {s : State} (o : LoadOps) (n : Nat) (f : Nat → Word) (hr : s.isReady 0) :
    AccessStarts s .load (s.x o.base + o.off.signExtend 64) n (s.loadOp o n f) := by
  obtain ⟨-, hv, hb, -⟩ := id hr
  rw [State.loadOp, State.scalar_ready _ _ _ hr]
  exact State.load_starts _ _ _ hv

theorem State.storeOp_starts {s : State} (o : StoreOps) (n : Nat) (hr : s.isReady 0) :
    AccessStarts s .store (s.x o.base + o.off.signExtend 64) n (s.storeOp o n) := by
  obtain ⟨-, hv, hb, -⟩ := id hr
  rw [State.storeOp, State.scalar_ready _ _ _ hr]
  refine State.dataReads_starts _ hv hb fun _ => ?_
  have starts := State.storeTo_starts (s.storeAddr o) (natBytes n (s.x o.src).toNat) (fun s => s.advance) hv
  rwa [natBytes_length] at starts

/-- Every scalar access checks its address and its translation before it does anything else (R101, R376). -/
theorem exec_scalarAccess {i : Instr} {s : State} {cls n : Nat} {k : AccessKind} {va : Word}
    (hi : scalarAccess s i = some (cls, k, va, n)) (hr : s.isReady cls) :
    ∃ t, exec i s = .next t ∧ AccessStarts s k va n t := by
  unfold scalarAccess at hi
  split at hi
  case h_1 o =>
    cases hi
    exact exec_ldaq_starts o hr
  case h_2 o =>
    cases hi
    exact exec_strl_starts o hr
  case h_3 o =>
    cases hi
    exact exec_cas_starts o hr
  case h_4 o =>
    cases hi
    exact exec_waitm_starts o hr
  case h_5 =>
    split at hi
    · rename_i o n f hf
      cases hi
      exact ⟨_, exec_loadForm hf s, State.loadOp_starts o _ f hr⟩
    · rename_i o n hf _
      cases hi
      exact ⟨_, exec_storeForm hf s, State.storeOp_starts o _ hr⟩
    · rename_i op o hf _ _
      cases hi
      exact ⟨_, exec_amoForm hf s, State.amo_starts op o hr⟩
    · cases hi

end Sys2Proof.Machine
end
end

section
/-! PROOFS. Where scalar accesses trap (R101, R349, R359). -/

noncomputable section

namespace Sys2Proof.Machine

theorem misalignedTraps : Sys2Proof.Claims.MisalignedTraps := by
  unfold Sys2Proof.Claims.MisalignedTraps
  intro i s s1 cls k va n hi ha hr hc
  obtain ⟨-, hv, -⟩ := id hr
  obtain ⟨t, he, starts⟩ := exec_scalarAccess hi hr
  rw [starts.misaligned ha, State.trap_idle _ _ hv] at he
  exact ⟨_, he, State.enterTrap_traps hc rfl⟩

/-- A faulting access traps with its cause, kind, reason and level, and does nothing else (R349). -/
theorem State.fault_traps {s u t : State} {c : Nat} {va : Word} {k : AccessKind} (r l : Nat) (hu : s.probed u) (hc : u.canTrap t) :
    s.trapsTo (u.enterTrap ⟨c, va, k.acc, u.hart.scalar.pc, some (mkXlinfo k.acc r l), none⟩) c va s.hart.scalar.pc ∧
      s.intact (u.enterTrap ⟨c, va, k.acc, u.hart.scalar.pc, some (mkXlinfo k.acc r l), none⟩) ∧
      (u.enterTrap ⟨c, va, k.acc, u.hart.scalar.pc, some (mkXlinfo k.acc r l), none⟩).hart.trap.sub = BitVec.ofNat 4 k.acc ∧
      (u.enterTrap ⟨c, va, k.acc, u.hart.scalar.pc, some (mkXlinfo k.acc r l), none⟩).hart.trap.xlinfo =
        BitVec.ofNat 12 (k.acc * 256 + r * 16 + l) := by
  obtain ⟨takes, kept⟩ := State.enterTrap_traps
    (tr := ⟨c, va, k.acc, u.hart.scalar.pc, some (mkXlinfo k.acc r l), none⟩) hc rfl
  obtain ⟨sub, info⟩ := State.enterTrap_access ⟨c, va, k.acc, u.hart.scalar.pc, some (mkXlinfo k.acc r l), none⟩ hc
  refine ⟨?_, hu.intact kept, sub, info _ rfl⟩
  rw [← hu.hart]
  exact hu.trapsTo takes

/-- A scalar access whose translation faults (R348, R349). -/
theorem exec_access_faults {i : Instr} {s s1 s2 : State} {cls n c r l : Nat} {k : AccessKind} {va : Word}
    (hi : scalarAccess s i = some (cls, k, va, n)) (ha : va.toNat % n = 0) (hr : s.isReady cls)
    (hl : s.locate k va = (s1, .error (.fault c r l))) (hc : s1.canTrap s2) :
    ∃ t, exec i s = .next t ∧ s.trapsTo t c va s.hart.scalar.pc ∧ s.intact t ∧ t.hart.trap.sub = BitVec.ofNat 4 k.acc ∧
      t.hart.trap.xlinfo = BitVec.ofNat 12 (k.acc * 256 + r * 16 + l) := by
  obtain ⟨t, he, starts⟩ := exec_scalarAccess hi hr
  have located : s.probed s1 := by simpa only [hl] using s.locate_probed k va
  rw [starts.faults ha _ _ _ _ hl] at he
  exact ⟨_, he, State.fault_traps r l located hc⟩

/-! ### Refused targets -/

theorem scalarAccess_loadForm {i : Instr} {o : LoadOps} {n : Nat} {f : Nat → Word} (h : loadForm i = some (o, n, f)) (s : State) :
    scalarAccess s i = some (0, .load, s.x o.base + o.off.signExtend 64, n) := by
  cases i <;> simp only [loadForm, Option.some.injEq, Prod.mk.injEq, reduceCtorEq] at h
  all_goals
    obtain ⟨rfl, rfl, rfl⟩ := h
    rfl

theorem scalarAccess_storeForm {i : Instr} {o : StoreOps} {n : Nat} (h : storeForm i = some (o, n)) (s : State) :
    scalarAccess s i = some (0, .store, s.x o.base + o.off.signExtend 64, n) := by
  cases i <;> simp only [storeForm, Option.some.injEq, Prod.mk.injEq, reduceCtorEq] at h
  all_goals
    obtain ⟨rfl, rfl⟩ := h
    rfl

/-- A load whose read is refused (R359). -/
theorem State.loadOp_refused {s s1 s2 : State} {o : LoadOps} {n pa c r l : Nat} {kind : PageKind} (f : Nat → Word)
    (hr : s.isReady 0) (ha : (s.loadAddr o).toNat % n = 0) (hl : s.locate .load (s.loadAddr o) = (s1, .ok (pa, kind)))
    (hd : (s1.ordered kind).readAt .load pa n kind s.hart.nextSeq = (s2, .error (.fault c r l))) (h2 : s2.hart.viq = []) :
    s.loadOp o n f =
      s2.enterTrap ⟨c, s.loadAddr o, AccessKind.load.acc, s2.hart.scalar.pc, some (mkXlinfo AccessKind.load.acc r l), none⟩ := by
  obtain ⟨-, hv, hb, ho⟩ := id hr
  rw [State.loadOp, State.scalar_ready _ _ _ hr, State.load_located _ hv hb ho ha hl, hd]
  exact State.failing_fault _ _ _ _ _ hv h2

/-- A store whose target refuses it (R359). -/
theorem State.storeOp_refused {s s1 s2 : State} {o : StoreOps} {n pa c r l : Nat} {kind : PageKind} (hr : s.isReady 0)
    (ha : (s.storeAddr o).toNat % n = 0) (hl : s.locate .store (s.storeAddr o) = (s1, .ok (pa, kind)))
    (hd : s1.checkAt .store pa = (s2, .error (.fault c r l))) (h1 : s1.hart.marks.badRegs = []) (h2 : s2.hart.viq = []) :
    s.storeOp o n =
      s2.enterTrap ⟨c, s.storeAddr o, AccessKind.store.acc, s2.hart.scalar.pc, some (mkXlinfo AccessKind.store.acc r l), none⟩ := by
  obtain ⟨-, hv, hb, -⟩ := id hr
  rw [State.storeOp, State.scalar_ready _ _ _ hr, State.dataReads_ready _ _ hv hb ha, State.storeTo]
  simp only [natBytes_length, State.aligned_of_mod ha, Hart.acquirePosted_idle hv, Bool.not_true, Bool.false_eq_true, if_false, hl,
    hv, List.isEmpty_nil, and_false, State.committing_clean _ _ h1, hd, State.failing_fault _ _ _ _ _ hv h2]

/-- An ordered access leaves of its hart all but its strips and buffer, and its memory when the buffer is empty (R236). -/
theorem State.ordered_keeps {s : State} (kind : PageKind) : ∃ st c b,
    (s.ordered kind).hart = { s.hart with strip := st, closing := c, sbuf := b } ∧ (s.ordered kind).others = s.others ∧
      (s.hart.sbuf = [] → s.sameMemory (s.ordered kind) ∧ b = []) := by
  unfold State.ordered
  split
  · obtain ⟨c, b, hk⟩ := s.commit_hart
    refine ⟨none, c, b, hk, s.commit_others, fun hb => ⟨State.commit_unbuffered hb, ?_⟩⟩
    have shrinks : s.commit.hart.sbuf = (s.hart.closeStrip false).sealStrips.sbuf.filter _ :=
      congrArg Hart.sbuf (State.flushStores_hart _).1
    rw [s.hart.closed_fields false] at shrinks
    rw [hk] at shrinks
    simp only [hb, List.filter_nil] at shrinks
    exact shrinks
  · exact ⟨s.hart.strip, s.hart.closing, s.hart.sbuf, rfl, rfl, fun hb => ⟨s.sameMemory_refl, hb⟩⟩

/-- A trap taken after an ordered access that was refused is a trap of the state before it. -/
theorem State.ordered_traps {s s1 s2 t : State} {kind : PageKind} {c : Nat} {va pc : Word} (h1 : s.probed s1)
    (h2 : (s1.ordered kind).probed s2) (ht : s2.trapsTo t c va pc ∧ s2.intact t) : s.trapsTo t c va pc ∧ s.intact t := by
  obtain ⟨takes, kept⟩ := ht
  obtain ⟨st, cl, b, hart, others, memory⟩ := s1.ordered_keeps kind
  unfold State.trapsTo State.sameX State.x at takes ⊢
  unfold State.intact at kept ⊢
  rw [h2.hart, hart, h1.hart, h2.others, others, h1.others] at takes
  rw [h2.hart, hart, h1.hart] at kept
  obtain ⟨k1, k2, k3, k4, k5, k6, k7⟩ := kept
  refine ⟨takes, k1, k2, k3, k4, k5, k6, fun hb => ?_⟩
  obtain ⟨same, empty⟩ := memory (by rw [h1.hart, hb])
  exact (h1.sameMemory.trans (same.trans h2.sameMemory)).trans (k7 empty)

theorem accessFaults : Sys2Proof.Claims.AccessFaults := by
  unfold Sys2Proof.Claims.AccessFaults
  intro i s cls k va n hi ha hr
  refine ⟨fun s1 s2 c r l hl hc => ⟨State.locate_translating hl, exec_access_faults hi ha hr hl hc⟩, fun s2 hb hc => ?_,
    fun s2 e r hlt he hrf hc => ?_, fun s1 s2 s3 pa c r l kind hl hd hc => ?_⟩
  · obtain ⟨t, he, takes, kept, -, info⟩ := exec_access_faults hi ha hr (s.locate_beyond k hb) hc
    exact ⟨t, he, takes, kept, info⟩
  · obtain ⟨t, hx, takes, kept, -, info⟩ := exec_access_faults hi ha hr (State.locate_refused hlt he hrf) hc
    exact ⟨t, hx, takes, kept, info⟩
  · have located : s.probed s1 := by simpa only [hl] using s.locate_probed k va
    obtain ⟨-, hv, hb, ho⟩ := id hr
    rcases hd with ⟨hf, hd⟩ | ⟨hf, hd⟩
    · obtain ⟨⟨o, n', f⟩, hf⟩ := Option.isSome_iff_exists.1 hf
      have form := (scalarAccess_loadForm hf s).symm.trans hi
      simp only [Option.some.injEq, Prod.mk.injEq] at form
      obtain ⟨rfl, rfl, rfl, rfl⟩ := form
      obtain ⟨rfl, rfl, rfl⟩ := State.readAt_refused hd
      have read : (s1.ordered kind).probed s2 := by
        simpa only [hd] using (s1.ordered kind).readAt_probed .load pa n' kind s.hart.nextSeq
      obtain ⟨st, cl, b, hart, -, -⟩ := s1.ordered_keeps kind
      have same : s2.hart = { s.hart with strip := st, closing := cl, sbuf := b } := by rw [read.hart, hart, located.hart]
      have done := State.loadOp_refused f hr ha hl hd (by rw [same]; exact hv)
      obtain ⟨takes, kept⟩ := State.enterTrap_traps (tr := ⟨8, s.loadAddr o, AccessKind.load.acc, s2.hart.scalar.pc,
        some (mkXlinfo AccessKind.load.acc 8 3), none⟩) hc rfl
      obtain ⟨sub, info⟩ := State.enterTrap_access ⟨8, s.loadAddr o, AccessKind.load.acc, s2.hart.scalar.pc,
        some (mkXlinfo AccessKind.load.acc 8 3), none⟩ hc
      obtain ⟨takes, kept⟩ := State.ordered_traps located read ⟨takes, kept⟩
      refine ⟨_, (exec_loadForm hf s).trans (congrArg _ done), ?_, kept, sub, info _ rfl⟩
      have pc : s2.hart.scalar.pc = s.hart.scalar.pc := by rw [same]
      rw [← pc]
      exact takes
    · obtain ⟨⟨o, n'⟩, hf⟩ := Option.isSome_iff_exists.1 hf
      have form := (scalarAccess_storeForm hf s).symm.trans hi
      simp only [Option.some.injEq, Prod.mk.injEq] at form
      obtain ⟨rfl, rfl, rfl, rfl⟩ := form
      obtain ⟨rfl, rfl, rfl⟩ := State.checkAt_refused hd
      have checked : s.probed s2 := located.trans (by simpa only [hd] using s1.checkAt_probed .store pa)
      have done := State.storeOp_refused hr ha hl hd (by rw [located.hart, hb]) (by rw [checked.hart, hv])
      exact ⟨_, (exec_storeForm hf s).trans (congrArg _ done), State.fault_traps 8 3 checked hc⟩

/-! ### ERET at U and forbidden CSR accesses -/

theorem exceptionReturnAtU : Sys2Proof.Claims.ExceptionReturnAtU := by
  unfold Sys2Proof.Claims.ExceptionReturnAtU
  intro s s1 hv hu hc
  have done : exec .eret s = .next (s.enterTrap ⟨1, 0x74003, 0, s.hart.scalar.pc, none, none⟩) := by
    refine congrArg Host.Outcome.next ((if_pos hu).trans ?_)
    rw [State.illegal, State.trap_idle _ _ hv]
    rfl
  exact ⟨_, done, State.enterTrap_traps hc rfl⟩

theorem csrForbidden : Sys2Proof.Claims.CsrForbidden := by
  unfold Sys2Proof.Claims.CsrForbidden
  intro i s s1 o writes new hi hv hp hc
  obtain ⟨always, f, he, rfl, -⟩ := exec_csrForm hi
  have head : csrHead o.d % 65536 = 0x4300 + o.d.val := by
    have := o.d.isLt
    unfold csrHead
    omega
  have done : s.csrOp o always f = s.enterTrap
      ⟨1, BitVec.ofNat 64 (11 * 65536 + (0x4300 + o.d.val)), 0, s.hart.scalar.pc, none, none⟩ := by
    unfold State.csrOp
    simp only [hp, Bool.not_false, if_true]
    rw [State.illegal, State.trap_idle _ _ hv, illegalTval, head]
    rfl
  exact ⟨_, he.trans (congrArg _ done), State.enterTrap_traps hc rfl⟩

end Sys2Proof.Machine
end
end

section
/-! PROOFS. Errors that cannot be corrected: loads that read them, rewinds, and errors in registers, gates and queues (R380,
R381, R385, R386). -/

noncomputable section

namespace Sys2Proof.Machine

/-! ### Registers of a checkpoint written back -/

/-- Registers written in order. -/
def Hart.writeXs (h : Hart) (l : List (XReg × Word)) : Hart := l.foldl (fun k p => k.writeX p.1 p.2) h

/-- Only scalar registers differ. -/
def Hart.onlyXs (h k : Hart) : Prop := k = { h with scalar := { h.scalar with x := k.scalar.x } }

theorem Hart.onlyXs.trans {h k l : Hart} (hk : h.onlyXs k) (kl : k.onlyXs l) : h.onlyXs l := by
  unfold Hart.onlyXs at *
  rw [hk] at kl
  exact kl

theorem Hart.onlyXs.badRegs {h k : Hart} (hk : h.onlyXs k) : k.marks.badRegs = h.marks.badRegs := by rw [hk]

theorem Hart.writeXs_onlyXs (l : List (XReg × Word)) {h : Hart} (hb : h.marks.badRegs = []) : h.onlyXs (h.writeXs l) := by
  induction l generalizing h with
  | nil => rfl
  | cons p rest ih =>
    have first : h.onlyXs (h.writeX p.1 p.2) := h.writeX_sameButX p.1 p.2 hb
    exact first.trans (ih (by rw [first.badRegs, hb]))

theorem Hart.readX_writeXs_of_notMem {l : List (XReg × Word)} {r : XReg} (hr : ∀ p ∈ l, p.1 ≠ r) (h : Hart) :
    (h.writeXs l).readX r = h.readX r := by
  induction l generalizing h with
  | nil => rfl
  | cons p rest ih =>
    have other : ¬(r = p.1 ∧ p.1 ≠ 0) := fun hp => hr p (by simp) hp.1.symm
    exact (ih (fun q hq => hr q (by simp [hq])) _).trans (by rw [Hart.readX_writeX, if_neg other])

theorem Hart.readX_writeXs_of_mem {l : List (XReg × Word)} (hn : (l.map fun p => p.1).Nodup) {p : XReg × Word} (hp : p ∈ l)
    (h0 : p.1 ≠ 0) (h : Hart) : (h.writeXs l).readX p.1 = p.2 := by
  induction l generalizing h with
  | nil => simp at hp
  | cons q rest ih =>
    rw [List.map_cons, List.nodup_cons] at hn
    rcases List.mem_cons.1 hp with rfl | hp
    · have others : ∀ q ∈ rest, q.1 ≠ p.1 := fun q hq he => hn.1 (he ▸ List.mem_map_of_mem hq)
      exact (Hart.readX_writeXs_of_notMem others _).trans (by rw [Hart.readX_writeX, if_pos ⟨rfl, h0⟩])
    · exact ih hn.2 hp _

/-! ### Vector registers restored from shadows -/

theorem vkey_le_of_lt {a b : Nat} (h : a < b) : vkey (a + 1) 0 0 ≤ vkey b 0 0 := by
  simp only [vkey]
  omega

theorem memSlice_of_disjoint {m : Mem} {p : Host.Cell → Bool} {lo hi : Nat} (h : ∀ c : Host.Cell, p c = true → c.1 < lo ∨ hi ≤ c.1) :
    memSlice (m.filter p) lo hi = [] := by
  rw [memSlice, List.filter_filter, List.filter_eq_nil_iff]
  intro c _ hc
  simp only [Bool.and_eq_true, decide_eq_true_eq] at hc
  rcases h c hc.2 with h | h <;> omega

theorem memSlice_of_covered {m : Mem} {p : Host.Cell → Bool} {lo hi : Nat} (h : ∀ c : Host.Cell, lo ≤ c.1 → c.1 < hi → p c = true) :
    memSlice (m.filter p) lo hi = memSlice m lo hi := by
  rw [memSlice, memSlice, List.filter_filter]
  refine List.filter_congr fun c _ => ?_
  by_cases hc : lo ≤ c.1 ∧ c.1 < hi
  · simp [hc.1, hc.2, h c hc.1 hc.2]
  · have : ¬(lo ≤ c.1 ∧ c.1 < hi) := hc
    rcases not_and_or.1 this with hl | hl <;> simp [hl]

theorem memSlice_append (a b : Mem) (lo hi : Nat) : memSlice (a ++ b) lo hi = memSlice a lo hi ++ memSlice b lo hi :=
  List.filter_append ..

/-- A restored register leaves every other one. -/
theorem regSlice_restoreShadow_of_ne {r : VReg} {p : VReg × Mem} (hne : p.1 ≠ r) (vrf : Mem) :
    regSlice (restoreShadow vrf p) r = regSlice vrf r := by
  have ne : p.1.val ≠ r.val := fun h => hne (Fin.ext h)
  unfold regSlice restoreShadow memRestore
  generalize hplo : vkey p.1.val 0 0 = plo
  generalize hphi : vkey (p.1.val + 1) 0 0 = phi
  generalize hrlo : vkey r.val 0 0 = rlo
  generalize hrhi : vkey (r.val + 1) 0 0 = rhi
  rw [memSlice_append, memSlice_append]
  rcases Nat.lt_or_gt_of_ne ne with h | h
  · have le : phi ≤ rlo := by rw [← hphi, ← hrlo]; exact vkey_le_of_lt h
    have start : plo ≤ phi := by rw [← hphi, ← hplo]; simp only [vkey]; omega
    rw [memSlice_of_disjoint fun c hc => .inl (by simp at hc; omega),
      show memSlice (memSlice p.2 plo phi) rlo rhi = [] from memSlice_of_disjoint fun c hc => .inl (by simp at hc; omega),
      memSlice_of_covered fun c h1 _ => by simp; omega]
    rfl
  · have le : rhi ≤ plo := by rw [← hplo, ← hrhi]; exact vkey_le_of_lt h
    have start : plo ≤ phi := by rw [← hphi, ← hplo]; simp only [vkey]; omega
    rw [memSlice_of_covered fun c _ h2 => by simp; omega,
      show memSlice (memSlice p.2 plo phi) rlo rhi = [] from memSlice_of_disjoint fun c hc => .inr (by simp at hc; omega),
      memSlice_of_disjoint fun c hc => .inr (by simp at hc; omega)]
    simp

/-- A restored register holds what its shadow held. -/
theorem regSlice_restoreShadow_self (r : VReg) (m vrf : Mem) : regSlice (restoreShadow vrf (r, regSlice m r)) r = regSlice m r := by
  unfold restoreShadow memRestore regSlice
  generalize vkey r.val 0 0 = lo
  generalize vkey (r.val + 1) 0 0 = hi
  rw [memSlice_append, memSlice_append, memSlice_of_disjoint fun c hc => .inl (by simpa using hc),
    memSlice_of_disjoint fun c hc => .inr (by simpa using hc)]
  have twice : memSlice (memSlice m lo hi) lo hi = memSlice m lo hi := memSlice_of_covered fun c h1 h2 => by simp [h1, h2]
  rw [List.nil_append, List.append_nil, twice, twice]

theorem regSlice_restoreShadows_of_notMem {ps : List (VReg × Mem)} {r : VReg} (h : ∀ p ∈ ps, p.1 ≠ r) (vrf : Mem) :
    regSlice (ps.foldl restoreShadow vrf) r = regSlice vrf r := by
  induction ps generalizing vrf with
  | nil => rfl
  | cons p rest ih =>
    exact (ih (fun q hq => h q (by simp [hq])) _).trans (regSlice_restoreShadow_of_ne (h p (by simp)) vrf)

/-! ### Rewinds -/

/-- The hart of a strip's checkpoint but for its program counter: the registers of the checkpoint, then the opener's
destination (R385). -/
def Hart.checkpointX (h : Hart) (t : Strip) : Hart :=
  match t.opener with
  | some d => (h.writeXs t.regs).writeX d (BitVec.ofNat 64 t.vl)
  | none => h.writeXs t.regs

theorem Hart.checkpointX_onlyXs (t : Strip) {h : Hart} (hb : h.marks.badRegs = []) : h.onlyXs (h.checkpointX t) := by
  have regs := Hart.writeXs_onlyXs t.regs hb
  unfold Hart.checkpointX
  split
  · exact regs.trans (Hart.writeX_sameButX _ _ _ (by rw [regs.badRegs, hb]))
  · exact regs

theorem Hart.readX_checkpointX_opener {t : Strip} {d : XReg} (hd : t.opener = some d) (h0 : d ≠ 0) (h : Hart) :
    (h.checkpointX t).readX d = BitVec.ofNat 64 t.vl := by
  simp only [Hart.checkpointX, hd]
  rw [Hart.readX_writeX, if_pos ⟨rfl, h0⟩]

theorem Hart.readX_checkpointX_of_ne {t : Strip} {r : XReg} (hr : t.opener ≠ some r) (h : Hart) :
    (h.checkpointX t).readX r = (h.writeXs t.regs).readX r := by
  unfold Hart.checkpointX
  split
  · have other : ¬(r = ‹XReg› ∧ ‹XReg› ≠ 0) := fun hp => hr (by rw [hp.1]; assumption)
    rw [Hart.readX_writeX, if_neg other]
  · rfl

/-- The checkpoint that stands after a rewind (R385, R386). -/
def Strip.rewound (t : Strip) (g : Option Nat) (now : Nat) : Strip :=
  { t with
    shadows := [], rewinds := t.rewinds + 1, errGranule := g, noMajority := t.noMajority ++ [],
    since := now, closedAt := 0, sealed := false, byTimer := false }

/-- What a rewind leaves of a hart whose registers are those of the checkpoint (R385). -/
def Hart.rewound (h : Hart) (t : Strip) (g : Option Nat) (now : Nat) : Hart :=
  { h with
    scalar := { h.scalar with pc := t.resume }
    v := { h.v with vl := t.vl, vrows := t.vrows, vresume := 0, vresumeAt := none }
    vrf := t.shadows.foldl restoreShadow h.vrf
    streams := restorePositions h.streams t.positions
    ctl := { h.ctl with rewinds := if h.ctl.rewinds = 0xFFFF then 0xFFFF else h.ctl.rewinds + 1 }
    strip := some (t.rewound g now)
    marks := { h.marks with wait := .none, resuming := false, pmaskLive := false } }

/-- The rewind of the open strip of a hart with nothing posted and no error of its own (R385): its stores are gone, then its
registers are those of the checkpoint. -/
theorem Hart.rewind_idle {h : Hart} {t : Strip} (g : Option Nat) (now : Nat) (hv : h.viq = []) (hc : h.closing = [])
    (hb : h.marks.badRegs = []) (hs : ∀ e ∈ h.sbuf, t.id ≤ e.after) :
    ∃ hist, h.rewind t g none now = (({ h with hist := hist, sbuf := [] } : Hart).checkpointX t).rewound t g now := by
  have gone : h.sbuf.filter (fun e => decide (e.after < t.id)) = [] := by
    rw [List.filter_eq_nil_iff]
    intro e he
    have := hs e he
    simp only [decide_eq_true_eq]
    omega
  have clean : ∀ {k : Hart} (rs : List VReg), k.marks.badRegs = [] → k.cleanRegs rs = k := fun rs hk => by
    unfold Hart.cleanRegs
    rw [hk, List.filter_nil, ← hk]
  generalize hh : h.hist.filter (fun i => decide (i.after < t.id)) = hist
  have start : ({ h.takeBackAll (h.viq.filter fun q => decide (t.id < q.e.seq)) with
      viq := h.viq.filter fun q => decide (q.e.seq ≤ t.id)
      hist := h.hist.filter fun i => decide (i.after < t.id)
      sbuf := h.sbuf.filter fun e => decide (e.after < t.id)
      closing := h.closing.filter fun k => decide (k.id < t.id) } : Hart) = { h with hist := hist, sbuf := [] } := by
    rw [gone, hh]
    simp [Hart.takeBackAll, hv, hc]
  have regs : (({ h with hist := hist, sbuf := [] } : Hart).writeXs t.regs).marks.badRegs = [] :=
    (Hart.writeXs_onlyXs t.regs (h := { h with hist := hist, sbuf := [] }) hb).badRegs.trans hb
  refine ⟨hist, ?_⟩
  unfold Hart.rewind
  rw [start]
  have cleaned := clean (t.shadows.map fun p => p.1) regs
  unfold Hart.writeXs at cleaned
  simp only [cleaned]
  unfold Hart.rewound Strip.rewound Hart.checkpointX Hart.writeXs
  cases t.opener <;> rfl

/-- Nothing closed and nothing buffered: nothing becomes visible. -/
theorem State.settleStores_empty {s : State} (hc : s.hart.closing = []) (hb : s.hart.sbuf = []) : s.settleStores = s := by
  have still : (s.withHart fun h => { h with closing := h.closing.filter fun t => decide (h.oldest ≤ t.closedAt) }) = s := by
    refine (State.withHart_congr (g := id) ?_)
    rw [hc, List.filter_nil, ← hc]
    rfl
  rw [State.settleStores, still, State.flushStores, hb, List.filter_nil, List.foldl_nil]
  refine (State.withHart_congr (g := id) ?_)
  rw [hb, List.filter_nil, ← hb]
  rfl

/-! ### Loads that read an error -/

theorem State.dropTransient_keeps (s : State) (g : Nat) : (s.dropTransient g).hart = s.hart ∧
    (s.dropTransient g).others = s.others ∧ (s.dropTransient g).cycle = s.cycle ∧ s.sameMemory (s.dropTransient g) := by
  unfold State.dropTransient
  split <;> exact ⟨rfl, rfl, rfl, fun _ => rfl, fun _ => rfl, rfl⟩

/-- A load that reads an error that cannot be corrected consumes it (R101, R380). -/
theorem State.loadOp_error {s s1 s2 : State} {o : LoadOps} {n pa g : Nat} {kind : PageKind} (f : Nat → Word) (hr : s.isReady 0)
    (ha : (s.loadAddr o).toNat % n = 0) (hk : kind ≠ .so) (hl : s.locate .load (s.loadAddr o) = (s1, .ok (pa, kind)))
    (hd : s1.readAt .load pa n kind s.hart.nextSeq = (s2, .error (.ecc g))) (h2 : s2.hart.viq = []) :
    s.loadOp o n f = s2.consumeError (s2.granuleSrc g) (some g) s2.hart.strip fun v t => t.trap 0x18 v := by
  obtain ⟨-, hv, hb, ho⟩ := id hr
  have unordered : s1.ordered kind = s1 := if_neg hk
  rw [State.loadOp, State.scalar_ready _ _ _ hr, State.load_located _ hv hb ho ha hl, unordered, hd]
  simp only [State.failing, hv, List.isEmpty_nil, if_true, State.accessFault, h2]

/-- An error outside a strip, or in one that escalates, is cause 0x18 (R381, R386). -/
theorem State.consumeError_traps {s : State} {src g : Nat} {strip : Option Strip} {sealed again : Bool}
    (trap : Word → State → State) (hg : g < 2 ^ 52)
    (hs : (strip = none ∧ sealed = true ∧ again = false) ∨
      ∃ t, strip = some t ∧ t.sealed = false ∧ t.escalates (some g) = true ∧ sealed = false ∧ again = true) :
    s.consumeError src (some g) strip trap = trap (checkTval src sealed again (g * 32)) (s.dropTransient g) := by
  have granule : ¬some g = some bufferGranule := by
    rw [Option.some.injEq, bufferGranule]
    omega
  rcases hs with ⟨rfl, rfl, rfl⟩ | ⟨t, rfl, ht, he, rfl, rfl⟩
  · simp only [State.consumeError, granule, if_false, Option.map_some, Option.getD_some]
  · simp only [State.consumeError, granule, if_false, ht, Bool.false_eq_true, he, if_true, Option.map_some, Option.getD_some]

theorem State.consumeError_rewinds {s : State} {src g : Nat} {t : Strip} (trap : Word → State → State) (hg : g < 2 ^ 52)
    (ht : t.sealed = false) (he : t.escalates (some g) = false) :
    s.consumeError src (some g) (some t) trap = (s.dropTransient g).rewindTo t (some g) none := by
  have granule : ¬some g = some bufferGranule := by
    rw [Option.some.injEq, bufferGranule]
    omega
  simp only [State.consumeError, granule, if_false, ht, he, Bool.false_eq_true]

/-- The trap of an error consumed after a look and the drop of a transient error is a trap of the state before them. -/
theorem State.dropTransient_traps {s s2 s3 : State} (hp : s.probed s2) (g : Nat) (v : Word) (hv : s.hart.viq = [])
    (hc : (s2.dropTransient g).canTrap s3) :
    s.trapsTo ((s2.dropTransient g).trap 0x18 v) 0x18 v s.hart.scalar.pc ∧ s.intact ((s2.dropTransient g).trap 0x18 v) := by
  obtain ⟨hart, others, -, memory⟩ := s2.dropTransient_keeps g
  rw [hp.hart] at hart
  rw [hp.others] at others
  rw [State.trap_idle _ _ (by rw [hart, hv])]
  obtain ⟨takes, kept⟩ := State.enterTrap_traps
    (tr := ⟨0x18, v, 0, (s2.dropTransient g).hart.scalar.pc, none, none⟩) hc rfl
  unfold State.trapsTo State.sameX State.x at takes ⊢
  unfold State.intact at kept ⊢
  rw [hart, others] at takes
  rw [hart] at kept
  obtain ⟨k1, k2, k3, k4, k5, k6, k7⟩ := kept
  rw [hart]
  exact ⟨takes, k1, k2, k3, k4, k5, k6, fun hb => (hp.sameMemory.trans memory).trans (k7 hb)⟩

theorem checkTval_sealed (src g : Nat) : checkTval src true false (g * 32) = BitVec.ofNat 64 (src * 2 ^ 60 + 2 ^ 59 + g * 32) := by
  simp [checkTval, bit01]

theorem checkTval_again (src g : Nat) : checkTval src false true (g * 32) = BitVec.ofNat 64 (src * 2 ^ 60 + 2 ^ 58 + g * 32) := by
  simp [checkTval, bit01]

/-- The rewind of the open strip of a hart with nothing posted and no error of its own leaves the rest of the package (R385). -/
theorem State.rewindTo_idle {s : State} {t : Strip} (g : Option Nat) (hv : s.hart.viq = []) (ho : s.hart.orderly)
    (hb : s.hart.marks.badRegs = []) (hs : ∀ e ∈ s.hart.sbuf, t.id ≤ e.after) :
    ∃ hist, s.rewindTo t g none =
      s.withHart fun h => (({ h with hist := hist, sbuf := [] } : Hart).checkpointX t).rewound t g s.cycle := by
  have hc := ho.closing_nil hv
  obtain ⟨hist, hk⟩ := Hart.rewind_idle g s.cycle hv hc hb hs
  have only := Hart.checkpointX_onlyXs t (h := { s.hart with hist := hist, sbuf := [] }) hb
  have rewound : (s.withHart fun h => h.rewind t g none s.cycle) =
      s.withHart fun h => (({ h with hist := hist, sbuf := [] } : Hart).checkpointX t).rewound t g s.cycle :=
    State.withHart_congr hk
  refine ⟨hist, ?_⟩
  rw [State.rewindTo, rewound]
  refine State.settleStores_empty ?_ ?_
  · rw [State.withHart_hart, only]
    exact hc
  · rw [State.withHart_hart, only]
    rfl

theorem restorePositions_get {ss : Vector (Option StreamSlot) 4} {ps : List (Option Nat)} {k : Fin 4} {q : StreamSlot} {p : Nat}
    (hq : ss[k] = some q) (hp : ps.getD k.val none = some p) :
    (restorePositions ss ps)[k] = some { q with pos := p, fetched := [], again := true } := by
  simp only [restorePositions, Fin.getElem_fin, Vector.getElem_ofFn]
  rw [Fin.getElem_fin] at hq
  rw [hq, hp]
  rfl

theorem loadErrors : Sys2Proof.Claims.LoadErrors := by
  unfold Sys2Proof.Claims.LoadErrors
  intro i s s1 s2 o n f pa g kind hi hr ha hk hl hd hg
  obtain ⟨-, hv, hb, ho⟩ := id hr
  have located : s.probed s1 := by simpa only [hl] using s.locate_probed .load (s.x o.base + o.off.signExtend 64)
  have read : s.probed s2 := located.trans (by simpa only [hd] using s1.readAt_probed .load pa n kind s.hart.nextSeq)
  have done := (exec_loadForm hi s).trans (congrArg Host.Outcome.next
    (State.loadOp_error f hr ha hk hl hd (by rw [read.hart, hv])))
  rw [read.hart] at done
  refine ⟨fun s3 hs hc => ?_, fun st hs hse hrw hge hsb hid => ?_, fun st s3 hs hse hesc hc => ?_⟩
  · rw [State.consumeError_traps _ hg (.inl ⟨hs, rfl, rfl⟩), checkTval_sealed] at done
    exact ⟨_, done, State.dropTransient_traps read g _ hv hc⟩
  · have unescalated : st.escalates (some g) = false := by
      simp [Strip.escalates, hge]
      omega
    obtain ⟨hart, others, cycle, memory⟩ := s2.dropTransient_keeps g
    rw [read.hart] at hart
    obtain ⟨hist, rewinds⟩ := State.rewindTo_idle (s := s2.dropTransient g) (t := st) (some g) (by rw [hart, hv])
      (by rw [hart]; exact ho) (by rw [hart, hb]) (by rw [hart]; exact hsb)
    rw [hs, State.consumeError_rewinds _ hg hse unescalated, rewinds, cycle, read.cycle] at done
    generalize hk : ({ s.hart with hist := hist, sbuf := [] } : Hart) = k
    have only : k.onlyXs (k.checkpointX st) := Hart.checkpointX_onlyXs st (by rw [← hk]; exact hb)
    have x : ∀ r, k.readX r = s.x r := fun r => by
      rw [← hk]
      rfl
    have fields : (k.checkpointX st).ctl = s.hart.ctl ∧ (k.checkpointX st).viq = [] ∧ (k.checkpointX st).sbuf = [] ∧
        (k.checkpointX st).masks = s.hart.masks ∧ (k.checkpointX st).v = s.hart.v ∧ (k.checkpointX st).trap = s.hart.trap ∧
        (k.checkpointX st).vrf = s.hart.vrf ∧ (k.checkpointX st).streams = s.hart.streams := by
      rw [only, ← hk]
      exact ⟨rfl, hv, rfl, rfl, rfl, rfl, rfl, rfl⟩
    obtain ⟨ctl, viq, sbuf, masks, v, trap, vrf, streams⟩ := fields
    generalize hc : k.checkpointX st = c at ctl viq sbuf masks v trap vrf streams
    have th : ((s2.dropTransient g).withHart fun h =>
        (({ h with hist := hist, sbuf := [] } : Hart).checkpointX st).rewound st (some g) s.cycle).hart =
          c.rewound st (some g) s.cycle := by rw [State.withHart_hart, hart, hk, hc]
    have around : ((s2.dropTransient g).withHart fun h =>
        (({ h with hist := hist, sbuf := [] } : Hart).checkpointX st).rewound st (some g) s.cycle).others = s.others ∧
        s.sameMemory ((s2.dropTransient g).withHart fun h =>
          (({ h with hist := hist, sbuf := [] } : Hart).checkpointX st).rewound st (some g) s.cycle) :=
      ⟨others.trans read.others, read.sameMemory.trans memory⟩
    generalize ((s2.dropTransient g).withHart fun h =>
        (({ h with hist := hist, sbuf := [] } : Hart).checkpointX st).rewound st (some g) s.cycle) = t at done th around
    have reads : ∀ r, t.x r = c.readX r := fun r => by
      rw [State.x, th]
      rfl
    have vrfs : t.hart.vrf = st.shadows.foldl restoreShadow s.hart.vrf := by
      rw [th, ← vrf]
      rfl
    refine ⟨t, st.rewound (some g) s.cycle, done, by rw [th]; rfl, by rw [th]; rfl, by rw [th]; rfl, by rw [th]; rfl, by rw [th]; exact sbuf,
      by rw [th]; exact viq, by rw [th]; rfl, rfl, rfl, rfl, rfl, ?_, fun d hd h0 => ?_, fun hn p hp h0 hop => ?_,
      fun r hp hop => ?_, fun r hp => ?_, fun r m hsh _ => ?_, fun j q hq p hp => ?_, by rw [th]; exact masks, ?_,
      by rw [th]; exact trap, around⟩
    · rw [th, ← ctl]
      rfl
    · rw [reads, ← hc, Hart.readX_checkpointX_opener hd h0]
    · rw [reads, ← hc, Hart.readX_checkpointX_of_ne hop, Hart.readX_writeXs_of_mem hn hp h0]
    · rw [reads, ← hc, Hart.readX_checkpointX_of_ne hop, Hart.readX_writeXs_of_notMem hp, x]
    · rw [vrfs, regSlice_restoreShadows_of_notMem hp]
    · rw [vrfs, hsh]
      exact regSlice_restoreShadow_self r m _
    · rw [th]
      exact restorePositions_get (by rw [streams]; exact hq) hp
    · rw [th, ← v]
      rfl
  · have escalates : st.escalates (some g) = true := by
      rcases hesc with h | h <;> simp [Strip.escalates, h]
    rw [State.consumeError_traps _ hg (.inr ⟨st, hs, hse, escalates, rfl, rfl⟩), checkTval_again] at done
    exact ⟨_, done, State.dropTransient_traps read g _ hv hc⟩

/-! ### Errors in registers, gates and queues -/

/-- An arithmetic instruction reads its registers through the scalar issue (R95 to R98). -/
theorem exec_aluResult {i : Instr} {s : State} {rs : List XReg} {d : XReg} {x : Word} (h : aluResult s i = some (rs, d, x)) :
    ∃ k, exec i s = .next (s.scalar 0 rs [d] k) := by
  cases i <;> simp only [aluResult, Option.some.injEq, Prod.mk.injEq, reduceCtorEq] at h
  all_goals
    obtain ⟨rfl, rfl, -⟩ := h
    exact ⟨_, rfl⟩

/-- A scalar instruction outside a strip that reads a register that cannot be corrected (R380). -/
theorem State.scalar_badRegister {s : State} {cls : Nat} {rs ws : List XReg} (k : State → State) (hu : s.mayUse cls)
    (hv : s.hart.viq = []) (hs : s.hart.strip = none) {r : XReg} (hr : r ∈ rs) (hb : s.hart.badX r = true) :
    s.scalar cls rs ws k = s.trap 0x18 (checkTval 6 true false 0) := by
  obtain ⟨q, hq⟩ : ∃ q, rs.find? s.hart.badX = some q :=
    Option.isSome_iff_exists.1 (List.find?_isSome.2 ⟨r, hr, hb⟩)
  rw [State.scalar, State.classed_ok _ hu]
  simp only [Hart.pendingX_nil hv, List.any_eq_true, Bool.false_eq_true, and_false, exists_false, if_false, hv, List.isEmpty_nil,
    Bool.not_true, Bool.false_and, hq, State.badRegister, if_true, Hart.covering, hs, Option.filter_none]
  simp [State.consumeError]

/-- A gate instruction asks for its gate's misuse and errors before anything else (R275, R380). -/
theorem exec_gateForm {i : Instr} {s : State} {id : Word} {u : GateUse} (h : gateForm s i = some (id, u)) (hr : s.isReady 1) :
    ∃ k, exec i s = .next (s.gateOp id u k) := by
  cases i <;> simp only [gateForm, Option.some.injEq, Prod.mk.injEq, reduceCtorEq] at h
  case garw o =>
    have ready := State.scalarAlone_ready [o.gate, o.count] [o.d] (fun s : State =>
      match s.hart.marks.garw.find? fun w => w.pc == s.hart.scalar.pc with
      | some w => s.gateOp (BitVec.ofNat 64 w.gate) .look fun s => s.garwWait o w
      | none => s.gateOp (s.x o.gate) (.arrive (s.arriveCount o)) fun s => s.garwArrive o (s.x o.gate)) hr
    cases hw : s.hart.marks.garw.find? (fun w => w.pc == s.hart.scalar.pc) with
    | some w =>
      rw [hw] at h ready
      obtain ⟨rfl, rfl⟩ := h
      exact ⟨_, congrArg Host.Outcome.next ready⟩
    | none =>
      rw [hw] at h ready
      obtain ⟨rfl, rfl⟩ := h
      exact ⟨_, congrArg Host.Outcome.next ready⟩
  all_goals
    obtain ⟨rfl, rfl⟩ := h
    exact ⟨_, congrArg Host.Outcome.next (State.scalarAlone_ready _ _ _ hr)⟩

theorem State.gateOp_error {s : State} {id : Word} {u : GateUse} (k : State → State)
    (hm : s.gateMisuse id s.hart.xctx.ctxid u = none) (hb : s.badGate id = true) :
    s.gateOp id u k = s.trap 0x18 (checkTval 6 true false 0) := by
  simp only [State.gateOp, hm, hb, if_true]

/-- A QPUSH on a queue with an error, with nothing buffered: the strip is closed and the error consumed (R380, R384). -/
theorem exec_qpush_error {s : State} {o : QpushOps} (hr : s.isReady 2) (hb : s.hart.sbuf = [])
    (hq : s.queueReason o.q true = none) (he : s.badQueue s.hart.core o.q = true) :
    exec (.qpush o) s = .next ((s.withHart Hart.drained).trap 0x18 (checkTval 6 true false 0)) := by
  obtain ⟨-, hv, -, ho⟩ := id hr
  have bad : (s.withHart Hart.drained).badQueue (s.withHart Hart.drained).hart.core o.q = true := he
  refine congrArg Host.Outcome.next ((State.scalarAlone_ready _ _ _ hr).trans ?_)
  simp only [State.queueOp, hq, State.commit_empty hv ho hb, bad, if_true]
  rfl

/-- The trap of an error in a word of the core, taken with the strip's buffer empty or not (R380, R381). -/
theorem State.stateError_traps {s u s1 : State} (hu : u = s ∨ u = s.withHart Hart.drained ∧ s.hart.sbuf = [])
    (hv : s.hart.viq = []) (hc : s.canTrap s1) :
    s.trapsTo (u.trap 0x18 (checkTval 6 true false 0)) 0x18 (BitVec.ofNat 64 (6 * 2 ^ 60 + 2 ^ 59)) s.hart.scalar.pc ∧
      s.intact (u.trap 0x18 (checkTval 6 true false 0)) ∧ (u.trap 0x18 (checkTval 6 true false 0)).cores = s.cores := by
  have word : checkTval 6 true false 0 = BitVec.ofNat 64 (6 * 2 ^ 60 + 2 ^ 59) := by decide
  rw [word]
  rcases hu with rfl | ⟨rfl, hb⟩
  · rw [State.trap_idle _ _ hv]
    obtain ⟨takes, kept⟩ := State.enterTrap_traps
      (tr := ⟨0x18, BitVec.ofNat 64 (6 * 2 ^ 60 + 2 ^ 59), 0, u.hart.scalar.pc, none, none⟩) hc rfl
    exact ⟨takes, kept, (State.enterTrap_finds _ hc).2.2.1⟩
  · have hc' := hc.withHart (f := Hart.drained) rfl rfl rfl rfl
    rw [State.trap_idle _ _ (show (s.withHart Hart.drained).hart.viq = [] from hv)]
    obtain ⟨takes, k1, k2, k3, k4, k5, k6, k7⟩ := State.enterTrap_traps
      (tr := ⟨0x18, BitVec.ofNat 64 (6 * 2 ^ 60 + 2 ^ 59), 0, (s.withHart Hart.drained).hart.scalar.pc, none, none⟩) hc' rfl
    exact ⟨takes, ⟨k1, k2, k3, k4, k5, k6, fun _ => k7 rfl⟩, (State.enterTrap_finds _ hc').2.2.1⟩

theorem stateErrors : Sys2Proof.Claims.StateErrors := by
  unfold Sys2Proof.Claims.StateErrors
  intro i s s1 hv ho hc h
  rcases h with ⟨rs, d, x, r, hi, hu, hs, hr, hb⟩ | ⟨id, u, hi, hr, hm, hb⟩ | ⟨o, rfl, hr, hb, hq, he⟩
  · obtain ⟨k, he⟩ := exec_aluResult hi
    rw [State.scalar_badRegister k hu hv hs hr hb] at he
    exact ⟨_, he, State.stateError_traps (.inl rfl) hv hc⟩
  · obtain ⟨k, he⟩ := exec_gateForm hi hr
    rw [State.gateOp_error k hm hb] at he
    exact ⟨_, he, State.stateError_traps (.inl rfl) hv hc⟩
  · exact ⟨_, exec_qpush_error hr hb hq he, State.stateError_traps (.inr ⟨rfl, hb⟩) hv hc⟩

/-- Settles O13: each access checks its address, its translation and its target before it does anything, and an error is
consumed before its instruction. -/
theorem accessTraps : Obligations.AccessTraps :=
  ⟨misalignedTraps, accessFaults, loadErrors, stateErrors, exceptionReturnAtU, csrForbidden⟩

end Sys2Proof.Machine
end
end

section
/-! PROOFS. The vector register file and the mask file: what one element written changes, and the sources kept before an
instruction (R14, R21, R91, R141). -/

noncomputable section

namespace Sys2Proof.Machine

/-! ### A region restored from another memory -/

/-- Cells that a filter leaves out do not show whether one of them was written. -/
theorem filter_memWrite {p : Host.Cell → Bool} {a : Nat} (h : ∀ v, p (a, v) = false) (m : Mem) (v : Byte) :
    (memWrite m a v).filter p = m.filter p := by
  induction m with
  | nil =>
    unfold memWrite
    split <;> simp [h]
  | cons c rest ih =>
    obtain ⟨x, w⟩ := c
    unfold memWrite
    by_cases hlt : a < x
    · by_cases hv : v = 0#8 <;> simp [hlt, hv, h]
    · by_cases he : a = x
      · subst he
        by_cases hv : v = 0#8 <;> simp [hv, h]
      · simp [hlt, he, List.filter_cons, ih]

/-- A region read from elsewhere does not show what was written there. -/
theorem memRestore_memWrite {lo hi a : Nat} (hl : lo ≤ a) (hh : a < hi) (m src : Mem) (v : Byte) :
    memRestore (memWrite m a v) src lo hi = memRestore m src lo hi := by
  unfold memRestore
  rw [filter_memWrite (fun _ => by simp; omega), filter_memWrite (fun _ => by simp; omega)]

theorem memRestore_writeBytes {lo hi : Nat} (bs : List Byte) {a : Nat} (hl : lo ≤ a) (hh : a + bs.length ≤ hi) (m src : Mem) :
    memRestore (writeBytes m a bs) src lo hi = memRestore m src lo hi := by
  induction bs generalizing m a with
  | nil => rfl
  | cons b rest ih =>
    rw [List.length_cons] at hh
    exact (ih (by omega) (by omega) _).trans (memRestore_memWrite hl (by omega) m src b)

theorem memWfFrom_ge {m : Mem} {k : Nat} (h : memWfFrom k m = true) : ∀ c ∈ m, k ≤ c.1 := by
  induction m generalizing k with
  | nil => exact fun _ hc => absurd hc List.not_mem_nil
  | cons c rest ih =>
    obtain ⟨x, w⟩ := c
    simp only [memWfFrom, Bool.and_eq_true, decide_eq_true_eq] at h
    intro d hd
    rcases List.mem_cons.1 hd with rfl | hd
    · exact h.1.1
    · have := ih h.2 d hd
      omega

/-- A memory with a region restored from itself is that memory. -/
theorem memRestore_self {m : Mem} (h : Memory.wf m = true) {lo hi : Nat} (hl : lo ≤ hi) : memRestore m (memSlice m lo hi) lo hi = m := by
  suffices key : ∀ (m : Mem) (k : Nat), memWfFrom k m = true →
      m.filter (fun c => decide (c.1 < lo)) ++ memSlice m lo hi ++ m.filter (fun c => decide (hi ≤ c.1)) = m by
    have twice : memSlice (memSlice m lo hi) lo hi = memSlice m lo hi := memSlice_of_covered fun c h1 h2 => by simp [h1, h2]
    rw [memRestore, twice]
    exact key m 0 h
  intro m
  induction m with
  | nil => intro _ _; rfl
  | cons c rest ih =>
    obtain ⟨x, w⟩ := c
    intro k hw
    simp only [memWfFrom, Bool.and_eq_true, decide_eq_true_eq] at hw
    have above : ∀ c ∈ rest, x + 1 ≤ c.1 := fun c hc => memWfFrom_ge hw.2 c hc
    have tail := ih (x + 1) hw.2
    by_cases h1 : x < lo
    · have e1 : ¬lo ≤ x := by omega
      have e2 : ¬hi ≤ x := by omega
      rw [memSlice] at tail ⊢
      simpa [List.filter_cons, h1, e1, e2] using tail
    · have none1 : rest.filter (fun c => decide (c.1 < lo)) = [] := by
        rw [List.filter_eq_nil_iff]
        intro c hc
        have := above c hc
        simp only [decide_eq_true_eq]
        omega
      by_cases h2 : x < hi
      · have e2 : ¬hi ≤ x := by omega
        have e1 : lo ≤ x := by omega
        rw [memSlice, none1] at tail
        rw [memSlice]
        simpa [List.filter_cons, h1, e1, h2, e2, none1] using tail
      · have none2 : memSlice rest lo hi = [] := by
          rw [memSlice, List.filter_eq_nil_iff]
          intro c hc
          have := above c hc
          simp only [Bool.and_eq_true, decide_eq_true_eq]
          omega
        have e2 : hi ≤ x := by omega
        rw [none1, none2] at tail
        rw [memSlice] at none2 ⊢
        simpa [List.filter_cons, h1, h2, e2, none1, none2] using tail

/-! ### One element of a vector register -/

/-- The element widths of the vector class. -/
def elementBits : List Nat := [4, 8, 16, 32, 64]

/-- The bytes that an element lies in end before the next row. -/
theorem element_end {bits e : Nat} (hb : bits ∈ elementBits) (he : e < 2 ^ 20) : e * (bits / 8) + bits / 8 ≤ 2 ^ 23 := by
  simp only [elementBits, List.mem_cons, List.not_mem_nil, or_false] at hb
  rcases hb with rfl | rfl | rfl | rfl | rfl <;> omega

theorem vset_wf {vrf : Mem} (h : Memory.wf vrf = true) (r bits row e v : Nat) : Memory.wf (vset vrf r bits row e v) = true := by
  unfold vset
  split
  · exact memWrite_wf _ _ h
  · exact writeNat_wf _ _ _ h

/-- An element lies inside its register. -/
theorem memRestore_vset {bits row e : Nat} (hb : bits ∈ elementBits) (hr : row < 2 ^ 20) (he : e < 2 ^ 20) (vrf src : Mem) (r v : Nat) :
    memRestore (vset vrf r bits row e v) src (vkey r 0 0) (vkey (r + 1) 0 0) =
      memRestore vrf src (vkey r 0 0) (vkey (r + 1) 0 0) := by
  have last := element_end hb he
  unfold vset
  split
  · exact memRestore_memWrite (by simp only [vkey]; omega) (by simp only [vkey]; omega) ..
  · exact memRestore_writeBytes _ (by simp only [vkey]; omega) (by rw [natBytes_length]; simp only [vkey]; omega) ..

theorem memSlice_writeBytes {lo hi : Nat} (bs : List Byte) {a : Nat} (h : a + bs.length ≤ lo ∨ hi ≤ a) (m : Mem) :
    memSlice (writeBytes m a bs) lo hi = memSlice m lo hi := by
  induction bs generalizing m a with
  | nil => rfl
  | cons b rest ih =>
    rw [List.length_cons] at h
    refine (ih (by omega) _).trans (filter_memWrite (fun v => ?_) m b)
    rw [Bool.eq_false_iff, ne_eq, Bool.and_eq_true, decide_eq_true_eq, decide_eq_true_eq]
    dsimp only
    omega

/-- An element written leaves every other register. -/
theorem regSlice_vset {bits row e : Nat} (hb : bits ∈ elementBits) (hr : row < 2 ^ 20) (he : e < 2 ^ 20) {d r : VReg} (hne : d ≠ r)
    (vrf : Mem) (v : Nat) : regSlice (vset vrf d.val bits row e v) r = regSlice vrf r := by
  have last := element_end hb he
  have other : d.val < r.val ∨ r.val < d.val := by
    rcases Nat.lt_trichotomy d.val r.val with h | h | h
    · exact .inl h
    · exact absurd (Fin.ext h) hne
    · exact .inr h
  unfold regSlice vset
  split
  · refine filter_memWrite (fun v => ?_) vrf _
    rw [Bool.eq_false_iff, ne_eq, Bool.and_eq_true, decide_eq_true_eq, decide_eq_true_eq]
    simp only [vkey]
    omega
  · refine memSlice_writeBytes _ ?_ vrf
    rw [natBytes_length]
    simp only [vkey]
    omega

/-- Half bytes of a byte. -/
theorem half_byte (old v i j : Nat) :
    (if i % 2 = 0 then old / 16 * 16 + v % 16 else old % 16 + v % 16 * 16) % 256 / 16 ^ (j % 2) % 16 =
      if j % 2 = i % 2 then v % 16 else old / 16 ^ (j % 2) % 16 := by
  rcases Nat.mod_two_eq_zero_or_one i with hi | hi <;> rcases Nat.mod_two_eq_zero_or_one j with hj | hj <;>
    simp [hi, hj] <;> omega

/-- What an element of a register reads after one of its elements was written. -/
theorem vget_vset {vrf : Mem} (h : Memory.wf vrf = true) {bits row e row' e' : Nat} (hb : bits ∈ elementBits) (hr : row < 2 ^ 20)
    (he : e < 2 ^ 20) (he' : e' < 2 ^ 20) (r v : Nat) :
    vget (vset vrf r bits row e v) r bits row' e' = if row' = row ∧ e' = e then v % 2 ^ bits else vget vrf r bits row' e' := by
  by_cases h4 : bits = 4
  · subst h4
    simp only [vget, vset, if_true]
    rw [memRead_memWrite _ _ _ _ h]
    by_cases same : vkey r row' (e' / 2) = vkey r row (e / 2)
    · obtain ⟨rfl, hh⟩ : row' = row ∧ e' / 2 = e / 2 := by simp only [vkey] at same; omega
      have := half_byte (memRead vrf (vkey r row' (e / 2))).toNat v e e'
      rw [if_pos same, BitVec.toNat_ofNat, this, hh]
      exact if_congr (by omega) rfl rfl
    · rw [if_neg same, if_neg]
      rintro ⟨rfl, rfl⟩
      exact same rfl
  · have unit : bits / 8 * 8 = bits ∧ 1 ≤ bits / 8 ∧ 256 ^ (bits / 8) = 2 ^ bits := by
      simp only [elementBits, List.mem_cons, List.not_mem_nil, or_false] at hb
      rcases hb with rfl | rfl | rfl | rfl | rfl
      · exact absurd rfl h4
      all_goals decide
    have last := element_end hb he
    have last' := element_end hb he'
    simp only [vget, vset, if_neg h4]
    by_cases same : row' = row ∧ e' = e
    · obtain ⟨rfl, rfl⟩ := same
      rw [if_pos ⟨rfl, rfl⟩, readNat_writeNat _ _ _ _ h, unit.2.2]
    · rw [if_neg same, readNat, readNat, writeNat, readBytes_writeBytes_of_disjoint _ _ _ _ _ h]
      rw [natBytes_length]
      simp only [vkey]
      generalize hn : bits / 8 = n at *
      by_cases hrow : row' = row
      · subst hrow
        have hne : e' ≠ e := fun h => same ⟨rfl, h⟩
        rcases Nat.lt_or_gt_of_ne hne with hlt | hlt
        · have : (e' + 1) * n ≤ e * n := Nat.mul_le_mul_right n hlt
          rw [Nat.succ_mul] at this
          omega
        · have : (e + 1) * n ≤ e' * n := Nat.mul_le_mul_right n hlt
          rw [Nat.succ_mul] at this
          omega
      · omega

/-! ### One bit of a mask register -/

theorem mset_wf {masks : Mem} (h : Memory.wf masks = true) (m : MReg) (p : Nat) (b : Bool) : Memory.wf (mset masks m p b) = true := by
  unfold mset
  split
  · exact h
  · exact memWrite_wf _ _ h

/-- What a mask bit reads after one was written. -/
theorem mget_mset {masks : Mem} (h : Memory.wf masks = true) (d m : MReg) (p q : Nat) (b : Bool) :
    mget (mset masks d p b) m q = if m = d ∧ d ≠ 0 ∧ q < maskPositions ∧ q = p then b else mget masks m q := by
  unfold mset
  by_cases hd : d = 0 ∨ maskPositions ≤ p
  · rw [if_pos hd, if_neg]
    rintro ⟨-, h0, hq, rfl⟩
    rcases hd with hd | hd
    · exact h0 hd
    · omega
  · rw [if_neg hd]
    obtain ⟨h0, hp⟩ := not_or.1 hd
    by_cases hm : m = 0
    · subst hm
      rw [if_neg (fun hc : (0 : MReg) = d ∧ _ => h0 hc.1.symm)]
      simp [mget]
    · by_cases hq : q < maskPositions
      · simp only [mget, hm, decide_false, Bool.false_or, hq, decide_true, Bool.true_and]
        rw [memRead_memWrite _ _ _ _ h]
        have key : mkey m.val q = mkey d.val p ↔ m = d ∧ q = p := by
          unfold mkey
          unfold maskPositions at hp hq
          rw [Fin.ext_iff]
          omega
        by_cases same : m = d ∧ q = p
        · obtain ⟨rfl, rfl⟩ := same
          cases b <;> simp [h0]
        · rw [if_neg (fun hk => same (key.1 hk)), if_neg (fun hc : m = d ∧ d ≠ 0 ∧ _ ∧ q = p => same ⟨hc.1, hc.2.2.2⟩)]
      · rw [if_neg (fun hc : m = d ∧ d ≠ 0 ∧ q < maskPositions ∧ _ => hq hc.2.2.1)]
        simp [mget, hm, hq]

/-- A mask bit lies inside its register. -/
theorem restoreMask_mset (masks src : Mem) (m : MReg) (p : Nat) (b : Bool) :
    restoreMask (mset masks m p b) (m, src) = restoreMask masks (m, src) := by
  unfold mset
  split
  · rfl
  · next h =>
    have hp : p < maskPositions := by omega
    unfold maskPositions at hp
    exact memRestore_memWrite (by simp only [mkey]; omega) (by simp only [mkey]; omega) ..

/-! ### The tile fits its registers -/

theorem VState.words_le (v : VState) : v.words ≤ 1024 := by
  have nv : 8 ≤ v.nv := by
    have : 1 ≤ 2 ^ v.nvCode.val := Nat.one_le_two_pow
    unfold VState.nv
    omega
  have share : shareWords v.share ≤ 8192 := by
    have := v.share.isLt
    unfold shareWords
    omega
  calc v.words ≤ 8192 / v.nv := Nat.div_le_div_right share
    _ ≤ 8192 / 8 := Nat.div_le_div_left nv (by decide)
    _ = 1024 := rfl

theorem countOnes_le (n a : Nat) : countOnes n a ≤ n := by
  induction n generalizing a with
  | zero => exact Nat.le_refl 0
  | succ n ih =>
    have := ih (a / 2)
    simp only [countOnes]
    omega

theorem State.lw_pos (s : State) : 0 < s.lw := by
  unfold State.lw State.lanesFor
  split <;> omega

theorem State.lw_le (s : State) : s.lw ≤ 64 := by
  have := countOnes_le 8 (s.core s.hart.core).lanemap.toNat
  unfold State.lw State.lanesFor Core.lw
  split <;> omega

theorem le_ceilDiv_mul (a : Nat) {b : Nat} (hb : 0 < b) : a ≤ ceilDiv a b * b := by
  unfold ceilDiv
  have whole := Nat.div_add_mod (a + b - 1) b
  have rest := Nat.mod_lt (a + b - 1) hb
  rw [Nat.mul_comm] at whole
  omega

/-- An element of a tile that fits lies where its register can hold it (R14). -/
theorem State.fits_bounds {s : State} {bits rows vl row el : Nat} (h : s.fits bits rows vl = true) (hr : row < rows) (he : el < vl) :
    row < 2 ^ 20 ∧ el < 2 ^ 20 := by
  have hw := s.hart.v.words_le
  have hl := s.lw_le
  have hp := s.lw_pos
  unfold State.fits tileFits at h
  rw [decide_eq_true_eq] at h
  generalize s.hart.v.words = words at *
  generalize s.lw = lw at *
  have cover : vl ≤ 8 * lw * wordsPerRow lw bits vl := by
    have groups : ∀ k, k ≤ groupsPerRow lw k * lw := fun k => le_ceilDiv_mul k hp
    have quarter := fun k => le_ceilDiv_mul k (b := 4) (by decide)
    have half := fun k => le_ceilDiv_mul k (b := 2) (by decide)
    by_cases h4 : bits = 4
    · subst h4
      have h1 := half vl
      have h2 := groups (ceilDiv vl 2)
      have h3 := quarter (groupsPerRow lw (ceilDiv vl 2))
      show vl ≤ 8 * lw * ceilDiv (groupsPerRow lw (ceilDiv vl 2)) 4
      nlinarith
    · have h1 := groups vl
      have h2 := quarter (groupsPerRow lw vl)
      have h3 := half (groupsPerRow lw vl)
      simp only [wordsPerRow, if_neg h4]
      split <;> nlinarith
  have one : 1 ≤ wordsPerRow lw bits vl := by
    by_contra h0
    rw [show wordsPerRow lw bits vl = 0 by omega] at cover
    omega
  have : rows ≤ rows * wordsPerRow lw bits vl := Nat.le_mul_of_pos_right _ one
  have : wordsPerRow lw bits vl ≤ rows * wordsPerRow lw bits vl := Nat.le_mul_of_pos_left _ (by omega)
  constructor
  · omega
  · have : 8 * lw * wordsPerRow lw bits vl ≤ 8 * 64 * 1024 := Nat.mul_le_mul (by omega) (by omega)
    omega

end Sys2Proof.Machine
end
end

section
/-! PROOFS. The elements of a tile: its element groups together, and what an instruction writes at a list of them (R19, R22, R91). -/

noncomputable section

namespace Sys2Proof.Machine

/-! ### Element groups -/

/-- The first groups of a row hold its first elements. -/
theorem rowGroups_flatten (lw vl row n : Nat) :
    ((List.range n).map fun j => (List.range (min lw (vl - lw * j))).map fun i => (row, lw * j + i)).flatten =
      (List.range (min (lw * n) vl)).map fun e => (row, e) := by
  induction n with
  | zero => simp
  | succ n ih =>
    have split : min (lw * (n + 1)) vl = min (lw * n) vl + min lw (vl - lw * n) := by
      rw [Nat.mul_succ]
      omega
    rw [List.range_succ, List.map_append, List.flatten_append, ih, split, List.range_add, List.map_append]
    simp only [List.map_cons, List.map_nil, List.flatten_cons, List.flatten_nil, List.append_nil, List.map_map]
    refine congrArg _ (List.map_congr_left fun i hi => ?_)
    have : i < min lw (vl - lw * n) := List.mem_range.1 hi
    simp only [Function.comp_apply]
    rw [show min (lw * n) vl = lw * n by omega]

/-- The groups of a tile together are its elements in order (R19). -/
theorem tileGroups_flatten {lw : Nat} (hl : 0 < lw) (rows vl : Nat) :
    ((List.range (tileGroups lw rows vl)).map (groupElems lw vl)).flatten = tileElems rows vl := by
  have whole : vl ≤ groupsPerRow lw vl * lw := le_ceilDiv_mul vl hl
  unfold tileGroups tileElems
  generalize hn : groupsPerRow lw vl = n at *
  induction rows with
  | zero => simp
  | succ r ih =>
    have group : ∀ j ∈ List.range n, groupElems lw vl (r * n + j) =
        (List.range (min lw (vl - lw * j))).map fun i => (r, lw * j + i) := by
      intro j hj
      have lt : j < n := List.mem_range.1 hj
      simp only [groupElems, hn]
      rw [Nat.mul_comm r n, Nat.mul_add_div (by omega), Nat.div_eq_of_lt lt, Nat.mul_add_mod, Nat.mod_eq_of_lt lt]
      rfl
    rw [Nat.succ_mul, List.range_add, List.map_append, List.flatten_append, ih, List.map_map, List.range_succ, List.map_append,
      List.flatten_append, show (groupElems lw vl ∘ (r * n + ·)) = fun j => groupElems lw vl (r * n + j) from rfl,
      List.map_congr_left group, rowGroups_flatten, show min (lw * n) vl = vl by rw [Nat.mul_comm]; omega]
    simp

theorem mem_tileElems {rows vl : Nat} {p : Nat × Nat} : p ∈ tileElems rows vl ↔ p.1 < rows ∧ p.2 < vl := by
  obtain ⟨r, e⟩ := p
  simp only [tileElems, List.mem_flatten, List.mem_map, List.mem_range]
  constructor
  · rintro ⟨l, ⟨a, ha, rfl⟩, hp⟩
    obtain ⟨b, hb, he⟩ := List.mem_map.1 hp
    cases he
    exact ⟨ha, List.mem_range.1 hb⟩
  · rintro ⟨hr, he⟩
    exact ⟨_, ⟨r, hr, rfl⟩, List.mem_map.2 ⟨e, List.mem_range.2 he, rfl⟩⟩

/-- The elements of a group that the first `k` elements of a tile fill lie among them. -/
theorem groupElems_lt_of_filled {lw vl k g : Nat} (h : g < elemsToGroups lw vl k) {p : Nat × Nat} (hp : p ∈ groupElems lw vl g) :
    p.1 * vl + p.2 < k := by
  simp only [groupElems, List.mem_map, List.mem_range] at hp
  obtain ⟨i, hi, rfl⟩ := hp
  have hl : 0 < lw := by omega
  have hv : 0 < vl := by omega
  have whole : vl ≤ groupsPerRow lw vl * lw := le_ceilDiv_mul vl hl
  unfold elemsToGroups at h
  rw [show max 1 vl = vl by omega] at h
  generalize groupsPerRow lw vl = n at *
  have hn : 0 < n := by
    rcases Nat.eq_zero_or_pos n with rfl | h0
    · omega
    · exact h0
  have kq := Nat.div_add_mod k vl
  have kr := Nat.mod_lt k hv
  have gq := Nat.div_add_mod g n
  have gr := Nat.mod_lt g hn
  have rq := Nat.div_mul_le_self (k % vl) lw
  have rn : k % vl / lw < n := (Nat.div_lt_iff_lt_mul hl).2 (by omega)
  generalize k / vl = q at *
  generalize k % vl = r at *
  generalize g / n = row at *
  generalize g % n = j at *
  dsimp only
  rcases Nat.lt_trichotomy row q with hlt | rfl | hgt
  · have : (row + 1) * vl ≤ q * vl := Nat.mul_le_mul_right vl hlt
    rw [Nat.succ_mul, Nat.mul_comm q vl] at this
    omega
  · have hj : j + 1 ≤ r / lw := by
      rw [Nat.mul_comm] at gq
      omega
    have : (j + 1) * lw ≤ r / lw * lw := Nat.mul_le_mul_right lw hj
    rw [Nat.succ_mul, Nat.mul_comm j lw] at this
    rw [Nat.mul_comm row vl]
    omega
  · have : (q + 1) * n ≤ row * n := Nat.mul_le_mul_right n hgt
    rw [Nat.succ_mul, Nat.mul_comm row n] at this
    omega

/-- The elements that an entry has still to do are those of its tile that were not complete before it (R22). -/
theorem VEntry.remaining_flatten (e : VEntry) {lw : Nat} (hl : 0 < lw) (rows : Nat) :
    ((List.range (tileGroups lw rows e.vl - elemsToGroups lw e.vl e.skip)).map fun i =>
        e.groupElems lw (elemsToGroups lw e.vl e.skip + i)).flatten =
      (tileElems rows e.vl).filter fun p => decide (e.skip ≤ p.1 * e.vl + p.2) := by
  generalize hd : elemsToGroups lw e.vl e.skip = d
  have filled : ∀ g, g < d → e.groupElems lw g = [] := by
    intro g hg
    refine List.filter_eq_nil_iff.2 fun p hp => ?_
    have := groupElems_lt_of_filled (hd ▸ hg) hp
    simp only [decide_eq_true_eq]
    omega
  have none : ∀ n, n ≤ d → ((List.range n).map (e.groupElems lw)).flatten = [] := by
    intro n hn
    refine List.flatten_eq_nil_iff.2 fun l hl => ?_
    obtain ⟨g, hg, rfl⟩ := List.mem_map.1 hl
    have : g < n := List.mem_range.1 hg
    exact filled g (by omega)
  have all : ((List.range (tileGroups lw rows e.vl)).map (e.groupElems lw)).flatten =
      (tileElems rows e.vl).filter fun p => decide (e.skip ≤ p.1 * e.vl + p.2) := by
    rw [← tileGroups_flatten hl, List.filter_flatten, List.map_map]
    rfl
  rw [← all]
  generalize tileGroups lw rows e.vl = n
  rcases Nat.le_total n d with h | h
  · rw [none n h, Nat.sub_eq_zero_of_le h]
    rfl
  · rw [show n = d + (n - d) by omega, List.range_add, List.map_append, List.flatten_append, none d (Nat.le_refl d),
      List.map_map, show d + (n - d) - d = n - d by omega]
    rfl

/-! ### Elements written -/

/-- The elements of a list written in a register. -/
def vsets (d bits : Nat) (f : Nat → Nat → Nat) (l : List (Nat × Nat)) (vrf : Mem) : Mem :=
  l.foldl (fun m p => vset m d bits p.1 p.2 (f p.1 p.2)) vrf

/-- The flags of the elements of a list. -/
def flagsOf (f : Nat → Nat → Flags) (l : List (Nat × Nat)) : Flags := l.foldl (fun fl p => fl ||| f p.1 p.2) 0

theorem foldl_or (f : Nat → Nat → Flags) (l : List (Nat × Nat)) (a : Flags) :
    l.foldl (fun fl p => fl ||| f p.1 p.2) a = a ||| flagsOf f l := by
  unfold flagsOf
  induction l generalizing a with
  | nil => simp
  | cons p rest ih =>
    rw [List.foldl_cons, List.foldl_cons, ih, ih (0 ||| f p.1 p.2)]
    simp [BitVec.or_assoc]

/-- Elementwise writes are the writes of the active elements, and the flags are those elements' (R91). -/
theorem mapElems_eq (d bits vl : Nat) (masks : Mem) (m : MReg) (f : Nat → Nat → Nat × Flags) (l : List (Nat × Nat)) (vrf : Mem)
    (fl : Flags) : mapElems d bits vl masks m f l (vrf, fl) =
      (vsets d bits (fun r e => (f r e).1) (l.filter fun p => mget masks m (p.1 * vl + p.2)) vrf,
        fl ||| flagsOf (fun r e => (f r e).2) (l.filter fun p => mget masks m (p.1 * vl + p.2))) := by
  rw [← foldl_or]
  induction l generalizing vrf fl with
  | nil => rfl
  | cons p rest ih =>
    obtain ⟨r, e⟩ := p
    by_cases h : mget masks m (r * vl + e) = true <;> simp [mapElems, h, ih, vsets]

theorem mapElems_append (d bits vl : Nat) (masks : Mem) (m : MReg) (f : Nat → Nat → Nat × Flags) (l k : List (Nat × Nat))
    (acc : Mem × Flags) : mapElems d bits vl masks m f (l ++ k) acc =
      mapElems d bits vl masks m f k (mapElems d bits vl masks m f l acc) := by
  induction l generalizing acc with
  | nil => rfl
  | cons p rest ih =>
    obtain ⟨r, e⟩ := p
    obtain ⟨vrf, fl⟩ := acc
    by_cases h : mget masks m (r * vl + e) = true <;> simp [mapElems, h, ih]

/-- Every element of a list lies where a register can hold it. -/
def inRange (l : List (Nat × Nat)) : Prop := ∀ p ∈ l, p.1 < 2 ^ 20 ∧ p.2 < 2 ^ 20

theorem inRange.tail {p : Nat × Nat} {l : List (Nat × Nat)} (h : inRange (p :: l)) : inRange l :=
  fun q hq => h q (List.mem_cons_of_mem p hq)

theorem vsets_wf (d bits : Nat) (f : Nat → Nat → Nat) (l : List (Nat × Nat)) {vrf : Mem} (h : Memory.wf vrf = true) :
    Memory.wf (vsets d bits f l vrf) = true := by
  induction l generalizing vrf with
  | nil => exact h
  | cons p rest ih => exact ih (vset_wf h ..)

/-- What an element reads after the elements of a list were written (R91). -/
theorem vget_vsets {bits : Nat} (hb : bits ∈ elementBits) (d : Nat) (f : Nat → Nat → Nat) {l : List (Nat × Nat)} (hl : inRange l)
    {vrf : Mem} (h : Memory.wf vrf = true) {row el : Nat} (he : el < 2 ^ 20) :
    vget (vsets d bits f l vrf) d bits row el = if (row, el) ∈ l then f row el % 2 ^ bits else vget vrf d bits row el := by
  induction l generalizing vrf with
  | nil => rfl
  | cons p rest ih =>
    obtain ⟨hr0, he0⟩ := hl p (List.mem_cons_self ..)
    have step := ih hl.tail (vset_wf h d bits p.1 p.2 (f p.1 p.2))
    rw [vget_vset h hb hr0 he0 he] at step
    refine step.trans ?_
    by_cases hin : (row, el) ∈ rest
    · rw [if_pos hin, if_pos (List.mem_cons_of_mem p hin)]
    · rw [if_neg hin]
      by_cases same : row = p.1 ∧ el = p.2
      · obtain ⟨rfl, rfl⟩ := same
        rw [if_pos ⟨rfl, rfl⟩, if_pos (List.mem_cons_self ..)]
      · rw [if_neg same, if_neg]
        intro hc
        rcases List.mem_cons.1 hc with rfl | hc
        · exact same ⟨rfl, rfl⟩
        · exact hin hc

theorem regSlice_vsets {bits : Nat} (hb : bits ∈ elementBits) {d r : VReg} (hne : d ≠ r) (f : Nat → Nat → Nat)
    {l : List (Nat × Nat)} (hl : inRange l) (vrf : Mem) : regSlice (vsets d.val bits f l vrf) r = regSlice vrf r := by
  induction l generalizing vrf with
  | nil => rfl
  | cons p rest ih =>
    obtain ⟨hr0, he0⟩ := hl p (List.mem_cons_self ..)
    exact (ih hl.tail _).trans (regSlice_vset hb hr0 he0 hne vrf _)

/-- The register written is read as it stood before (R21, R141). -/
theorem restoreShadow_vsets {bits : Nat} (hb : bits ∈ elementBits) (d : VReg) (f : Nat → Nat → Nat) {l : List (Nat × Nat)}
    (hl : inRange l) (vrf src : Mem) : restoreShadow (vsets d.val bits f l vrf) (d, src) = restoreShadow vrf (d, src) := by
  induction l generalizing vrf with
  | nil => rfl
  | cons p rest ih =>
    obtain ⟨hr0, he0⟩ := hl p (List.mem_cons_self ..)
    exact (ih hl.tail _).trans (memRestore_vset hb hr0 he0 vrf src d.val _)

/-- A register restored from its own contents is unchanged. -/
theorem restoreShadow_self {vrf : Mem} (h : Memory.wf vrf = true) (d : VReg) : restoreShadow vrf (d, regSlice vrf d) = vrf :=
  memRestore_self h (by simp only [vkey]; omega)

/-! ### Mask bits written -/

/-- The positions of the elements of a list written in a mask register. -/
def msets (d : MReg) (vl : Nat) (f : Nat → Nat → Bool) (l : List (Nat × Nat)) (masks : Mem) : Mem :=
  l.foldl (fun k p => mset k d (p.1 * vl + p.2) (f p.1 p.2)) masks

/-- Compares write the bits of the active elements, and the flags are those elements' (R128, R129). -/
theorem mapMask_eq (d : MReg) (vl : Nat) (src : Mem) (m : MReg) (f : Nat → Nat → Bool × Flags) (l : List (Nat × Nat)) (masks : Mem)
    (fl : Flags) : mapMask d vl src m f l (masks, fl) =
      (msets d vl (fun r e => (f r e).1) (l.filter fun p => mget src m (p.1 * vl + p.2)) masks,
        fl ||| flagsOf (fun r e => (f r e).2) (l.filter fun p => mget src m (p.1 * vl + p.2))) := by
  rw [← foldl_or]
  induction l generalizing masks fl with
  | nil => rfl
  | cons p rest ih =>
    obtain ⟨r, e⟩ := p
    by_cases h : mget src m (r * vl + e) = true <;> simp [mapMask, h, ih, msets]

theorem mapMask_append (d : MReg) (vl : Nat) (src : Mem) (m : MReg) (f : Nat → Nat → Bool × Flags) (l k : List (Nat × Nat))
    (acc : Mem × Flags) : mapMask d vl src m f (l ++ k) acc = mapMask d vl src m f k (mapMask d vl src m f l acc) := by
  induction l generalizing acc with
  | nil => rfl
  | cons p rest ih =>
    obtain ⟨r, e⟩ := p
    obtain ⟨masks, fl⟩ := acc
    by_cases h : mget src m (r * vl + e) = true <;> simp [mapMask, h, ih]

theorem restoreMask_msets (d : MReg) (vl : Nat) (f : Nat → Nat → Bool) (l : List (Nat × Nat)) (masks src : Mem) :
    restoreMask (msets d vl f l masks) (d, src) = restoreMask masks (d, src) := by
  induction l generalizing masks with
  | nil => rfl
  | cons p rest ih => exact (ih _).trans (restoreMask_mset ..)

theorem restoreMask_self {masks : Mem} (h : Memory.wf masks = true) (m : MReg) : restoreMask masks (m, maskSlice masks m) = masks :=
  memRestore_self h (by simp only [mkey]; omega)

/-- What a mask bit reads after the elements of a list were written (R91). -/
theorem mget_msets (d m : MReg) {vl : Nat} (f : Nat → Nat → Bool) {l : List (Nat × Nat)} (hl : ∀ p ∈ l, p.2 < vl) {masks : Mem}
    (h : Memory.wf masks = true) (q : Nat) :
    mget (msets d vl f l masks) m q =
      if m = d ∧ d ≠ 0 ∧ q < maskPositions ∧ (q / vl, q % vl) ∈ l then f (q / vl) (q % vl) else mget masks m q := by
  induction l generalizing masks with
  | nil => simp [msets]
  | cons p rest ih =>
    have hv : p.2 < vl := hl p (List.mem_cons_self ..)
    have at_ : q = p.1 * vl + p.2 ↔ (q / vl, q % vl) = p := by
      constructor
      · rintro rfl
        rw [Nat.mul_comm, Nat.mul_add_div (by omega), Nat.div_eq_of_lt hv, Nat.mul_add_mod, Nat.mod_eq_of_lt hv]
        rfl
      · rintro rfl
        exact (Nat.div_add_mod' q vl).symm
    have step := ih (fun p hp => hl p (List.mem_cons_of_mem _ hp)) (mset_wf h d (p.1 * vl + p.2) (f p.1 p.2))
    rw [mget_mset h] at step
    refine step.trans ?_
    by_cases hc : m = d ∧ d ≠ 0 ∧ q < maskPositions
    · obtain ⟨hm, hd, hq⟩ := hc
      by_cases hin : (q / vl, q % vl) ∈ rest
      · rw [if_pos ⟨hm, hd, hq, hin⟩, if_pos ⟨hm, hd, hq, List.mem_cons_of_mem p hin⟩]
      · rw [if_neg (fun hx => hin hx.2.2.2)]
        by_cases same : (q / vl, q % vl) = p
        · rw [if_pos ⟨hm, hd, hq, at_.2 same⟩, if_pos ⟨hm, hd, hq, List.mem_cons.2 (.inl same)⟩, ← same]
        · rw [if_neg (fun hx => same (at_.1 hx.2.2.2)), if_neg]
          exact fun hx => (List.mem_cons.1 hx.2.2.2).elim same hin
    · rw [if_neg (fun hx => hc ⟨hx.1, hx.2.1, hx.2.2.1⟩), if_neg (fun hx => hc ⟨hx.1, hx.2.1, hx.2.2.1⟩),
        if_neg (fun hx => hc ⟨hx.1, hx.2.1, hx.2.2.1⟩)]

end Sys2Proof.Machine
end
end

section
/-! PROOFS. A posted instruction that is worked on at once: its issue, the beginning of its entry, and its retirement (R8, R11, R90,
R201). -/

noncomputable section

namespace Sys2Proof.Machine

/-- Whether an instruction sets the tile when it is posted (R116 to R121, R165). -/
def setsTile : VInstr → Bool
  | .vcfg _ => true
  | .setvl _ => true
  | .setvr _ => true
  | .setvlb _ => true
  | .msets _ => true
  | _ => false

/-- Every posted instruction but the tile settings issues alike (R8). -/
theorem exec_posted {i : Instr} {v : VInstr} (h : posted i = some v) (hs : setsTile v = false) (s : State) :
    exec i s = .next (s.issueVector v) := by
  cases i <;> cases h <;> simp [setsTile] at hs <;> rfl

/-- What makes an instruction plain: it sets no tile, commits no strip when posted, and needs no unit that harts share. -/
structure PlainVector (v : VInstr) : Prop where
  tile : setsTile v = false
  commits : commitsAtPosting v = false
  grid : usesGrid v = false
  merge : usesMerge v = false

/-! ### The hart with one entry posted -/

/-- A hart past an instruction that is its one posted entry. -/
def Hart.inFlight (h : Hart) (st : Option Strip) (vrf masks : Mem) (e : VEntry) (r : VResult) : Hart :=
  { h.goto h.nextPc with strip := st, vrf := vrf, masks := masks, viq := [⟨e, r⟩], nextSeq := h.nextSeq + 1 }

/-- The state with one entry posted in the current hart. -/
def State.inFlight (s : State) (st : Option Strip) (vrf masks : Mem) (e : VEntry) (r : VResult) : State :=
  s.withHart fun h => h.inFlight st vrf masks e r

section
variable {s : State} {st : Option Strip} {vrf masks : Mem} {e : VEntry} {r : VResult} (he : e.complete = false)

@[simp] theorem State.setVrf_inFlight (m : Mem) : (s.inFlight st vrf masks e r).setVrf m = s.inFlight st m masks e r := rfl

@[simp] theorem State.setMasks_inFlight (m : Mem) : (s.inFlight st vrf masks e r).setMasks m = s.inFlight st vrf m e r := rfl

@[simp] theorem State.inFlight_lw : (s.inFlight st vrf masks e r).lw = s.lw := rfl

@[simp] theorem State.inFlight_groupwise (v : VInstr) : (s.inFlight st vrf masks e r).groupwise v = s.groupwise v := rfl

@[simp] theorem State.inFlight_vrf : (s.inFlight st vrf masks e r).hart.vrf = vrf := rfl

@[simp] theorem State.inFlight_masks : (s.inFlight st vrf masks e r).hart.masks = masks := rfl

@[simp] theorem State.inFlight_viq : (s.inFlight st vrf masks e r).hart.viq = [⟨e, r⟩] := rfl

include he

@[simp] theorem State.inFlight_working : (s.inFlight st vrf masks e r).hart.working = some ⟨e, r⟩ := by
  simp [Hart.working, he]

@[simp] theorem State.inFlight_workResult : (s.inFlight st vrf masks e r).workResult = r := by
  simp [State.workResult, he]

theorem Hart.withWorking_inFlight (h : Hart) (f : VSlot → VSlot) :
    (h.inFlight st vrf masks e r).withWorking f = h.inFlight st vrf masks (f ⟨e, r⟩).e (f ⟨e, r⟩).r := by
  simp only [Hart.withWorking, Hart.inFlight, onWorking, he]
  rfl

@[simp] theorem State.withEntry_inFlight (f : VEntry → VEntry) :
    (s.inFlight st vrf masks e r).withEntry f = s.inFlight st vrf masks (f e) r :=
  State.withHart_congr (s := s) (f := fun h => (h.inFlight st vrf masks e r).withWorking fun q => { q with e := f q.e })
    (g := fun h => h.inFlight st vrf masks (f e) r) (Hart.withWorking_inFlight he s.hart _)

@[simp] theorem State.withResult_inFlight (f : VResult → VResult) :
    (s.inFlight st vrf masks e r).withResult f = s.inFlight st vrf masks e (f r) :=
  State.withHart_congr (s := s) (f := fun h => (h.inFlight st vrf masks e r).withWorking fun q => { q with r := f q.r })
    (g := fun h => h.inFlight st vrf masks e (f r)) (Hart.withWorking_inFlight he s.hart _)

@[simp] theorem State.gather_inFlight (fl : Flags) :
    (s.inFlight st vrf masks e r).gather fl = s.inFlight st vrf masks e { r with fflags := r.fflags ||| fl } :=
  State.withResult_inFlight he _

end

/-! ### Issue -/

/-- An instruction whose checks pass is posted and worked on (R8, R56). -/
theorem State.issueVector_posts {s : State} {v : VInstr} (hp : s.vectorPosts v) (hc : commitsAtPosting v = false) :
    s.issueVector v = (s.inFlight s.hart.strip s.hart.vrf s.hart.masks (s.entryOf v) .empty).settle := by
  obtain ⟨hv, -, -, -, -, hb, -, -, hi, hres, hu⟩ := hp
  have pending : (capturedRegs v ++ (postedDest v).toList).any s.hart.pendingX = false := by
    rw [List.any_eq_false]
    intro r _
    simp [Hart.pendingX_nil hv r]
  have slot : s.hart.slotPending v = false := by
    unfold Hart.slotPending
    split
    · simp [hv]
    · rfl
  have full : s.hart.full v = false := by simp [Hart.full, hv]
  have sound : (s.neededRegs v).find? s.hart.badX = none := by
    rw [List.find?_eq_none]
    intro r _
    simp [Hart.badX, hb]
  have posting : s.post (s.entryOf v) = s.inFlight s.hart.strip s.hart.vrf s.hart.masks (s.entryOf v) .empty :=
    State.withHart_congr (by rw [hv]; rfl)
  simp only [State.issueVector, State.issueWith, pending, slot, Bool.or_self, Bool.false_eq_true, if_false, hi, hres,
    State.classed_ok _ hu, full, sound, hc, Bool.false_and, State.drained_clean _ hb, posting]

/-! ### The beginning of an entry -/

theorem VEntry.covered_works {e : VEntry} (h : e.covered = true) : e.works = true := (Bool.and_eq_true_iff.1 h).2

/-- The strip of a hart once the shadows of the registers that an instruction writes are kept (R23). -/
def State.begunStrip (s : State) (v : VInstr) : Option Strip :=
  if (s.entryOf v).works then (s.hart.shadowWrites (s.entryOf v) (vwrites v).dedup).strip else s.hart.strip

/-- The result of an entry that begins: its recheck, and the prior contents of what it writes (R141, R201). -/
def State.begunResult (s : State) (v : VInstr) : VResult :=
  { VResult.empty with
    phase := if s.effectiveMode = 0 ∨ (s.entryOf v).covered = false then .off else .held
    prior := if (s.entryOf v).works then (vwrites v).dedup.map fun d => (d, regSlice s.hart.vrf d) else []
    priorMask := if (s.entryOf v).works then (vmaskWrite v).map fun m => (m, maskSlice s.hart.masks m) else none }

/-- The entry of an instruction that is at work on element group `n`. -/
def State.entryAt (s : State) (v : VInstr) (n : Nat) : VEntry := { s.entryOf v with begun := true, done := n }

/-- The state in which the entry of an instruction has begun. -/
def State.begun (s : State) (v : VInstr) : State :=
  s.inFlight (s.begunStrip v) s.hart.vrf s.hart.masks (s.entryAt v (s.entryOf v).done) (s.begunResult v)

/-- The shadows kept at an entry go to the open strip. -/
theorem Hart.shadowWrites_inFlight {h : Hart} (hc : h.closing = []) (masks : Mem) (e : VEntry) (r : VResult) (x : VEntry)
    (rs : List VReg) : (h.inFlight h.strip h.vrf masks e r).shadowWrites x rs =
      h.inFlight (h.shadowWrites x rs).strip h.vrf masks e r := by
  have strip : (h.inFlight h.strip h.vrf masks e r).stripOf x.strip = h.stripOf x.strip := rfl
  unfold Hart.shadowWrites
  rw [strip]
  cases h.stripOf x.strip with
  | none => rfl
  | some t =>
    simp only [Hart.mapStrip, Hart.inFlight, Hart.goto, hc, List.map_nil]

theorem Hart.shadowWrites_ids (h : Hart) (e : VEntry) (rs : List VReg) :
    (h.shadowWrites e rs).strip.map (fun t => t.id) = h.strip.map fun t => t.id := by
  unfold Hart.shadowWrites
  split
  · rfl
  · simp only [Hart.mapStrip, Option.map_map]
    refine congrArg (fun f => h.strip.map f) (funext fun t => ?_)
    simp only [Function.comp_apply]
    split <;> rfl

/-- The open strip is the same strip when its shadows are kept. -/
theorem State.begunStrip_ids (s : State) (v : VInstr) : (s.begunStrip v).map (fun t => t.id) = s.hart.strip.map fun t => t.id := by
  unfold State.begunStrip
  split
  · exact s.hart.shadowWrites_ids ..
  · rfl

theorem State.begunStrip_none (s : State) (v : VInstr) : s.begunStrip v = none ↔ s.hart.strip = none := by
  have ids := s.begunStrip_ids v
  cases hs : s.hart.strip <;> cases hb : s.begunStrip v <;> simp [hs, hb] at ids ⊢

section
variable {s : State} {v : VInstr}

theorem State.idleUnits.others_slots (hi : s.idleUnits) :
    ((s.others.filter fun k => k.core == s.hart.core && !k.marks.removed).flatMap fun k => k.viq) = [] := by
  rw [List.flatMap_eq_nil_iff]
  intro k hk
  rw [List.mem_filter, Bool.and_eq_true, beq_iff_eq] at hk
  exact hi k hk.1 hk.2.1

/-- The one entry posted in the core is the current hart's (R201). -/
theorem State.coreSlots_inFlight {st : Option Strip} {vrf masks : Mem} {e : VEntry} {r : VResult} (hp : s.vectorPosts v) :
    (s.inFlight st vrf masks e r).coreSlots = [⟨e, r⟩] := by
  obtain ⟨-, -, hrem, -, hh, -, -, hi, -⟩ := hp
  have placed : (s.inFlight st vrf masks e r).placed = s.hart.inFlight st vrf masks e r :: s.others := if_neg (by
    rw [show (s.inFlight st vrf masks e r).hart.marks.halted = s.hart.marks.halted from rfl, hh]
    decide)
  have own : ((s.hart.inFlight st vrf masks e r).core == (s.inFlight st vrf masks e r).hart.core &&
      !(s.hart.inFlight st vrf masks e r).marks.removed) = true := by
    rw [show (s.hart.inFlight st vrf masks e r).marks.removed = s.hart.marks.removed from rfl, hrem]
    simp [State.inFlight]
  have rest := hi.others_slots
  rw [State.coreSlots, placed, List.filter_cons, if_pos own, List.flatMap_cons]
  exact congrArg (⟨e, r⟩ :: ·) rest

/-- An entry takes its recheck entry at once where no other is open (R199, R201, R206). -/
theorem State.takeRecheck_inFlight (hp : s.vectorPosts v) {st : Option Strip} {vrf masks : Mem} :
    (s.inFlight st vrf masks (s.entryOf v) .empty).takeRecheck (s.entryOf v) =
      ran (s.inFlight st vrf masks (s.entryOf v) { VResult.empty with phase := (s.begunResult v).phase }) := by
  have he : (s.entryOf v).complete = false := rfl
  have slots := State.coreSlots_inFlight (st := st) (vrf := vrf) (masks := masks) (e := s.entryOf v) (r := .empty) hp
  have overdue : (s.inFlight st vrf masks (s.entryOf v) .empty).overdue = false := by
    rw [State.overdue, slots]
    rfl
  have held : (s.inFlight st vrf masks (s.entryOf v) .empty).entriesHeld = 0 := by
    rw [State.entriesHeld, slots]
    rfl
  have waiters : ∀ t, (s.inFlight st vrf masks (s.entryOf v) .empty).waitersBefore t = 0 := fun t => by
    rw [State.waitersBefore, slots]
    rfl
  have mode : (s.inFlight st vrf masks (s.entryOf v) .empty).effectiveMode = s.effectiveMode := rfl
  unfold State.takeRecheck
  by_cases hc : (s.entryOf v).covered = true
  · by_cases h0 : s.effectiveMode = 0
    · simp [hc, overdue, mode, h0, he, State.begunResult]
    · simp [hc, overdue, mode, h0, he, held, waiters, State.begunResult]
  · rw [Bool.not_eq_true] at hc
    simp only [hc, State.begunResult, or_true, if_true, Bool.not_false]
    rfl

/-- The prior contents of the destinations are kept (R23, R141). -/
theorem State.savePrior_inFlight (hc : s.hart.closing = []) (p : RecheckPhase) :
    (s.inFlight s.hart.strip s.hart.vrf s.hart.masks (s.entryOf v) { VResult.empty with phase := p }).savePrior (s.entryOf v) =
      s.inFlight (s.begunStrip v) s.hart.vrf s.hart.masks (s.entryOf v) { s.begunResult v with phase := p } := by
  have he : (s.entryOf v).complete = false := rfl
  unfold State.savePrior State.begunStrip State.begunResult
  by_cases hw : (s.entryOf v).works = true
  · have shadows : ((s.inFlight s.hart.strip s.hart.vrf s.hart.masks (s.entryOf v) { VResult.empty with phase := p }).withHart
        fun h => h.shadowWrites (s.entryOf v) (vwrites (s.entryOf v).instr).dedup) =
        s.inFlight (s.hart.shadowWrites (s.entryOf v) (vwrites v).dedup).strip s.hart.vrf s.hart.masks (s.entryOf v)
          { VResult.empty with phase := p } := by
      exact State.withHart_congr (s := s) (f := fun h => (h.inFlight s.hart.strip s.hart.vrf s.hart.masks (s.entryOf v)
        { VResult.empty with phase := p }).shadowWrites (s.entryOf v) (vwrites v).dedup) (g := fun h => h.inFlight
          (s.hart.shadowWrites (s.entryOf v) (vwrites v).dedup).strip s.hart.vrf s.hart.masks (s.entryOf v)
          { VResult.empty with phase := p }) (Hart.shadowWrites_inFlight hc ..)
    simp only [hw, Bool.not_true, Bool.false_eq_true, if_false, if_true, shadows, State.withResult_inFlight he]
    rfl
  · rw [Bool.not_eq_true] at hw
    simp only [hw, Bool.not_false, if_true, Bool.false_eq_true, if_false]
    rfl

theorem State.gatherPops_none (u : State) (e : VEntry) {rs : List VReg} (h : ∀ r ∈ rs, u.hart.streamOn r = none) :
    u.gatherPops e rs = (u, []) := by
  induction rs with
  | nil => rfl
  | cons r rest ih =>
    rw [State.gatherPops, h r (List.mem_cons_self ..)]
    exact ih fun q hq => h q (List.mem_cons_of_mem r hq)

/-- An instruction whose sources are no streams pops nothing (R261). -/
theorem State.popsOf_none (u : State) (e : VEntry) {rs : List VReg} (h : ∀ r ∈ rs, u.hart.streamOn r = none) :
    u.popsOf e rs.dedup = (u, []) := by
  unfold State.popsOf
  split
  · rfl
  · exact u.gatherPops_none e fun r hr => h r (List.mem_dedup.1 hr)

theorem State.badSource_none {u : State} (e : VEntry) (ps : List VReg) (hb : u.hart.marks.badRegs = []) : u.badSource e ps = none := by
  unfold State.badSource
  cases e.instr <;> simp [hb]

/-- The one entry posted waits for no older one (R183). -/
theorem State.writersOpen_inFlight {st : Option Strip} {vrf masks : Mem} {e : VEntry} {r : VResult} :
    (s.inFlight st vrf masks e r).writersOpen e = false := by
  unfold State.writersOpen
  simp

theorem State.refetched_plain {u : State} {e : VEntry} (hg : usesGrid e.instr = false) : u.refetched e = ran u := by
  unfold State.refetched
  cases hi : e.instr <;> simp [hi, usesGrid] at hg ⊢

/-- A plain instruction without streams whose addresses are aligned begins (R201, R206, R376). -/
theorem State.beginEntry_inFlight (hr : s.vectorReady v) (hg : PlainVector v)
    (ha : ∀ go, (s.inFlight s.hart.strip s.hart.vrf s.hart.masks (s.entryOf v) .empty).alignedFirst (s.entryOf v) go =
      go (s.inFlight s.hart.strip s.hart.vrf s.hart.masks (s.entryOf v) .empty)) :
    (s.inFlight s.hart.strip s.hart.vrf s.hart.masks (s.entryOf v) .empty).beginEntry (s.entryOf v) = ran (s.begun v) := by
  obtain ⟨hp, hstr⟩ := hr
  obtain ⟨hv, -, -, -, -, hb, ho, -⟩ := id hp
  have he : (s.entryOf v).complete = false := rfl
  have hgrid : usesGrid (s.entryOf v).instr = false := hg.grid
  have sound : (s.inFlight s.hart.strip s.hart.vrf s.hart.masks (s.entryOf v) .empty).badSource (s.entryOf v) [] = none :=
    State.badSource_none _ _ hb
  unfold State.beginEntry
  rw [if_neg (show ¬(s.entryOf v).begun = true from Bool.false_ne_true)]
  rw [if_neg (by simp [hgrid, State.writersOpen_inFlight])]
  rw [State.popsOf_none (s.inFlight s.hart.strip s.hart.vrf s.hart.masks (s.entryOf v) .empty) _
    (rs := vreads (s.entryOf v).instr) hstr]
  simp only [State.popStop, List.findSome?_nil, List.any_nil, Bool.false_eq_true, if_false, ran, List.foldl_nil, ha,
    State.soundSources, List.map_nil, sound]
  simp only [State.refetched_plain hgrid, ran, State.takeRecheck_inFlight hp]
  rw [State.savePrior_inFlight (ho.closing_nil hv), State.withEntry_inFlight he]
  rfl

end

end Sys2Proof.Machine
end
end

section
/-! PROOFS. What a plain instruction delivers as its entry retires, or leaves for its recheck (R8, R78, R142, R201, R203). -/

noncomputable section

namespace Sys2Proof.Machine

/-! ### Nothing becomes visible -/

/-- Where no strip is closing and every buffered store waits, nothing becomes visible (R24, R238). -/
theorem State.settleStores_waiting {s : State} (hc : s.hart.closing = []) (hb : ∀ e ∈ s.hart.sbuf, s.hart.visible e = false) :
    s.settleStores = s := by
  have still : (s.withHart fun h => { h with closing := h.closing.filter fun t => decide (h.oldest ≤ t.closedAt) }) = s := by
    refine (State.withHart_congr (g := id) ?_)
    rw [hc, List.filter_nil, ← hc]
    rfl
  have none : s.hart.sbuf.filter s.hart.visible = [] := List.filter_eq_nil_iff.2 fun e he => by simp [hb e he]
  have all : s.hart.sbuf.filter (fun e => !s.hart.visible e) = s.hart.sbuf := List.filter_eq_self.2 fun e he => by simp [hb e he]
  rw [State.settleStores, still, State.flushStores, none, List.foldl_nil]
  refine (State.withHart_congr (g := id) ?_)
  rw [all]
  rfl

/-- A store of the open strip waits while the strip is open. -/
theorem Hart.visible_of_open {h : Hart} {e : StoreEntry} (he : ∃ t ∈ h.strip.toList, t.id = e.strip) : h.visible e = false := by
  obtain ⟨t, ht, hid⟩ := he
  have found : ((h.strip.toList ++ h.closing).find? fun t => t.id == e.strip).isSome = true := by
    rw [List.find?_isSome]
    exact ⟨t, List.mem_append_left _ ht, by simp [hid]⟩
  unfold Hart.visible Hart.stripOf
  rw [← Option.not_isSome, found]
  simp

/-! ### Results -/

/-- What was written shows in the registers and masks alone. -/
theorem State.writesOut_congr {s t u : State} {out : VectorOut} (hv : t.hart.vrf = u.hart.vrf) (hm : t.hart.masks = u.hart.masks) :
    s.writesOut t out ↔ s.writesOut u out := by
  unfold State.writesOut
  rw [hv, hm]

/-- An entry's result holds what an instruction delivers as it retires. -/
structure VResult.holds (r : VResult) (out : VectorOut) : Prop where
  flags : r.fflags = out.flags
  scalar : r.scalar = out.scalar
  count : r.count = out.count
  order : r.order = out.order

/-- What delivering a result leaves of a hart: its vector status and one scalar register. -/
theorem Hart.deliver_eq {h : Hart} {r : VResult} {out : VectorOut} (hr : r.holds out) (hb : h.marks.badRegs = []) :
    (∃ x, h.deliver r = { h with
      scalar := { h.scalar with x := x }
      v := ({ h.v with fflags := h.v.fflags ||| out.flags }.withCount out.count).withOrder out.order }) ∧
    ∀ q, (h.deliver r).readX q =
      match out.scalar with
      | some (d, w) => if q = d ∧ d ≠ 0 then w else h.readX q
      | none => h.readX q := by
  unfold Hart.deliver
  rw [← hr.flags, ← hr.scalar, ← hr.count, ← hr.order]
  cases r.scalar with
  | none => exact ⟨⟨h.scalar.x, rfl⟩, fun q => rfl⟩
  | some p =>
    obtain ⟨d, w⟩ := p
    exact ⟨⟨_, Hart.writeX_sameButX _ d w hb⟩, fun q => Hart.readX_writeX _ d q w⟩

/-! ### Retirement -/

section
variable {s : State} {v : VInstr} {vrf masks : Mem} {e : VEntry} {r : VResult} {out : VectorOut}

/-- The complete entry of an instruction whose results are known. -/
def VEntry.completeOf (e : VEntry) (s : State) (v : VInstr) : Prop := ∃ n, e = { s.entryAt v n with complete := true }

theorem Hart.quiet.inFlight_invisible (hq : s.hart.quiet) (st : Option Strip)
    (hs : st.map (fun t => t.id) = s.hart.strip.map fun t => t.id) {k : Hart} (hk : k.strip = st) (hb : k.sbuf = s.hart.sbuf) :
    ∀ x ∈ k.sbuf, k.visible x = false := by
  intro x hx
  rw [hb] at hx
  obtain ⟨t, ht, hid⟩ := hq.2 x hx
  rw [Option.mem_toList] at ht
  rw [ht] at hs
  obtain ⟨u, hu, hui⟩ := Option.map_eq_some_iff.1 hs
  exact Hart.visible_of_open ⟨u, by rw [hk, hu]; simp, hui.trans hid⟩

/-- An entry without a recheck may retire as soon as it is complete (R8, R199). -/
theorem State.mayRetire_unchecked (he : e.completeOf s v) (hu : s.unchecked v) (hphase : r.phase = (s.begunResult v).phase) :
    (s.inFlight (s.begunStrip v) vrf masks e r).mayRetire ⟨e, r⟩ = true := by
  obtain ⟨n, rfl⟩ := he
  have off : r.phase = .off := by
    rw [hphase]
    exact if_pos hu
  have unforced : ((s.entryOf v).covered && s.forced && s.hart.marks.test.isNone) = false := by
    rcases hu with h0 | hc
    · unfold State.effectiveMode at h0
      cases ht : s.hart.marks.test with
      | some t => simp
      | none =>
        rw [ht] at h0
        by_cases hf : s.forced = true
        · simp [hf] at h0
        · simp [hf]
    · simp [hc]
  have must : (s.inFlight (s.begunStrip v) vrf masks { s.entryAt v n with complete := true } r).mustCheck
      ⟨{ s.entryAt v n with complete := true }, r⟩ = false := by
    have : ((s.inFlight (s.begunStrip v) vrf masks { s.entryAt v n with complete := true } r).mustCheck
      ⟨{ s.entryAt v n with complete := true }, r⟩) = (r.phase == .off && (s.entryOf v).covered && s.forced &&
        s.hart.marks.test.isNone) := rfl
    rw [this, off]
    simpa using unforced
  simp [State.mayRetire, must, off]

/-- An entry whose recheck is open stays (R203). -/
theorem State.retireReady_held (hu : ¬ s.unchecked v) (hphase : r.phase = (s.begunResult v).phase) (n : Nat) :
    State.retireReady (n + 1) (s.inFlight (s.begunStrip v) vrf masks e r) = s.inFlight (s.begunStrip v) vrf masks e r := by
  have held : r.phase = .held := by
    rw [hphase]
    exact if_neg hu
  simp [State.retireReady, State.mayRetire, State.holdHead, State.mustCheck, held]

/-- An entry that retires delivers its result (R8, R78, R142). -/
theorem State.retire_delivers (hr : s.vectorPosts v) (hres : r.holds out) (ho : out.order = none)
    (hw : s.writesOut (s.inFlight (s.begunStrip v) vrf masks e r) out) :
    s.delivers ((s.inFlight (s.begunStrip v) vrf masks e r).retireHead ⟨e, r⟩) out := by
  obtain ⟨hv, -, -, -, -, hb, hord, -⟩ := hr
  have quiet : s.hart.quiet := hord.2.2.2.2.2.2 hv
  obtain ⟨⟨x, hx⟩, reads⟩ := Hart.deliver_eq (h := s.hart.inFlight (s.begunStrip v) vrf masks e r) hres hb
  generalize hk : (s.hart.inFlight (s.begunStrip v) vrf masks e r).deliver r = k at hx reads
  have settled : (s.inFlight (s.begunStrip v) vrf masks e r).retire ⟨e, r⟩ =
      s.withHart fun _ => { k.dropHead e.seq with scalar := { (k.dropHead e.seq).scalar with vret := (k.dropHead e.seq).scalar.vret + 1 } } := by
    unfold State.retire
    rw [State.settleStores_waiting]
    · exact State.withHart_congr (s := s) (f := fun h =>
        let k := ((h.inFlight (s.begunStrip v) vrf masks e r).deliver r).dropHead e.seq
        { k with scalar := { k.scalar with vret := k.scalar.vret + 1 } }) (by simp only [hk])
    all_goals
      simp only [State.withHart_hart, State.inFlight, hk]
      rw [hx]
    · exact quiet.1
    · exact quiet.inFlight_invisible (s.begunStrip v) (s.begunStrip_ids v) rfl rfl
  have head : (s.inFlight (s.begunStrip v) vrf masks e r).retireHead ⟨e, r⟩ =
      (s.inFlight (s.begunStrip v) vrf masks e r).retire ⟨e, r⟩ := by
    unfold State.retireHead
    rw [show (⟨e, r⟩ : VSlot).r.order = none from hres.order.trans ho]
  rw [head, settled]
  refine ⟨(State.writesOut_congr ?_ ?_).2 hw, reads, ?_, ?_, ?_, ?_, rfl, fun _ => rfl⟩
  · simp only [State.withHart_hart, Hart.dropHead, hx]
    rfl
  · simp only [State.withHart_hart, Hart.dropHead, hx]
    rfl
  · simp only [State.withHart_hart, Hart.dropHead, hx]
    rfl
  · simp only [State.withHart_hart, Hart.dropHead, hx]
    rfl
  · simp only [State.withHart_hart, Hart.dropHead, hx]
    rw [hv]
    rfl
  · simp only [State.withHart_hart, Hart.dropHead, hx]
    exact s.begunStrip_none v

/-- An entry whose recheck is open has written its registers and masks (R201, R203). -/
theorem State.inFlight_awaits (he : e.completeOf s v) (hu : ¬ s.unchecked v)
    (hphase : r.phase = (s.begunResult v).phase) (hres : r.holds out)
    (hw : s.writesOut (s.inFlight (s.begunStrip v) vrf masks e r) out) :
    s.awaits (s.inFlight (s.begunStrip v) vrf masks e r) out := by
  obtain ⟨n, rfl⟩ := he
  have held : r.phase = .held := by
    rw [hphase]
    exact if_neg hu
  exact ⟨hw, fun _ => rfl, rfl, rfl, ⟨_, rfl, rfl, held, hres.flags, hres.scalar, hres.count, hres.order⟩, rfl,
    s.begunStrip_none v, rfl, fun _ => rfl⟩

/-! ### From issue to retirement -/

/-- The work on a plain entry that is the only one posted (R8, R20). -/
theorem State.settle_inFlight {st : Option Strip} (hr : s.vectorPosts v) (hg : PlainVector v) (hv : e.instr = v)
    (hc : e.complete = false) :
    (s.inFlight st vrf masks e r).settle =
      let t := (s.inFlight st vrf masks e r).workEntry false ⟨e, r⟩
      State.retireReady t.hart.viq.length t := by
  obtain ⟨-, hlead, hrem, hsav, -⟩ := hr
  have lead : (s.inFlight st vrf masks e r).hart.lead = 0 := hlead
  have removed : (s.inFlight st vrf masks e r).hart.marks.removed = false := hrem
  have saving : (s.inFlight st vrf masks e r).hart.marks.saving = false := hsav
  have own : (s.inFlight st vrf masks e r).ownTurn ⟨e, r⟩ = true := by
    simp [State.ownTurn, hv, hg.grid, hg.merge]
  have early : State.retireReady 1 (s.inFlight st vrf masks e r) = s.inFlight st vrf masks e r := by
    simp [State.retireReady, State.mayRetire, State.holdHead, hc]
  simp [State.settle, lead, State.work, State.workOn, hc, own, removed, early, saving]

/-- What comes of a plain entry whose work ends without a stop (R8, R78, R201). -/
theorem State.delivers_of_run {i : Instr} (hi : posted i = some v) (hr : s.vectorReady v) (hg : PlainVector v)
    (ha : ∀ go, (s.inFlight s.hart.strip s.hart.vrf s.hart.masks (s.entryOf v) .empty).alignedFirst (s.entryOf v) go =
      go (s.inFlight s.hart.strip s.hart.vrf s.hart.masks (s.entryOf v) .empty))
    (hrun : (s.begun v).runEntry (s.entryAt v (s.entryOf v).done) false = ran (s.inFlight (s.begunStrip v) vrf masks e r))
    (he : e.completeOf s v)
    (hphase : r.phase = (s.begunResult v).phase) (hres : r.holds out) (ho : out.order = none)
    (hw : s.writesOut (s.inFlight (s.begunStrip v) vrf masks e r) out) :
    (s.unchecked v → ∃ t, exec i s = .next t ∧ s.delivers t out) ∧
      (¬ s.unchecked v → ∃ t, exec i s = .next t ∧ s.awaits t out) := by
  have working : (s.begun v).hart.working = some ⟨s.entryAt v (s.entryOf v).done, s.begunResult v⟩ := State.inFlight_working rfl
  have work : (s.inFlight s.hart.strip s.hart.vrf s.hart.masks (s.entryOf v) .empty).workEntry false ⟨s.entryOf v, .empty⟩ =
      s.inFlight (s.begunStrip v) vrf masks e r := by
    have attempt : (s.inFlight s.hart.strip s.hart.vrf s.hart.masks (s.entryOf v) .empty).attempt ⟨s.entryOf v, .empty⟩ false =
        ran (s.inFlight (s.begunStrip v) vrf masks e r) := by
      rw [State.attempt, State.beginEntry_inFlight hr hg ha]
      simp only [ran, working, Option.map_some, Option.getD_some]
      exact hrun
    simp [State.workEntry, attempt, ran]
  have done : exec i s = .next (State.retireReady 1 (s.inFlight (s.begunStrip v) vrf masks e r)) := by
    rw [exec_posted hi hg.tile, State.issueVector_posts hr.1 hg.commits, State.settle_inFlight hr.1 hg rfl rfl, work]
    rfl
  constructor
  · intro hun
    refine ⟨_, done, ?_⟩
    have := State.mayRetire_unchecked (vrf := vrf) (masks := masks) he hun hphase
    simpa [State.retireReady, this] using State.retire_delivers hr.1 hres ho hw
  · intro hun
    refine ⟨_, done, ?_⟩
    rw [State.retireReady_held hun hphase]
    exact State.inFlight_awaits he hun hphase hres hw

/-- The primary run of an entry is complete; a hart without errors has none to clear (R201, R380). -/
theorem State.finishEntry_inFlight {st : Option Strip} (hb : s.hart.marks.badRegs = []) (hc : e.complete = false) (x : VEntry) :
    (s.inFlight st vrf masks e r).finishEntry x =
      s.inFlight st vrf masks { e with complete := true } { r with stamp := s.cycle, priorBad := [] } := by
  have gone : (s.inFlight st vrf masks e r).rewritten x = [] := by
    have bad : (s.inFlight st vrf masks e r).hart.marks.badRegs = [] := hb
    unfold State.rewritten
    simp [bad]
  unfold State.finishEntry
  rw [gone]
  refine (State.withHart_congr (s := s) (f := fun h => ({ h.inFlight st vrf masks e r with
    marks := { (h.inFlight st vrf masks e r).marks with
      badRegs := (h.inFlight st vrf masks e r).marks.badRegs.filter fun b => !([] : List ErrorPlace).contains b } } : Hart).withWorking
        fun q => { e := { q.e with complete := true }, r := { q.r with stamp := s.cycle, priorBad := [] } })
    (g := fun h => h.inFlight st vrf masks { e with complete := true } { r with stamp := s.cycle, priorBad := [] }) ?_)
  have same : ({ s.hart.inFlight st vrf masks e r with
      marks := { (s.hart.inFlight st vrf masks e r).marks with
        badRegs := (s.hart.inFlight st vrf masks e r).marks.badRegs.filter fun b => !([] : List ErrorPlace).contains b } } : Hart) =
      s.hart.inFlight st vrf masks e r := by
    have bad : (s.hart.inFlight st vrf masks e r).marks.badRegs = [] := hb
    simp only [bad, List.filter_nil]
    rw [← bad]
  rw [same, Hart.withWorking_inFlight hc]

end

end Sys2Proof.Machine
end
end

section
/-! PROOFS. Instructions that work element group by element group: the elementwise instructions and the compares (R19, R22, R91). -/

noncomputable section

namespace Sys2Proof.Machine

/-! ### The groups of an entry, one after another -/

/-- When each group of an entry does what `S` says of its elements, all that are left together do what `S` says of them all. -/
theorem State.runGroups_fold {α : Type} {e : VEntry} {total lw : Nat} {fly : Nat → α → State} {S : List (Nat × Nat) → α → α}
    {I : α → Prop} (hnil : ∀ a, S [] a = a) (happ : ∀ l k a, S (l ++ k) a = S k (S l a))
    (hstep : ∀ g a, g < total → I a → (fly g a).runGroup { e with done := g } g = ran (fly g (S (e.groupElems lw g) a)))
    (hI : ∀ g a, g < total → I a → I (S (e.groupElems lw g) a))
    (hdone : ∀ g a, ((fly g a).withEntry fun e => { e with done := g + 1 }) = fly (g + 1) a) (fuel g : Nat) (a : α) (ha : I a)
    (hf : total ≤ g + fuel) :
    State.runGroups e total fuel g (fly g a) =
      ran ((fly (max g total) (S ((List.range (total - g)).map fun i => e.groupElems lw (g + i)).flatten a)).finishEntry e) := by
  induction fuel generalizing g a with
  | zero =>
    have past : total ≤ g := hf
    simp [State.runGroups, past, Nat.sub_eq_zero_of_le past, hnil]
  | succ fuel ih =>
    by_cases past : total ≤ g
    · simp [State.runGroups, past, Nat.sub_eq_zero_of_le past, hnil]
    · have lt : g < total := Nat.lt_of_not_le past
      have rest : total - g = 1 + (total - (g + 1)) := by omega
      rw [State.runGroups, if_neg past, hstep g a lt ha]
      simp only [ran, hdone]
      rw [ih (g + 1) _ (hI g a lt ha) (by omega), rest, List.range_add, List.map_append, List.flatten_append, happ, List.map_map,
        show max (g + 1) total = max g total by omega]
      simp [ran, Function.comp_def, Nat.add_assoc]

/-! ### Elements that an instruction executes -/

section
variable {s : State} {v : VInstr}

/-- The tile of an instruction whose checks pass fits its registers (R14). -/
theorem State.vectorPosts.fits (hp : s.vectorPosts v) : ∀ b ∈ vtiles v, s.fits b s.hart.v.vrows s.hart.v.vl = true := by
  obtain ⟨-, -, -, -, -, -, -, -, -, hres, -⟩ := hp
  rw [← List.all_eq_true]
  unfold State.issueReserved at hres
  split at hres
  iterate 6 rfl
  · rw [ite_eq_right_iff] at hres
    simp only [reduceCtorEq, imp_false, Bool.or_eq_true, not_or, Bool.not_eq_true', Bool.not_eq_false] at hres
    exact hres.2

/-- An instruction that works group by group skips the elements that were complete before (R22). -/
theorem State.resumed_groupwise (hg : s.groupwise v = true) : s.resumed v = s.firstElem := by
  unfold State.resumed State.firstElem
  rw [hg, Bool.and_true]

/-- The elements of the tile that are not complete yet and active are those that the instruction executes (R22, R91). -/
theorem State.executed_filter (hg : s.groupwise v = true) (m : MReg) :
    ((tileElems s.hart.v.vrows s.hart.v.vl).filter fun p => decide ((s.entryOf v).skip ≤ p.1 * s.hart.v.vl + p.2)).filter
        (fun p => mget s.hart.masks m (p.1 * s.hart.v.vl + p.2)) =
      (tileElems s.hart.v.vrows s.hart.v.vl).filter fun p => s.executes m p.1 p.2 := by
  rw [List.filter_filter]
  refine List.filter_congr fun p hp => ?_
  obtain ⟨hr, he⟩ := mem_tileElems.1 hp
  have skip : (s.entryOf v).skip = s.firstElem := State.resumed_groupwise hg
  simp [State.executes, State.active, hr, he, skip]

theorem State.mem_executed {m : MReg} {row el : Nat} :
    (row, el) ∈ (tileElems s.hart.v.vrows s.hart.v.vl).filter (fun p => s.executes m p.1 p.2) ↔ s.executes m row el = true := by
  rw [List.mem_filter, mem_tileElems]
  refine ⟨fun h => h.2, fun h => ⟨?_, h⟩⟩
  simp only [State.executes, State.active, Bool.and_eq_true, decide_eq_true_eq] at h
  exact h.1.1

/-- Elements written in one register, and nothing else (R91). -/
theorem State.writesOut_vsets {t : State} {d : VReg} {bits : Nat} {l : List (Nat × Nat)} {f g : Nat → Nat → Nat} {out : VectorOut}
    {p : Nat → Nat → Bool} (hwf : Memory.wf s.hart.vrf = true) (hb : bits ∈ elementBits) (hl : inRange l)
    (hv : t.hart.vrf = vsets d.val bits f l s.hart.vrf) (hm : t.hart.masks = s.hart.masks)
    (hmem : ∀ row el, (row, el) ∈ l ↔ p row el = true) (hfg : ∀ row el, f row el % 2 ^ bits = g row el % 2 ^ bits)
    (hregs : out.regs = [(d, bits, fun row el => if p row el then some (g row el) else none)]) (hmask : out.mask = none) :
    s.writesOut t out := by
  refine ⟨?_, ?_, ?_⟩
  · rw [hregs]
    simp only [List.mem_singleton, forall_eq]
    intro row el _ he
    rw [hv, vget_vsets hb d.val f hl hwf he]
    by_cases hp : p row el = true
    · simp [hp, (hmem row el).2 hp, hfg]
    · rw [if_neg fun h => hp ((hmem row el).1 h), if_neg hp]
      rfl
  · rw [hregs]
    simp only [List.mem_singleton, forall_eq]
    intro r hne
    rw [hv, regSlice_vsets hb hne f hl]
  · intro m q
    rw [hmask, hm]

/-- Bits written in one mask register, and nothing else (R91). -/
theorem State.writesOut_msets {t : State} {d : MReg} {l : List (Nat × Nat)} {f : Nat → Nat → Bool} {out : VectorOut}
    {p : Nat → Nat → Bool} (hwf : Memory.wf s.hart.masks = true) (hl : ∀ q ∈ l, q.2 < s.hart.v.vl)
    (hv : t.hart.vrf = s.hart.vrf) (hm : t.hart.masks = msets d s.hart.v.vl f l s.hart.masks)
    (hmem : ∀ row el, (row, el) ∈ l ↔ p row el = true) (hregs : out.regs = [])
    (hmask : out.mask = some (d, fun q => if p (q / s.hart.v.vl) (q % s.hart.v.vl) then
      some (f (q / s.hart.v.vl) (q % s.hart.v.vl)) else none)) : s.writesOut t out := by
  refine ⟨?_, ?_, ?_⟩
  · rw [hregs]
    exact fun w hw => absurd hw List.not_mem_nil
  · intro r _
    rw [hv]
  · intro m q
    rw [hmask, hm, mget_msets d m f hl hwf q]
    dsimp only
    by_cases hc : m = d ∧ d ≠ 0 ∧ q < maskPositions
    · rw [if_pos hc]
      by_cases hp : p (q / s.hart.v.vl) (q % s.hart.v.vl) = true
      · rw [if_pos ⟨hc.1, hc.2.1, hc.2.2, (hmem _ _).2 hp⟩, if_pos hp]
        rfl
      · rw [if_neg fun h => hp ((hmem _ _).1 h.2.2.2), if_neg hp]
        rfl
    · rw [if_neg hc, if_neg fun h => hc ⟨h.1, h.2.1, h.2.2.1⟩]

end

theorem Flags.zero_or (f : Flags) : 0 ||| f = f := BitVec.zero_or

/-! ### Elementwise instructions and compares -/

/-- What an instruction that works group by group, reads no memory and needs no shared unit has in common (R19). -/
structure GroupwiseVector (v : VInstr) : Prop where
  plain : PlainVector v
  groupwise : ∀ h : Hart, h.groupwise v = true
  unaddressed : ∀ (u : State) (s : State) go, u.alignedFirst (s.entryOf v) go = go u
  whole : partialKind v = false
  empty : ∀ (u s : State) (n : Nat), u.amoEmpty (s.entryAt v n) = u
  works : ∀ s : State, (s.entryOf v).works = (s.hart.v.vl != 0)

section
variable {s : State} {v : VInstr} {i : Instr}

/-- The entry of an instruction that has gathered flags while it works on group `n`. -/
def State.working (s : State) (v : VInstr) (vrf masks : Mem) (n : Nat) (fl : Flags) : State :=
  s.inFlight (s.begunStrip v) vrf masks (s.entryAt v n) { s.begunResult v with fflags := fl }

theorem State.working_sources (vrf masks : Mem) (n : Nat) (fl : Flags) :
    (s.working v vrf masks n fl).sources = (sourceVrf vrf (s.begunResult v), sourceMasks masks (s.begunResult v)) := by
  unfold State.sources State.working
  rw [State.inFlight_workResult rfl]
  rfl

theorem sourceVrf_single {d : VReg} {r : VResult} (vrf src : Mem) (h : r.prior = [(d, src)]) :
    sourceVrf vrf r = restoreShadow vrf (d, src) := by
  rw [sourceVrf, h]
  rfl

/-- The prior contents of the one register that an instruction writes (R141). -/
theorem State.begunResult_prior {d : VReg} (hw : vwrites v = [d]) (hworks : (s.entryOf v).works = true) :
    (s.begunResult v).prior = [(d, regSlice s.hart.vrf d)] := by
  unfold State.begunResult
  rw [if_pos hworks, hw]
  rfl

theorem State.begunResult_noMask (hm : vmaskWrite v = none) : (s.begunResult v).priorMask = none := by
  unfold State.begunResult
  simp [hm]

theorem State.begunResult_mask {d : MReg} (hm : vmaskWrite v = some d) (hworks : (s.entryOf v).works = true) :
    (s.begunResult v).priorMask = some (d, maskSlice s.hart.masks d) := by
  unfold State.begunResult
  simp [hm, hworks]

theorem State.begunResult_noPrior (hw : vwrites v = []) : (s.begunResult v).prior = [] := by
  unfold State.begunResult
  simp [hw]

/-- A tile with element groups has elements in its rows. -/
theorem vl_of_tileGroups {lw rows vl g : Nat} (hl : 0 < lw) (h : g < tileGroups lw rows vl) : vl ≠ 0 := by
  rintro rfl
  have : groupsPerRow lw 0 = 0 := Nat.div_eq_of_lt (by omega)
  simp [tileGroups, this] at h

/-- The whole work of an entry whose groups each do what `S` says of their elements (R19, R22). -/
theorem State.runEntry_fold {α : Type} {fly : Nat → α → State} {S : List (Nat × Nat) → α → α} {I : α → Prop}
    (hgw : s.groupwise v = true) (hempty : ∀ (u s : State) (n : Nat), u.amoEmpty (s.entryAt v n) = u)
    (hfly : ∀ n a, (fly n a).groupwise v = s.groupwise v ∧ (fly n a).lw = s.lw)
    (hnil : ∀ a, S [] a = a) (happ : ∀ l k a, S (l ++ k) a = S k (S l a))
    (hstep : ∀ g a, g < tileGroups s.lw s.hart.v.vrows s.hart.v.vl → I a →
      (fly g a).runGroup (s.entryAt v g) g = ran (fly g (S ((s.entryOf v).groupElems s.lw g) a)))
    (hI : ∀ g a, g < tileGroups s.lw s.hart.v.vrows s.hart.v.vl → I a → I (S ((s.entryOf v).groupElems s.lw g) a))
    (hdone : ∀ g a, ((fly g a).withEntry fun e => { e with done := g + 1 }) = fly (g + 1) a) (a : α) (ha : I a) :
    ∃ n, (fly (s.entryOf v).done a).runEntry (s.entryAt v (s.entryOf v).done) false =
      ran ((fly n (S ((tileElems s.hart.v.vrows s.hart.v.vl).filter fun p =>
        decide ((s.entryOf v).skip ≤ p.1 * s.hart.v.vl + p.2)) a)).finishEntry (s.entryAt v (s.entryOf v).done)) := by
  obtain ⟨gw, lw⟩ := hfly (s.entryOf v).done a
  have work : (fly (s.entryOf v).done a).groupwise (s.entryAt v (s.entryOf v).done).instr = true := gw.trans hgw
  have groups : (fly (s.entryOf v).done a).entryGroups (s.entryAt v (s.entryOf v).done) =
      tileGroups s.lw s.hart.v.vrows s.hart.v.vl := by
    rw [State.entryGroups, lw]
    rfl
  have elems : ((List.range (tileGroups s.lw s.hart.v.vrows s.hart.v.vl - (s.entryOf v).done)).map fun i =>
      (s.entryAt v (s.entryOf v).done).groupElems s.lw ((s.entryOf v).done + i)).flatten =
        (tileElems s.hart.v.vrows s.hart.v.vl).filter fun p => decide ((s.entryOf v).skip ≤ p.1 * s.hart.v.vl + p.2) :=
    (s.entryOf v).remaining_flatten s.lw_pos s.hart.v.vrows
  have fold := State.runGroups_fold (e := s.entryAt v (s.entryOf v).done) (total := tileGroups s.lw s.hart.v.vrows s.hart.v.vl)
    (lw := s.lw) hnil happ hstep hI hdone (tileGroups s.lw s.hart.v.vrows s.hart.v.vl - (s.entryOf v).done) (s.entryOf v).done a ha
    (by omega)
  refine ⟨max (s.entryOf v).done (tileGroups s.lw s.hart.v.vrows s.hart.v.vl), ?_⟩
  rw [State.runEntry, if_pos work, groups, hempty]
  simp only [ite_self, Bool.false_eq_true, if_false]
  rw [elems] at fold
  exact fold

/-- What an instruction that works group by group delivers, when its groups write registers and masks and gather flags. -/
theorem State.groupwise_delivers {out : VectorOut} {S : List (Nat × Nat) → (Mem × Mem) × Flags → (Mem × Mem) × Flags}
    {I : (Mem × Mem) × Flags → Prop} (hi : posted i = some v) (hr : s.vectorReady v) (hv : PlainVector v)
    (hgw : s.groupwise v = true) (hempty : ∀ (u s : State) (n : Nat), u.amoEmpty (s.entryAt v n) = u)
    (ha : ∀ go, (s.inFlight s.hart.strip s.hart.vrf s.hart.masks (s.entryOf v) .empty).alignedFirst (s.entryOf v) go =
      go (s.inFlight s.hart.strip s.hart.vrf s.hart.masks (s.entryOf v) .empty))
    (hnil : ∀ a, S [] a = a) (happ : ∀ l k a, S (l ++ k) a = S k (S l a))
    (hstep : ∀ g a, g < tileGroups s.lw s.hart.v.vrows s.hart.v.vl → I a →
      (s.working v a.1.1 a.1.2 g a.2).runGroup (s.entryAt v g) g =
        ran (s.working v (S ((s.entryOf v).groupElems s.lw g) a).1.1 (S ((s.entryOf v).groupElems s.lw g) a).1.2 g
          (S ((s.entryOf v).groupElems s.lw g) a).2))
    (hI : ∀ g a, g < tileGroups s.lw s.hart.v.vrows s.hart.v.vl → I a → I (S ((s.entryOf v).groupElems s.lw g) a))
    (h0 : I ((s.hart.vrf, s.hart.masks), 0)) {vrf masks : Mem}
    (hS : S ((tileElems s.hart.v.vrows s.hart.v.vl).filter fun p => decide ((s.entryOf v).skip ≤ p.1 * s.hart.v.vl + p.2))
      ((s.hart.vrf, s.hart.masks), 0) = ((vrf, masks), out.flags))
    (hout : out.scalar = none ∧ out.count = none ∧ out.order = none)
    (hw : ∀ t : State, t.hart.vrf = vrf → t.hart.masks = masks → s.writesOut t out) :
    (s.unchecked v → ∃ t, exec i s = .next t ∧ s.delivers t out) ∧
      (¬ s.unchecked v → ∃ t, exec i s = .next t ∧ s.awaits t out) := by
  obtain ⟨hsc, hc, ho⟩ := hout
  obtain ⟨-, -, -, -, -, hbad, -⟩ := id hr.1
  have folded := State.runEntry_fold (s := s) (v := v) (fly := fun n a => s.working v a.1.1 a.1.2 n a.2) (S := S) (I := I)
    hgw hempty (fun _ _ => ⟨rfl, rfl⟩) hnil happ
  have settled := folded hstep hI
  obtain ⟨n, run⟩ := settled (fun g a => State.withEntry_inFlight rfl _) ((s.hart.vrf, s.hart.masks), 0) h0
  rw [hS] at run
  exact State.delivers_of_run (vrf := vrf) (masks := masks) (e := { s.entryAt v n with complete := true })
    (r := { s.begunResult v with fflags := out.flags, stamp := s.cycle, priorBad := [] }) (out := out) hi hr hv ha
    (run.trans (congrArg ran (State.finishEntry_inFlight hbad rfl _))) ⟨n, rfl⟩ rfl ⟨rfl, hsc.symm, hc.symm, ho.symm⟩ ho
    (hw _ rfl rfl)

/-- An instruction that writes the elements of one register at the positions that it executes (R91, R122 to R131). -/
theorem State.elementwise_delivers {d : VReg} {bits : Nat} {m : MReg} {F : Mem → Nat → Nat → Nat × Flags}
    {f : Nat → Nat → Nat × Flags} (hi : posted i = some v) (hr : s.vectorReady v) (hv : GroupwiseVector v)
    (hw : vwrites v = [d]) (hm : vmaskWrite v = none) (hb : bits ∈ elementBits) (ht : bits ∈ vtiles v)
    (hrun : ∀ (u : State) g, u.sources = (s.hart.vrf, s.hart.masks) →
      u.runGroup (s.entryAt v g) g = u.runElems (s.entryAt v g) g d bits m F)
    (hf : ∀ row el, (F s.hart.vrf row el).1 % 2 ^ bits = (f row el).1 % 2 ^ bits)
    (hfl : ∀ row el, (F s.hart.vrf row el).2 = (f row el).2) :
    (s.unchecked v → ∃ t, exec i s = .next t ∧ s.delivers t (s.elementwise d bits m f)) ∧
      (¬ s.unchecked v → ∃ t, exec i s = .next t ∧ s.awaits t (s.elementwise d bits m f)) := by
  obtain ⟨-, -, -, -, -, -, ⟨wfv, -⟩, -⟩ := id hr.1
  have fits := hr.1.fits bits ht
  have mask : ∀ g, (s.entryAt v g).mask m = m := fun g => by
    have : (s.entryAt v g).m15Only = (s.hart.marks.pmaskLive && partialKind v) := rfl
    rw [VEntry.mask, this, hv.whole, Bool.and_false]
    rfl
  have range : ∀ l : List (Nat × Nat), (∀ p ∈ l, p ∈ tileElems s.hart.v.vrows s.hart.v.vl) → inRange l := fun l hl p hp => by
    obtain ⟨h1, h2⟩ := mem_tileElems.1 (hl p hp)
    exact State.fits_bounds fits h1 h2
  have inTile : ∀ g, g < tileGroups s.lw s.hart.v.vrows s.hart.v.vl → ∀ p ∈ (s.entryOf v).groupElems s.lw g,
      p ∈ tileElems s.hart.v.vrows s.hart.v.vl := fun g hg p hp => by
    rw [← tileGroups_flatten s.lw_pos]
    exact List.mem_flatten.2 ⟨_, List.mem_map.2 ⟨g, List.mem_range.2 hg, rfl⟩, (List.mem_filter.1 hp).1⟩
  have prior : ∀ g, g < tileGroups s.lw s.hart.v.vrows s.hart.v.vl → (s.begunResult v).prior = [(d, regSlice s.hart.vrf d)] :=
    fun g hg => State.begunResult_prior hw (by
      rw [hv.works]
      simpa using vl_of_tileGroups s.lw_pos hg)
  refine State.groupwise_delivers (out := s.elementwise d bits m f)
    (S := fun l a => (((mapElems d.val bits s.hart.v.vl s.hart.masks m (F s.hart.vrf) l (a.1.1, a.2)).1, a.1.2),
      (mapElems d.val bits s.hart.v.vl s.hart.masks m (F s.hart.vrf) l (a.1.1, a.2)).2))
    (I := fun a => sourceVrf a.1.1 (s.begunResult v) = s.hart.vrf ∧ a.1.2 = s.hart.masks) hi hr hv.plain
    (hv.groupwise s.hart) hv.empty (fun go => hv.unaddressed _ s go) (fun _ => rfl)
    (fun l k a => by rw [mapElems_append]) ?_ ?_ ⟨?_, rfl⟩ (vrf := vsets d.val bits (fun r e => (F s.hart.vrf r e).1)
      ((tileElems s.hart.v.vrows s.hart.v.vl).filter fun p => s.executes m p.1 p.2) s.hart.vrf) (masks := s.hart.masks) ?_
    ⟨rfl, rfl, rfl⟩ ?_
  · rintro g ⟨⟨vrf, masks⟩, fl⟩ hg ⟨hvrf, hmasks⟩
    obtain rfl : masks = s.hart.masks := hmasks
    have sources : (s.working v vrf s.hart.masks g fl).sources = (s.hart.vrf, s.hart.masks) := by
      rw [State.working_sources, hvrf, sourceMasks, State.begunResult_noMask hm]
    dsimp only
    rw [hrun _ _ sources, State.runElems, sources]
    simp only [mask, State.working, State.setVrf_inFlight, State.inFlight_vrf, State.inFlight_lw, mapElems_eq]
    rw [State.gather_inFlight rfl]
    simp only [Flags.zero_or]
    rfl
  · rintro g ⟨⟨vrf, masks⟩, fl⟩ hg ⟨hvrf, hmasks⟩
    refine ⟨?_, hmasks⟩
    dsimp only at hvrf ⊢
    rw [mapElems_eq, sourceVrf_single _ _ (prior g hg), restoreShadow_vsets hb, ← sourceVrf_single _ _ (prior g hg), hvrf]
    exact range _ fun p hp => inTile g hg p (List.mem_filter.1 hp).1
  · by_cases hworks : (s.entryOf v).works = true
    · rw [sourceVrf_single _ _ (State.begunResult_prior hw hworks)]
      exact restoreShadow_self wfv d
    · have nil : (s.begunResult v).prior = [] := if_neg hworks
      rw [sourceVrf, nil]
      rfl
  · dsimp only
    rw [mapElems_eq, State.executed_filter (hv.groupwise s.hart)]
    simp only [Flags.zero_or, hfl]
    rfl
  · intro t hvrf hmasks
    exact State.writesOut_vsets (f := fun r e => (F s.hart.vrf r e).1) (g := fun r e => (f r e).1) (p := s.executes m) wfv hb
      (range _ fun p hp => (List.mem_filter.1 hp).1) hvrf hmasks (fun row el => State.mem_executed) hf rfl rfl

/-- An instruction that writes the bits of one mask register at the positions that it executes (R128, R129). -/
theorem State.compares_delivers {d m : MReg} {F : Mem → Nat → Nat → Bool × Flags} (hi : posted i = some v) (hr : s.vectorReady v)
    (hv : GroupwiseVector v) (hw : vwrites v = []) (hm : vmaskWrite v = some d)
    (hrun : ∀ (u : State) g, u.runGroup (s.entryAt v g) g = u.runMask (s.entryAt v g) g d m F) :
    (s.unchecked v → ∃ t, exec i s = .next t ∧ s.delivers t (s.compares d m (F s.hart.vrf))) ∧
      (¬ s.unchecked v → ∃ t, exec i s = .next t ∧ s.awaits t (s.compares d m (F s.hart.vrf))) := by
  obtain ⟨-, -, -, -, -, -, ⟨-, wfm, -⟩, -⟩ := id hr.1
  have prior : ∀ g, g < tileGroups s.lw s.hart.v.vrows s.hart.v.vl →
      (s.begunResult v).priorMask = some (d, maskSlice s.hart.masks d) :=
    fun g hg => State.begunResult_mask hm (by
      rw [hv.works]
      simpa using vl_of_tileGroups s.lw_pos hg)
  have before : ∀ masks, ((s.begunResult v).priorMask = some (d, maskSlice s.hart.masks d)) →
      sourceMasks masks (s.begunResult v) = restoreMask masks (d, maskSlice s.hart.masks d) := fun masks h => by
    rw [sourceMasks, h]
  refine State.groupwise_delivers (out := s.compares d m (F s.hart.vrf))
    (S := fun l a => ((a.1.1, (mapMask d s.hart.v.vl s.hart.masks m (F s.hart.vrf) l (a.1.2, a.2)).1),
      (mapMask d s.hart.v.vl s.hart.masks m (F s.hart.vrf) l (a.1.2, a.2)).2))
    (I := fun a => a.1.1 = s.hart.vrf ∧ sourceMasks a.1.2 (s.begunResult v) = s.hart.masks) hi hr hv.plain
    (hv.groupwise s.hart) hv.empty (fun go => hv.unaddressed _ s go) (fun _ => rfl)
    (fun l k a => by rw [mapMask_append]) ?_ ?_ ⟨rfl, ?_⟩ (vrf := s.hart.vrf) (masks := msets d s.hart.v.vl
      (fun r e => (F s.hart.vrf r e).1) ((tileElems s.hart.v.vrows s.hart.v.vl).filter fun p => s.executes m p.1 p.2) s.hart.masks)
    ?_ ⟨rfl, rfl, rfl⟩ ?_
  · rintro g ⟨⟨vrf, masks⟩, fl⟩ hg ⟨hvrf, hmasks⟩
    obtain rfl : vrf = s.hart.vrf := hvrf
    have sources : (s.working v s.hart.vrf masks g fl).sources = (s.hart.vrf, s.hart.masks) := by
      rw [State.working_sources, hmasks, sourceVrf, State.begunResult_noPrior hw]
      rfl
    dsimp only
    rw [hrun, State.runMask, sources]
    simp only [State.working, State.setMasks_inFlight, State.inFlight_masks, State.inFlight_lw, mapMask_eq]
    rw [State.gather_inFlight rfl]
    simp only [Flags.zero_or]
    rfl
  · rintro g ⟨⟨vrf, masks⟩, fl⟩ hg ⟨hvrf, hmasks⟩
    refine ⟨hvrf, ?_⟩
    dsimp only at hmasks ⊢
    rw [mapMask_eq, before _ (prior g hg), restoreMask_msets, ← before _ (prior g hg), hmasks]
  · by_cases hworks : (s.entryOf v).works = true
    · rw [before _ (State.begunResult_mask hm hworks)]
      exact restoreMask_self wfm d
    · have none : (s.begunResult v).priorMask = none := if_neg hworks
      rw [sourceMasks, none]
  · dsimp only
    rw [mapMask_eq, State.executed_filter (hv.groupwise s.hart)]
    simp only [Flags.zero_or]
    rfl
  · intro t hvrf hmasks
    exact State.writesOut_msets (p := s.executes m) wfm (fun q hq => (mem_tileElems.1 (List.mem_filter.1 hq).1).2) hvrf hmasks
      (fun row el => State.mem_executed) rfl rfl

end

end Sys2Proof.Machine
end
end

section
/-! PROOFS. The elementwise instructions, compares, selects and moves deliver their results (R78, R91, R122 to R131). -/

noncomputable section

namespace Sys2Proof.Machine

/-! ### Element widths -/

theorem Width.bits_mem (w : Width) : w.bits ∈ elementBits := by cases w <;> decide

theorem fbits_mem (f : FFmt) : fbits f ∈ elementBits := by cases f <;> decide

theorem codeBits_mem (c : Fin 16) : codeBits c.val ∈ elementBits := by revert c; decide

/-! ### The instructions that work group by group -/

/-- A class of the floating families is neither the exchange's nor the merge unit's. -/
theorem fclass_plain (f : FFmt) : (fclass f == 21) = false ∧ (fclass f == 12) = false := by cases f <;> decide

/-- The elementwise instructions, compares, selects and moves that work element group by element group (R19). -/
def groupwiseForm : VInstr → Bool
  | .via _ _ => true
  | .viaUnary _ _ => true
  | .viai _ _ => true
  | .vfa _ _ => true
  | .vfmm _ _ => true
  | .vfma _ _ => true
  | .vfu _ _ => true
  | .vfuNr _ _ => true
  | .vcvt _ => true
  | .vcmp _ _ => true
  | .vfcmp _ _ => true
  | .vsel _ => true
  | .vmv _ => true
  | .vbcast _ => true
  | .viota _ => true
  | _ => false

theorem GroupwiseVector.of_form {v : VInstr} (h : groupwiseForm v = true) : GroupwiseVector v := by
  have plain : PlainVector v := by
    cases v <;> simp only [groupwiseForm, Bool.false_eq_true] at h <;>
      exact ⟨rfl, by simp [commitsAtPosting, vclass, fclass_plain], rfl, by simp [usesMerge, vclass, fclass_plain]⟩
  cases v <;> simp only [groupwiseForm, Bool.false_eq_true] at h <;>
    exact ⟨plain, fun _ => rfl, fun _ _ _ => rfl, rfl, fun _ _ _ => rfl, fun _ => rfl⟩

/-- The second operand of a posted instruction whose only captured scalar is that operand (R90, R122). -/
theorem vxGet_entryAt {s : State} {v : VInstr} {b : VX} (hc : capturedRegs v = VX.scalars b) (n bits row el : Nat) :
    vxGet s.hart.vrf (s.entryAt v n) b bits row el = s.second b bits row el := by
  cases b with
  | v r => rfl
  | x r =>
    have x0 : (s.entryAt v n).x0 = s.x r := by
      show s.captured v 0 = s.x r
      rw [State.captured, hc]
      rfl
    simp only [vxGet, State.second, x0]

section
variable {s : State} {v : VInstr} {out : VectorOut} {i : Instr}

/-- What an instruction that meets no order violation delivers, as the families' tables say it. -/
theorem familyDelivers.of_delivers
    (h : (s.unchecked v → ∃ t, exec i s = .next t ∧ s.delivers t out) ∧
      (¬ s.unchecked v → ∃ t, exec i s = .next t ∧ s.awaits t out)) :
    (s.unchecked v → (out.order = none ∨ s.hart.trap.ordTrap = false) → ∃ t, exec i s = .next t ∧ s.delivers t out) ∧
      (¬ s.unchecked v → ∃ t, exec i s = .next t ∧ s.awaits t out) :=
  ⟨fun hu _ => h.1 hu, h.2⟩

end

/-! ### The families -/

section
variable {i : Instr} {s : State} {v : VInstr} {out : VectorOut}

/-- The elementwise instructions, written with the function of their elements. -/
theorem State.elementwise_of_form {d : VReg} {bits : Nat} {m : MReg} {F : Mem → Nat → Nat → Nat × Flags}
    {f : Nat → Nat → Nat × Flags} (hi : posted i = some v) (hr : s.vectorReady v) (h : groupwiseForm v = true)
    (hd : vwrites v = [d] ∧ vmaskWrite v = none) (hb : bits ∈ elementBits ∧ bits ∈ vtiles v)
    (hrun : ∀ (u : State) g, u.sources = (s.hart.vrf, s.hart.masks) →
      u.runGroup (s.entryAt v g) g = u.runElems (s.entryAt v g) g d bits m F)
    (hf : ∀ row el, F s.hart.vrf row el = f row el) :
    (s.unchecked v → ∃ t, exec i s = .next t ∧ s.delivers t (s.elementwise d bits m f)) ∧
      (¬ s.unchecked v → ∃ t, exec i s = .next t ∧ s.awaits t (s.elementwise d bits m f)) :=
  State.elementwise_delivers hi hr (.of_form h) hd.1 hd.2 hb.1 hb.2 hrun (fun row el => by rw [hf]) fun row el => by rw [hf]

theorem integer_delivers (hi : posted i = some v) (hout : integerOut s v = some out) (hr : s.vectorReady v) :
    (s.unchecked v → ∃ t, exec i s = .next t ∧ s.delivers t out) ∧
      (¬ s.unchecked v → ∃ t, exec i s = .next t ∧ s.awaits t out) := by
  unfold integerOut at hout
  split at hout
  · next op o =>
    cases hout
    exact State.elementwise_of_form (F := fun vrf r el => (viaValue op o.w.bits (vget vrf o.a.val o.w.bits r el)
      (vxGet vrf (s.entryAt (.via op o) 0) o.b o.w.bits r el), 0)) hi hr rfl ⟨rfl, rfl⟩ ⟨Width.bits_mem _, List.mem_singleton.2 rfl⟩
      (fun _ _ _ => rfl) fun row el => by rw [vxGet_entryAt rfl]; rfl
  · next op o =>
    cases hout
    exact State.elementwise_of_form (F := fun vrf r el => (viaUnaryValue op o.w.bits (vget vrf o.a.val o.w.bits r el), 0))
      hi hr rfl ⟨rfl, rfl⟩ ⟨Width.bits_mem _, List.mem_singleton.2 rfl⟩ (fun _ _ _ => rfl) fun _ _ => rfl
  · next op o =>
    cases hout
    exact State.elementwise_of_form (F := fun vrf r el => (viaValue op o.w.bits (vget vrf o.a.val o.w.bits r el)
      (wrapTo o.w.bits o.imm.toInt), 0)) hi hr rfl ⟨rfl, rfl⟩ ⟨Width.bits_mem _, List.mem_singleton.2 rfl⟩
      (fun _ _ _ => rfl) fun _ _ => rfl
  · cases hout

theorem float_delivers (hi : posted i = some v) (hout : floatOut s v = some out) (hr : s.vectorReady v) :
    (s.unchecked v → ∃ t, exec i s = .next t ∧ s.delivers t out) ∧
      (¬ s.unchecked v → ∃ t, exec i s = .next t ∧ s.awaits t out) := by
  unfold floatOut at hout
  split at hout
  · next op o =>
    cases hout
    exact State.elementwise_of_form (F := fun vrf r el => vfaValue op (FFmt.spec o.fmt) o.rm (vget vrf o.a.val (fbits o.fmt) r el)
      (vxGet vrf (s.entryAt (.vfa op o) 0) o.b (fbits o.fmt) r el)) hi hr rfl ⟨rfl, rfl⟩ ⟨fbits_mem _, List.mem_singleton.2 rfl⟩
      (fun _ _ _ => rfl) fun row el => by rw [vxGet_entryAt rfl]; rfl
  · next op o =>
    cases hout
    exact State.elementwise_of_form (F := fun vrf r el => vfmmValue op (FFmt.spec o.fmt) (vget vrf o.a.val (fbits o.fmt) r el)
      (vxGet vrf (s.entryAt (.vfmm op o) 0) o.b (fbits o.fmt) r el)) hi hr rfl ⟨rfl, rfl⟩ ⟨fbits_mem _, List.mem_singleton.2 rfl⟩
      (fun _ _ _ => rfl) fun row el => by rw [vxGet_entryAt rfl]; rfl
  · next op o =>
    cases hout
    exact State.elementwise_of_form (F := fun vrf r el => vfmaValue op (FFmt.spec o.fmt) o.rm (vget vrf o.a.val (fbits o.fmt) r el)
      (vxGet vrf (s.entryAt (.vfma op o) 0) o.b (fbits o.fmt) r el) (vget vrf o.c.val (fbits o.fmt) r el)) hi hr rfl ⟨rfl, rfl⟩
      ⟨fbits_mem _, List.mem_singleton.2 rfl⟩ (fun _ _ _ => rfl) fun row el => by rw [vxGet_entryAt rfl]; rfl
  · next op o =>
    cases hout
    exact State.elementwise_of_form (F := fun vrf r el => vfuValue op (FFmt.spec o.fmt) o.rm (vget vrf o.a.val (fbits o.fmt) r el))
      hi hr rfl ⟨rfl, rfl⟩ ⟨fbits_mem _, List.mem_singleton.2 rfl⟩ (fun _ _ _ => rfl) fun _ _ => rfl
  · next op o =>
    cases hout
    exact State.elementwise_of_form (F := fun vrf r el => (vfuNrValue op (FFmt.spec o.fmt) (vget vrf o.a.val (fbits o.fmt) r el), 0))
      hi hr rfl ⟨rfl, rfl⟩ ⟨fbits_mem _, List.mem_singleton.2 rfl⟩ (fun _ _ _ => rfl) fun _ _ => rfl
  · next o =>
    cases hout
    exact State.elementwise_of_form (F := fun vrf r el => vcvtValue o.src.val o.dst.val o.rm o.sat
      (vget vrf o.a.val (codeBits o.src.val) r el)) hi hr rfl ⟨rfl, rfl⟩ ⟨codeBits_mem _, List.mem_cons_of_mem _ (List.mem_singleton.2 rfl)⟩
      (fun _ _ _ => rfl) fun _ _ => rfl
  · cases hout

theorem maskOnes_eq_countP (masks : Mem) (m : MReg) (p n : Nat) :
    maskOnes masks m p n = (List.range n).countP fun k => mget masks m (p + k) := by
  induction n generalizing p with
  | zero => rfl
  | succ n ih =>
    rw [maskOnes, ih, List.range_succ_eq_map, List.countP_cons, List.countP_map, Nat.add_comm]
    congr 1
    exact List.countP_congr fun k _ => by simp only [Function.comp_apply, Nat.add_assoc, Nat.add_comm 1 k]

/-- What an instruction that is not worked group by group delivers, when its work writes the result of its entry. -/
theorem State.whole_delivers {vrf masks : Mem} {r : VResult} (hi : posted i = some v) (hr : s.vectorReady v) (hg : PlainVector v)
    (hgw : s.groupwise v = false)
    (ha : ∀ go, (s.inFlight s.hart.strip s.hart.vrf s.hart.masks (s.entryOf v) .empty).alignedFirst (s.entryOf v) go =
      go (s.inFlight s.hart.strip s.hart.vrf s.hart.masks (s.entryOf v) .empty))
    (hrun : (s.begun v).runWhole (s.entryAt v (s.entryOf v).done) =
      ran (s.inFlight (s.begunStrip v) vrf masks (s.entryAt v (s.entryOf v).done) r))
    (hphase : r.phase = (s.begunResult v).phase) (hres : r.holds out) (ho : out.order = none)
    (hw : ∀ t : State, t.hart.vrf = vrf → t.hart.masks = masks → s.writesOut t out) :
    (s.unchecked v → ∃ t, exec i s = .next t ∧ s.delivers t out) ∧
      (¬ s.unchecked v → ∃ t, exec i s = .next t ∧ s.awaits t out) := by
  obtain ⟨-, -, -, -, -, hbad, -⟩ := id hr.1
  have served : ∀ u : State, u.served v = u := fun u => by simp [State.served, hg.grid, hg.merge]
  have work : (s.begun v).groupwise (s.entryAt v (s.entryOf v).done).instr = false := hgw
  have run : (s.begun v).runEntry (s.entryAt v (s.entryOf v).done) false =
      ran (s.inFlight (s.begunStrip v) vrf masks { s.entryAt v (s.entryOf v).done with complete := true }
        { r with stamp := s.cycle, priorBad := [] }) := by
    rw [State.runEntry, work, hrun]
    simp only [ran, Bool.false_eq_true, if_false]
    rw [show (s.entryAt v (s.entryOf v).done).instr = v from rfl, served, State.finishEntry_inFlight hbad rfl]
    rfl
  exact State.delivers_of_run hi hr hg ha run ⟨_, rfl⟩ hphase ⟨hres.flags, hres.scalar, hres.count, hres.order⟩ ho
    (hw _ rfl rfl)

/-- VMVXS (R131). -/
theorem vmvxs_delivers (o : VmvxsOps) (hi : posted i = some (.vmvxs o)) (hout : moveOut s (.vmvxs o) = some out)
    (hr : s.vectorReady (.vmvxs o)) :
    (s.unchecked (.vmvxs o) → ∃ t, exec i s = .next t ∧ s.delivers t out) ∧
      (¬ s.unchecked (.vmvxs o) → ∃ t, exec i s = .next t ∧ s.awaits t out) := by
  have eq := Option.some.inj hout
  have sources : (s.begun (.vmvxs o)).sources.1 = s.hart.vrf := by
    rw [State.sources, State.begun, State.inFlight_workResult rfl]
    show sourceVrf s.hart.vrf (s.begunResult (.vmvxs o)) = s.hart.vrf
    rw [sourceVrf, State.begunResult_noPrior rfl]
    rfl
  refine State.whole_delivers (vrf := s.hart.vrf) (masks := s.hart.masks)
    (r := { s.begunResult (.vmvxs o) with scalar := out.scalar }) hi hr ⟨rfl, rfl, rfl, rfl⟩ rfl (fun _ => rfl) ?_ rfl
    (by rw [← eq]; exact ⟨rfl, rfl, rfl, rfl⟩) (by rw [← eq]; rfl) ?_
  · show (s.begun (.vmvxs o)).runVmvxs _ o = _
    rw [State.runVmvxs, sources, ← eq]
    simp only [State.setScalar, State.begun]
    rw [State.withResult_inFlight rfl]
    rfl
  · intro t hv hm
    rw [← eq]
    exact ⟨fun w hw => absurd hw List.not_mem_nil, fun r _ => by rw [hv], fun m p => by rw [hm]; rfl⟩

/-- VMVSX (R131). -/
theorem vmvsx_delivers (o : VmvsxOps) (hi : posted i = some (.vmvsx o)) (hout : moveOut s (.vmvsx o) = some out)
    (hr : s.vectorReady (.vmvsx o)) :
    (s.unchecked (.vmvsx o) → ∃ t, exec i s = .next t ∧ s.delivers t out) ∧
      (¬ s.unchecked (.vmvsx o) → ∃ t, exec i s = .next t ∧ s.awaits t out) := by
  have eq := Option.some.inj hout
  obtain ⟨-, -, -, -, -, -, ⟨wfv, -⟩, -⟩ := id hr.1
  have fits := hr.1.fits o.w.bits (List.mem_singleton.2 rfl)
  -- the element at the position, when the tile has one
  generalize hl : (if (s.x o.pos).toNat < s.hart.v.vrows * s.hart.v.vl then
    [((s.x o.pos).toNat / s.hart.v.vl, (s.x o.pos).toNat % s.hart.v.vl)] else []) = l
  have mem : ∀ row el, (row, el) ∈ l ↔
      decide (el < s.hart.v.vl ∧ row < s.hart.v.vrows ∧ row * s.hart.v.vl + el = (s.x o.pos).toNat) = true := by
    intro row el
    rw [← hl, decide_eq_true_eq]
    generalize (s.x o.pos).toNat = p
    constructor
    · intro h
      split at h
      · next hp =>
        have vl : 0 < s.hart.v.vl := Nat.pos_of_ne_zero fun h0 => by simp [h0] at hp
        rw [List.mem_singleton, Prod.mk.injEq] at h
        obtain ⟨rfl, rfl⟩ := h
        exact ⟨Nat.mod_lt _ vl, (Nat.div_lt_iff_lt_mul vl).2 hp, Nat.div_add_mod' p _⟩
      · exact absurd h List.not_mem_nil
    · rintro ⟨he, hrow, rfl⟩
      have : (row + 1) * s.hart.v.vl ≤ s.hart.v.vrows * s.hart.v.vl := Nat.mul_le_mul_right _ hrow
      rw [Nat.succ_mul] at this
      rw [if_pos (by omega), Nat.mul_comm row, Nat.mul_add_div (by omega), Nat.div_eq_of_lt he, Nat.mul_add_mod, Nat.mod_eq_of_lt he]
      simp
  have range : inRange l := fun p hp => by
    have := (mem p.1 p.2).1 hp
    rw [decide_eq_true_eq] at this
    exact State.fits_bounds fits this.2.1 this.1
  refine State.whole_delivers (vrf := vsets o.d.val o.w.bits (fun _ _ => (s.x o.a).toNat % 2 ^ o.w.bits) l s.hart.vrf)
    (masks := s.hart.masks) (r := s.begunResult (.vmvsx o)) hi hr ⟨rfl, rfl, rfl, rfl⟩ rfl (fun _ => rfl) ?_ rfl
    (by rw [← eq]; exact ⟨rfl, rfl, rfl, rfl⟩) (by rw [← eq]; rfl) ?_
  · show (s.begun (.vmvsx o)).runVmvsx _ o = _
    rw [State.runVmvsx, ← hl]
    simp only [State.begun]
    have x1 : (s.entryAt (.vmvsx o) (s.entryOf (.vmvsx o)).done).x1 = s.x o.pos := rfl
    have x0 : (s.entryAt (.vmvsx o) (s.entryOf (.vmvsx o)).done).x0 = s.x o.a := rfl
    have tile : (s.entryAt (.vmvsx o) (s.entryOf (.vmvsx o)).done).vrows = s.hart.v.vrows ∧
      (s.entryAt (.vmvsx o) (s.entryOf (.vmvsx o)).done).vl = s.hart.v.vl := ⟨rfl, rfl⟩
    rw [x1, x0, tile.1, tile.2]
    split <;> rfl
  · intro t hv hm
    refine State.writesOut_vsets (g := fun _ _ => (s.x o.a).toNat) wfv (Width.bits_mem _) range hv hm mem
      (fun _ _ => Nat.mod_mod ..) ?_ (by rw [← eq]; rfl)
    rw [← eq]
    simp only [decide_eq_true_eq]
    rfl

/-- A compare delivers its bits, with the second operand as captured (R90). -/
theorem State.compares_of_form {d m : MReg} {F f : Mem → Nat → Nat → Bool × Flags} (hi : posted i = some v) (hr : s.vectorReady v)
    (h : groupwiseForm v = true) (hd : vwrites v = [] ∧ vmaskWrite v = some d)
    (hrun : ∀ (u : State) g, u.runGroup (s.entryAt v g) g = u.runMask (s.entryAt v g) g d m F)
    (hf : F s.hart.vrf = f s.hart.vrf) :
    (s.unchecked v → ∃ t, exec i s = .next t ∧ s.delivers t (s.compares d m (f s.hart.vrf))) ∧
      (¬ s.unchecked v → ∃ t, exec i s = .next t ∧ s.awaits t (s.compares d m (f s.hart.vrf))) := by
  rw [← hf]
  exact State.compares_delivers hi hr (.of_form h) hd.1 hd.2 hrun

theorem move_delivers (hi : posted i = some v) (hout : moveOut s v = some out) (hr : s.vectorReady v) :
    (s.unchecked v → ∃ t, exec i s = .next t ∧ s.delivers t out) ∧
      (¬ s.unchecked v → ∃ t, exec i s = .next t ∧ s.awaits t out) := by
  cases v with
  | vcmp c o =>
    cases hout
    exact State.compares_of_form (F := fun vrf r el => (condHolds c o.w.bits (vget vrf o.a.val o.w.bits r el)
        (vxGet vrf (s.entryAt (.vcmp c o) 0) o.b o.w.bits r el), 0))
      (f := fun _ r e => (condHolds c o.w.bits (s.elem o.a o.w.bits r e) (s.second o.b o.w.bits r e), 0)) hi hr rfl ⟨rfl, rfl⟩
      (fun _ _ => rfl) (funext fun r => funext fun e => by rw [vxGet_entryAt rfl]; rfl)
  | vfcmp c o =>
    cases hout
    exact State.compares_of_form (F := fun vrf r el => (FFmt.spec o.fmt).compare c (vget vrf o.a.val (fbits o.fmt) r el)
        (vxGet vrf (s.entryAt (.vfcmp c o) 0) o.b (fbits o.fmt) r el))
      (f := fun _ r e => (FFmt.spec o.fmt).compare c (s.elem o.a (fbits o.fmt) r e) (s.second o.b (fbits o.fmt) r e)) hi hr rfl
      ⟨rfl, rfl⟩ (fun _ _ => rfl) (funext fun r => funext fun e => by rw [vxGet_entryAt rfl]; rfl)
  | vsel o =>
    cases hout
    exact State.elementwise_of_form (F := fun vrf r el => (if mget s.hart.masks o.m (r * s.hart.v.vl + el) then
        vget vrf o.a.val o.w.bits r el else vxGet vrf (s.entryAt (.vsel o) 0) o.b o.w.bits r el, 0)) hi hr rfl ⟨rfl, rfl⟩
      ⟨Width.bits_mem _, List.mem_singleton.2 rfl⟩ (fun u g hs => by
        show u.runVsel _ g o = _
        rw [State.runVsel, hs]
        rfl) fun row el => by rw [vxGet_entryAt rfl]; rfl
  | vmv o =>
    cases hout
    exact State.elementwise_of_form (F := fun vrf r el => (vget vrf o.a.val o.w.bits r el, 0)) hi hr rfl ⟨rfl, rfl⟩
      ⟨Width.bits_mem _, List.mem_singleton.2 rfl⟩ (fun _ _ _ => rfl) fun _ _ => rfl
  | vbcast o =>
    cases hout
    exact State.elementwise_delivers (F := fun _ _ _ => ((s.x o.a).toNat % 2 ^ o.w.bits, 0)) hi hr (.of_form rfl) rfl rfl
      (Width.bits_mem _) (List.mem_singleton.2 rfl) (fun _ _ _ => rfl) (fun _ _ => Nat.mod_mod ..) fun _ _ => rfl
  | viota o =>
    cases hout
    refine State.elementwise_delivers (F := fun _ r el => (maskOnes s.hart.masks o.a (r * s.hart.v.vl) el % 2 ^ o.w.bits, 0)) hi hr
      (.of_form rfl) rfl rfl (Width.bits_mem _) (List.mem_singleton.2 rfl) (fun u g hs => ?_) (fun row el => ?_) fun _ _ => rfl
    · show u.runViota _ g o = _
      rw [State.runViota, hs]
      rfl
    · dsimp only
      rw [maskOnes_eq_countP, Nat.mod_mod]
  | vmvxs o => exact vmvxs_delivers o hi hout hr
  | vmvsx o => exact vmvsx_delivers o hi hout hr
  | _ => cases hout

end

/-- Settles O25: the element groups of an instruction write the results of the elements that it executes, one group after
another, and its entry retires or waits for its recheck. -/
theorem vectorElements : Obligations.VectorElements :=
  ⟨fun _ _ _ _ hi _ hout hr => familyDelivers.of_delivers (integer_delivers hi hout hr),
    fun _ _ _ _ hi _ hout hr => familyDelivers.of_delivers (float_delivers hi hout hr),
    fun _ _ _ _ hi _ hout hr => familyDelivers.of_delivers (move_delivers hi hout hr)⟩

end Sys2Proof.Machine
end
end

section
/-! PROOFS. Vector loads (R91, R132 to R135, R137). -/

noncomputable section

namespace Sys2Proof.Machine

/-! ### Accesses of an entry in flight -/

/-- An entry of the current hart, posted now: its accesses are those of the hart. -/
structure VEntry.accessing (e : VEntry) (s : State) : Prop where
  level : e.level = s.hart.scalar.level
  seq : e.seq = s.hart.nextSeq

theorem Hart.inFlight_sameAccess (h : Hart) (st : Option Strip) (vrf masks : Mem) (e : VEntry) (r : VResult) :
    h.sameAccess (h.inFlight st vrf masks e r) := ⟨rfl, rfl, rfl⟩

section
variable {s : State} {st : Option Strip} {vrf masks : Mem} {f e : VEntry} {r : VResult} {k : AccessKind}

/-- A translation that changes nothing is the same for the entry in flight. -/
theorem State.locateAt_inFlight (he : e.accessing s) {va : Word} {res : Except AccFault (Nat × PageKind)}
    (h : s.locate k va = (s, res)) :
    (s.inFlight st vrf masks f r).locateAt e.level k va = (s.inFlight st vrf masks f r, res) := by
  have found : s.locateAt e.level k va = (s, res) := by
    rw [he.level]
    exact h
  rw [State.inFlight, State.locateAt_withHart (s.hart.inFlight_sameAccess st vrf masks f r), found]

/-- A read that succeeds and changes nothing is the same for the entry in flight. -/
theorem State.readAt_inFlight (he : e.accessing s) {pa n : Nat} {kind : PageKind} {bs : List Byte}
    (h : s.readAt k pa n kind s.hart.nextSeq = (s, .ok bs)) :
    (s.inFlight st vrf masks f r).readAt k pa n kind e.seq = (s.inFlight st vrf masks f r, .ok bs) := by
  have me : (s.inFlight st vrf masks f r).me = s.me := State.me_withHart (s.hart.inFlight_sameAccess st vrf masks f r)
  have read : (s.inFlight st vrf masks f r).physRead s.me k pa n (some kind) =
      ((s.physRead s.me k pa n (some kind)).1.withHart fun h => h.inFlight st vrf masks f r,
        (s.physRead s.me k pa n (some kind)).2) :=
    (State.physRead_probe s.me k pa n (some kind)).withHart s _
  unfold State.readAt at h ⊢
  rw [me, read, he.seq]
  rcases hp : s.physRead s.me k pa n (some kind) with ⟨t, ⟨bytes, _ | g⟩ | _ | _⟩ <;> rw [hp] at h <;> dsimp only at h ⊢
  · by_cases hb : t.hart.readsBadBuffer pa n s.hart.nextSeq = true
    · rw [if_pos hb] at h
      exact absurd (Prod.mk.inj h).2 (by simp)
    · rw [if_neg hb] at h
      obtain ⟨rfl, hbs⟩ := Prod.mk.inj h
      rw [if_neg (show ¬(t.withHart fun h => h.inFlight st vrf masks f r).hart.readsBadBuffer pa n t.hart.nextSeq = true from hb)]
      exact Prod.ext rfl hbs
  · exact absurd (Prod.mk.inj h).2 (by simp)
  · exact absurd (Prod.mk.inj h).2 (by simp)
  · exact absurd (Prod.mk.inj h).2 (by split <;> simp)

/-- A place from which a load reads a value, with nothing changed. -/
structure State.loadable (s : State) (n : Nat) (p : MemPlace) (x : Nat) : Prop where
  found : p.res = .ok p.place
  ordinary : p.place.2 ≠ .so
  read : ∃ bs, s.readAt .load p.place.1 n p.place.2 s.hart.nextSeq = (s, .ok bs) ∧ x = leNat bs

/-- The place of an element that reads (R134). -/
theorem State.placeElem_reads {m : MemElem} {n x : Nat} (h : s.readsAt .load m.va n x) :
    ∃ p : MemPlace, p.elem = m ∧ s.loadable n p x ∧ ∀ (st : Option Strip) (vrf masks : Mem) (f e : VEntry) (r : VResult),
      e.accessing s → (s.inFlight st vrf masks f r).placeElem e .load n m = (s.inFlight st vrf masks f r, p) := by
  obtain ⟨pa, kind, bs, hk, hl, hr, hx⟩ := h
  refine ⟨⟨m, .ok (pa, kind)⟩, rfl, ⟨rfl, hk, bs, hr, hx⟩, fun st vrf masks f e r he => ?_⟩
  rw [State.placeElem, State.locateAt_inFlight he hl]
  dsimp only
  rw [State.readAt_inFlight he hr]

/-- The place of an element whose translation faults. -/
theorem State.placeElem_faults (he : e.accessing s) {m : MemElem} {n c x l : Nat}
    (h : s.locate k m.va = (s, .error (.fault c x l))) :
    (s.inFlight st vrf masks f r).placeElem e k n m = (s.inFlight st vrf masks f r, ⟨m, .error (.fault c x l)⟩) := by
  rw [State.placeElem, State.locateAt_inFlight he h]

theorem State.loadable.good {n x : Nat} {p : MemPlace} (h : s.loadable n p x) : p.good = true := by
  unfold MemPlace.good
  rw [h.found]

/-- A register loaded with the value at a place. -/
theorem State.loadPlace_loadable (he : e.accessing s) {d : VReg} {bits x : Nat} {p : MemPlace} (h : s.loadable (bits / 8) p x) :
    (s.inFlight st vrf masks f r).loadPlace e d bits p =
      s.inFlight st (vset vrf d.val bits p.elem.row p.elem.el x) masks f r := by
  obtain ⟨bs, hr, rfl⟩ := h.read
  rw [State.loadPlace, State.readAt_inFlight he hr]
  rfl

/-- Loads of a list of places, in order. -/
theorem State.loadPlaces_loadable (he : e.accessing s) {d : VReg} {bits : Nat} {val : Nat → Nat → Nat} {ps : List MemPlace}
    (h : ∀ p ∈ ps, s.loadable (bits / 8) p (val p.elem.row p.elem.el)) :
    ps.foldl (fun t p => t.loadPlace e d bits p) (s.inFlight st vrf masks f r) =
      s.inFlight st (vsets d.val bits val (ps.map fun p => (p.elem.row, p.elem.el)) vrf) masks f r := by
  induction ps generalizing vrf with
  | nil => rfl
  | cons p rest ih =>
    rw [List.foldl_cons, State.loadPlace_loadable he (h p (List.mem_cons_self ..)), ih fun q hq => h q (List.mem_cons_of_mem p hq)]
    rfl

end

/-! ### Checks of lists of elements -/

/-- Checks that leave the state as it is. -/
theorem State.placeElems_still {u : State} {e : VEntry} {k : AccessKind} {n : Nat} {es : List MemElem} {p : MemElem → MemPlace}
    (h : ∀ m ∈ es, u.placeElem e k n m = (u, p m)) : u.placeElems e k n es = (u, es.map p) := by
  induction es with
  | nil => rfl
  | cons m rest ih =>
    rw [State.placeElems, h m (List.mem_cons_self ..)]
    simp only [ih fun q hq => h q (List.mem_cons_of_mem m hq), List.map_cons]

theorem MemPlace.ecc_of_good {p : MemPlace} (h : p.good = true) : p.ecc = none ∧ p.noPath = false ∧ p.fault = none := by
  unfold MemPlace.good at h
  unfold MemPlace.ecc MemPlace.noPath MemPlace.fault
  cases hr : p.res with
  | ok q => exact ⟨rfl, rfl, rfl⟩
  | error f => simp [hr] at h

/-- Good places hold no error that cannot be corrected (R380). -/
theorem State.eccAmong_none {u : State} {e : VEntry} {k : AccessKind} {n : Nat} {ps : List MemPlace}
    (hp : ∀ p ∈ ps, p.ecc = none) (hb : u.hart.marks.badRegs = []) : u.eccAmong e k n ps = none := by
  have none : ps.findSome? MemPlace.ecc = none := List.findSome?_eq_none_iff.2 hp
  have buffer : u.badBuffer = false := by simp [State.badBuffer, hb]
  rw [State.eccAmong, none, buffer]
  rfl

/-- Elements that all translate and pass their checks are performed (R134). -/
theorem State.checkPlaces_good {u : State} {e : VEntry} {k : AccessKind} {n g : Nat} {es rest : List MemElem}
    {p : MemElem → MemPlace} (go : List MemPlace → State → VRun) (h : ∀ m ∈ es, u.placeElem e k n m = (u, p m))
    (hp : ∀ m ∈ es, (p m).good = true) (hb : u.hart.marks.badRegs = []) :
    u.checkPlaces e k n g es rest go = go (es.map p) u := by
  have good : ∀ q ∈ es.map p, q.good = true := fun q hq => by
    obtain ⟨m, hm, rfl⟩ := List.mem_map.1 hq
    exact hp m hm
  have ecc := State.eccAmong_none (u := u) (e := e) (k := k) (n := n) (fun q hq => (MemPlace.ecc_of_good (good q hq)).1) hb
  have paths : (es.map p).any MemPlace.noPath = false := List.any_eq_false.2 fun q hq => by
    simp [(MemPlace.ecc_of_good (good q hq)).2.1]
  have faults : ((es.map p).find? fun q => q.fault.isSome) = none := List.find?_eq_none.2 fun q hq => by
    simp [(MemPlace.ecc_of_good (good q hq)).2.2]
  rw [State.checkPlaces, State.placeElems_still h]
  simp only [ecc, paths, Bool.false_eq_true, if_false, faults]

/-- Places on ordinary pages commit no strip (R236). -/
theorem State.commitSo_ordinary {u : State} {e : VEntry} {ps : List MemPlace} (h : ∀ p ∈ ps, p.place.2 ≠ .so) :
    u.commitSo e ps = u := by
  have none : (ps.any fun p => p.good && p.place.2 == .so) = false := List.any_eq_false.2 fun p hp => by simp [h p hp]
  rw [State.commitSo, none]
  rfl

/-! ### The elements of a vector memory instruction -/

section
variable {s : State} {v : VInstr}

/-- An element of a vector memory instruction with its address (R132, R135). -/
def State.memElem (s : State) (v : VInstr) (p : Nat × Nat) : MemElem := ⟨p.1, p.2, s.memAddr (s.entryOf v) v p.1 p.2⟩

/-- An entry of an instruction posted now, as it is worked on. -/
def VEntry.workOf (e : VEntry) (s : State) (v : VInstr) : Prop := ∃ b n, e = { s.entryOf v with begun := b, done := n }

theorem State.entryOf_workOf (s : State) (v : VInstr) : (s.entryOf v).workOf s v := ⟨false, _, rfl⟩

theorem State.entryAt_workOf (s : State) (v : VInstr) (n : Nat) : (s.entryAt v n).workOf s v := ⟨true, n, rfl⟩

theorem VEntry.workOf.accessing {e : VEntry} (h : e.workOf s v) : e.accessing s := by
  obtain ⟨b, n, rfl⟩ := h
  exact ⟨rfl, rfl⟩

theorem State.sources_idle (hv : s.hart.viq = []) : s.sources = (s.hart.vrf, s.hart.masks) := by
  have none : s.workResult = .empty := by simp [State.workResult, Hart.working, hv]
  rw [State.sources, none]
  rfl

/-- The addresses of an entry that reads its sources as they stood. -/
theorem State.memAddr_workOf {u : State} {e : VEntry} (hv : s.hart.viq = []) (he : e.workOf s v)
    (hs : u.sources = (s.hart.vrf, s.hart.masks)) : u.memAddr e v = s.memAddr (s.entryOf v) v := by
  have same : u.sources.1 = s.sources.1 := by rw [hs, State.sources_idle hv]
  obtain ⟨b, n, rfl⟩ := he
  unfold State.memAddr
  rw [same]
  split <;> rfl

/-- The active elements from a group on, with their addresses (R132, R135). -/
theorem State.elemsFrom_workOf {u : State} {e : VEntry} (hv : s.hart.viq = []) (he : e.workOf s v)
    (hs : u.sources = (s.hart.vrf, s.hart.masks)) (hl : u.lw = s.lw) (m : MReg) (g : Nat) :
    u.elemsFrom e m g = ((((List.range (tileGroups s.lw s.hart.v.vrows s.hart.v.vl - g)).map fun i =>
      (s.entryOf v).groupElems s.lw (g + i)).flatten).filter fun p =>
        mget s.hart.masks (s.maskOf v m) (p.1 * s.hart.v.vl + p.2)).map (s.memElem v) := by
  have instr : e.instr = v := by
    obtain ⟨b, n, rfl⟩ := he
    rfl
  rw [State.elemsFrom, instr, State.memAddr_workOf hv he hs, hs, hl]
  obtain ⟨b, n, rfl⟩ := he
  rfl

/-- The active elements of a group, with their addresses (R132, R135). -/
theorem State.elemsOf_workOf {u : State} {e : VEntry} (hv : s.hart.viq = []) (he : e.workOf s v)
    (hs : u.sources = (s.hart.vrf, s.hart.masks)) (hl : u.lw = s.lw) (m : MReg) (g : Nat) :
    u.elemsOf e m g = (((s.entryOf v).groupElems s.lw g).filter fun p =>
        mget s.hart.masks (s.maskOf v m) (p.1 * s.hart.v.vl + p.2)).map (s.memElem v) := by
  have instr : e.instr = v := by
    obtain ⟨b, n, rfl⟩ := he
    rfl
  rw [State.elemsOf, instr, State.memAddr_workOf hv he hs, hs, hl]
  obtain ⟨b, n, rfl⟩ := he
  rfl

/-- All the elements of an entry's tile that are not complete yet. -/
theorem VEntry.allGroups_flatten (e : VEntry) {lw : Nat} (hl : 0 < lw) (rows : Nat) :
    ((List.range (tileGroups lw rows e.vl - 0)).map fun i => e.groupElems lw (0 + i)).flatten =
      (tileElems rows e.vl).filter fun p => decide (e.skip ≤ p.1 * e.vl + p.2) := by
  rw [← tileGroups_flatten hl, List.filter_flatten, List.map_map]
  simp only [Nat.sub_zero, Nat.zero_add]
  rfl

/-- Every active element aligned, the alignment check passes (R133). -/
theorem State.alignedAll_workOf {u : State} {e : VEntry} {m : MReg} {n : Nat} (hv : s.hart.viq = []) (he : e.workOf s v)
    (hs : u.sources = (s.hart.vrf, s.hart.masks)) (hl : u.lw = s.lw) (ha : s.allAligned v m n) (go : State → VRun) :
    u.alignedAll e m n go = go u := by
  have none : misaligned n (u.elemsFrom e m 0) = none := by
    rw [State.elemsFrom_workOf hv he hs hl, misaligned, List.find?_eq_none]
    intro x hx
    obtain ⟨p, hp, rfl⟩ := List.mem_map.1 hx
    obtain ⟨hp, hmask⟩ := List.mem_filter.1 hp
    have tile := (s.entryOf v).allGroups_flatten s.lw_pos s.hart.v.vrows
    have vl : (s.entryOf v).vl = s.hart.v.vl := rfl
    rw [vl] at tile
    rw [tile] at hp
    obtain ⟨hrow, hel⟩ := mem_tileElems.1 (List.mem_filter.1 hp).1
    have := ha p.1 p.2 (by
      rw [State.active, decide_eq_true hrow, decide_eq_true hel, hmask]
      rfl)
    simp [aligned, State.memElem, this]
  rw [State.alignedAll, none]

end

/-! ### Loads that access all their elements -/

section
variable {s : State} {v : VInstr} {i : Instr} {d : VReg} {w : Width} {m : MReg} {val : Nat → Nat → Nat}

/-- The elements of a list read, from the places given, wherever the entry stands: they check and load as they are listed
(R134). -/
structure State.loadsFrom (s : State) (v : VInstr) (d : VReg) (w : Width) (val : Nat → Nat → Nat) (l : List (Nat × Nat))
    (place : MemElem → MemPlace) : Prop where
  good : ∀ p ∈ l, (place (s.memElem v p)).good = true ∧ (place (s.memElem v p)).place.2 ≠ .so ∧
    (place (s.memElem v p)).elem = s.memElem v p
  check : ∀ (st : Option Strip) (vrf masks : Mem) (f e : VEntry) (r : VResult), e.workOf s v → ∀ p ∈ l,
    (s.inFlight st vrf masks f r).placeElem e .load w.bytes (s.memElem v p) =
      (s.inFlight st vrf masks f r, place (s.memElem v p))
  load : ∀ (st : Option Strip) (vrf masks : Mem) (f e : VEntry) (r : VResult), e.workOf s v → ∀ k : List (Nat × Nat),
    (∀ p ∈ k, p ∈ l) →
    ((k.map (s.memElem v)).map place).foldl (fun t p => t.loadPlace e d w.bits p) (s.inFlight st vrf masks f r) =
      s.inFlight st (vsets d.val w.bits val k vrf) masks f r

/-- One element's place, wherever the entry stands. -/
structure State.spot (s : State) (v : VInstr) (n : Nat) (p : Nat × Nat) (q : MemPlace) : Prop where
  elem : q.elem = s.memElem v p
  check : ∀ (st : Option Strip) (vrf masks : Mem) (f e : VEntry) (r : VResult), e.accessing s →
    (s.inFlight st vrf masks f r).placeElem e .load n (s.memElem v p) = (s.inFlight st vrf masks f r, q)

/-- Places chosen element by element are given by the elements of the list. -/
theorem State.exists_places {l : List (Nat × Nat)} {Q : Nat × Nat → MemPlace → Prop} (h : ∀ p ∈ l, ∃ q, Q p q) :
    ∃ place : MemElem → MemPlace, ∀ p ∈ l, Q p (place (s.memElem v p)) := by
  have each : ∀ x : MemElem, ∃ q : MemPlace, ∀ p ∈ l, x = s.memElem v p → Q p q := by
    intro x
    by_cases hx : ∃ p ∈ l, x = s.memElem v p
    · obtain ⟨p, hp, rfl⟩ := hx
      obtain ⟨q, hq⟩ := h p hp
      refine ⟨q, fun p' _ heq => ?_⟩
      obtain rfl : p = p' := congrArg (fun m : MemElem => (m.row, m.el)) heq
      exact hq
    · exact ⟨⟨x, .error .noPath⟩, fun p hp heq => absurd ⟨p, hp, heq⟩ hx⟩
  choose place hplace using each
  exact ⟨place, fun p hp => hplace _ p hp rfl⟩

theorem State.loadsFrom.of_spots {l : List (Nat × Nat)} {place : MemElem → MemPlace}
    (h : ∀ p ∈ l, s.spot v w.bytes p (place (s.memElem v p)) ∧ s.loadable w.bytes (place (s.memElem v p)) (val p.1 p.2)) :
    s.loadsFrom v d w val l place := by
  refine ⟨fun p hp => ?_, fun st vrf masks f e r he p hp => ?_, fun st vrf masks f e r he k hk => ?_⟩
  · exact ⟨(h p hp).2.good, (h p hp).2.ordinary, (h p hp).1.elem⟩
  · exact (h p hp).1.check st vrf masks f e r he.accessing
  · have elems : ((k.map (s.memElem v)).map place).map (fun p => (p.elem.row, p.elem.el)) = k := by
      rw [List.map_map, List.map_map]
      refine (List.map_congr_left fun p hp => ?_).trans (List.map_id k)
      simp only [Function.comp_apply, (h p (hk p hp)).1.elem]
      rfl
    refine (State.loadPlaces_loadable he.accessing (val := val) fun q hq => ?_).trans (by rw [elems])
    obtain ⟨x, hx, rfl⟩ := List.mem_map.1 hq
    obtain ⟨p, hp, rfl⟩ := List.mem_map.1 hx
    obtain ⟨spot, loads⟩ := h p (hk p hp)
    rw [spot.elem]
    exact loads

/-- The place of an element that reads, wherever the entry stands. -/
theorem State.exists_spot {p : Nat × Nat} {n x : Nat} (h : s.readsAt .load (s.memAddr (s.entryOf v) v p.1 p.2) n x) :
    ∃ q, s.spot v n p q ∧ s.loadable n q x := by
  obtain ⟨q, he, hq, hc⟩ := State.placeElem_reads (m := s.memElem v p) h
  exact ⟨q, ⟨he, hc⟩, hq⟩

theorem State.exists_loadsFrom (d : VReg) {l : List (Nat × Nat)}
    (hl : ∀ p ∈ l, s.readsAt .load (s.memAddr (s.entryOf v) v p.1 p.2) w.bytes (val p.1 p.2)) :
    ∃ place, s.loadsFrom v d w val l place := by
  obtain ⟨place, h⟩ := State.exists_places (s := s) (v := v)
    (Q := fun p q => s.spot v w.bytes p q ∧ s.loadable w.bytes q (val p.1 p.2)) fun p hp => State.exists_spot (hl p hp)
  exact ⟨place, .of_spots h⟩

end

end Sys2Proof.Machine
end
end

section
/-! PROOFS. The loads of the vector class deliver what they read (R91, R132 to R135, R137). -/

noncomputable section

namespace Sys2Proof.Machine

section
variable {s : State} {v : VInstr} {i : Instr} {d : VReg} {w : Width} {m : MReg} {val : Nat → Nat → Nat}

/-- What the loads that access all their elements have in common (R132, R135). -/
structure LoadVector (v : VInstr) (d : VReg) (w : Width) (m : MReg) : Prop where
  plain : PlainVector v
  writes : vwrites v = [d]
  noMask : vmaskWrite v = none
  tile : w.bits ∈ vtiles v
  aligned : ∀ (u s : State) go, u.alignedFirst (s.entryOf v) go = u.alignedAll (s.entryOf v) m w.bytes go
  empty : ∀ (u s : State) (n : Nat), u.amoEmpty (s.entryAt v n) = u
  works : ∀ s : State, (s.entryOf v).works = (s.hart.v.vl != 0)
  unrechecked : rechecked v = false

theorem LoadVector.unchecked (h : LoadVector v d w m) (s : State) : s.unchecked v :=
  .inr (by rw [VEntry.covered, show (s.entryOf v).instr = v from rfl, h.unrechecked, Bool.false_and])

theorem State.inFlight_sources {st : Option Strip} :
    (s.inFlight st s.hart.vrf s.hart.masks (s.entryOf v) .empty).sources = (s.hart.vrf, s.hart.masks) := by
  rw [State.sources, State.inFlight_workResult rfl]
  rfl

/-- The addresses are aligned when the entry begins (R133). -/
theorem State.alignedFirst_inFlight (hv : s.hart.viq = [])
    (hal : ∀ (u s : State) go, u.alignedFirst (s.entryOf v) go = u.alignedAll (s.entryOf v) m w.bytes go)
    (ha : s.allAligned v m w.bytes) (go : State → VRun) :
    (s.inFlight s.hart.strip s.hart.vrf s.hart.masks (s.entryOf v) .empty).alignedFirst (s.entryOf v) go =
      go (s.inFlight s.hart.strip s.hart.vrf s.hart.masks (s.entryOf v) .empty) := by
  rw [hal]
  exact State.alignedAll_workOf hv (s.entryOf_workOf v) State.inFlight_sources rfl ha go

/-- The active elements of a group are accessed (R22, R91). -/
theorem State.accesses_of_group (hgw : s.groupwise v = true) {g : Nat}
    (hg : g < tileGroups s.lw s.hart.v.vrows s.hart.v.vl) {p : Nat × Nat}
    (hp : p ∈ ((s.entryOf v).groupElems s.lw g).filter fun p => mget s.hart.masks (s.maskOf v m) (p.1 * s.hart.v.vl + p.2)) :
    s.accesses v m p.1 p.2 = true := by
  obtain ⟨hp, hm⟩ := List.mem_filter.1 hp
  obtain ⟨hp, hskip⟩ := List.mem_filter.1 hp
  have tile : p ∈ tileElems s.hart.v.vrows s.hart.v.vl := by
    rw [← tileGroups_flatten s.lw_pos]
    exact List.mem_flatten.2 ⟨_, List.mem_map.2 ⟨g, List.mem_range.2 hg, rfl⟩, hp⟩
  obtain ⟨hr, he⟩ := mem_tileElems.1 tile
  have first : s.firstElem ≤ p.1 * s.hart.v.vl + p.2 := by
    rw [← State.resumed_groupwise hgw]
    exact of_decide_eq_true hskip
  rw [State.accesses, if_pos hgw, State.executes, State.active, decide_eq_true hr, decide_eq_true he, hm, decide_eq_true first]
  rfl

/-- A load that works group by group loads every element that it accesses (R132, R134). -/
theorem State.groupLoad_delivers (hi : posted i = some v) (hr : s.vectorReady v) (hv : LoadVector v d w m)
    (hgw : s.groupwise v = true) (ha : s.allAligned v m w.bytes)
    (hl : ∀ row el, s.accesses v m row el = true → s.readsAt .load (s.memAddr (s.entryOf v) v row el) w.bytes (val row el))
    (hrun : ∀ (u : State) g, u.runGroup (s.entryAt v g) g = u.loadGroup (s.entryAt v g) g d w m) :
    ∃ t, exec i s = .next t ∧ s.delivers t
      (VectorOut.reg d w.bits fun row el => if s.accesses v m row el then some (val row el) else none) := by
  obtain ⟨hviq, -, -, -, -, hbad, ⟨wfv, -⟩, -⟩ := id hr.1
  have fits := hr.1.fits w.bits hv.tile
  have range : ∀ l : List (Nat × Nat), (∀ p ∈ l, s.accesses v m p.1 p.2 = true) → inRange l := fun l hl p hp => by
    have := hl p hp
    rw [State.accesses, if_pos hgw] at this
    exact (fun h => State.fits_bounds fits h.1 h.2) (mem_tileElems.1 (List.mem_filter.1 (State.mem_executed.2 this)).1)
  have prior : ∀ g, g < tileGroups s.lw s.hart.v.vrows s.hart.v.vl → (s.begunResult v).prior = [(d, regSlice s.hart.vrf d)] :=
    fun g hg => State.begunResult_prior hv.writes (by
      rw [hv.works]
      simpa using vl_of_tileGroups s.lw_pos hg)
  have accessed := State.executed_filter (s := s) (v := v) hgw (s.maskOf v m)
  refine (State.groupwise_delivers (s := s) (v := v) (i := i)
    (out := VectorOut.reg d w.bits fun row el => if s.accesses v m row el then some (val row el) else none)
    (S := fun l a => ((vsets d.val w.bits val (l.filter fun p => mget s.hart.masks (s.maskOf v m) (p.1 * s.hart.v.vl + p.2))
      a.1.1, a.1.2), a.2))
    (I := fun a => sourceVrf a.1.1 (s.begunResult v) = s.hart.vrf ∧ a.1.2 = s.hart.masks) hi hr hv.plain hgw hv.empty
    (State.alignedFirst_inFlight hviq hv.aligned ha) (fun _ => rfl) (fun l k a => by rw [List.filter_append, vsets, List.foldl_append]; rfl)
    ?_ ?_ ⟨?_, rfl⟩ (vrf := vsets d.val w.bits val ((tileElems s.hart.v.vrows s.hart.v.vl).filter fun p =>
      s.executes (s.maskOf v m) p.1 p.2) s.hart.vrf) (masks := s.hart.masks) ?_ ⟨rfl, rfl, rfl⟩ ?_).1 (hv.unchecked s)
  · rintro g ⟨⟨vrf, masks⟩, fl⟩ hg ⟨hvrf, hmasks⟩
    obtain rfl : masks = s.hart.masks := hmasks
    have sources : (s.working v vrf s.hart.masks g fl).sources = (s.hart.vrf, s.hart.masks) := by
      rw [State.working_sources, hvrf, sourceMasks, State.begunResult_noMask hv.noMask]
    have work := s.entryAt_workOf v g
    have bad : (s.working v vrf s.hart.masks g fl).hart.marks.badRegs = [] := hbad
    obtain ⟨place, from_⟩ := State.exists_loadsFrom d (w := w) (val := val)
      (l := ((s.entryOf v).groupElems s.lw g).filter fun p => mget s.hart.masks (s.maskOf v m) (p.1 * s.hart.v.vl + p.2))
      fun p hp => hl p.1 p.2 (State.accesses_of_group hgw hg hp)
    rw [hrun, State.loadGroup, State.alignedAll_workOf hviq work sources rfl ha, State.elemsOf_workOf hviq work sources rfl]
    rw [State.checkPlaces_good (p := place) _ (fun x hx => ?_) (fun x hx => ?_) bad, State.commitSo_ordinary fun x hx => ?_]
    · exact congrArg ran (from_.load _ vrf _ _ _ _ work _ fun _ hp => hp)
    · obtain ⟨y, hy, rfl⟩ := List.mem_map.1 hx
      obtain ⟨p, hp, rfl⟩ := List.mem_map.1 hy
      exact (from_.good p hp).2.1
    · obtain ⟨p, hp, rfl⟩ := List.mem_map.1 hx
      exact from_.check _ _ _ _ _ _ work p hp
    · obtain ⟨p, hp, rfl⟩ := List.mem_map.1 hx
      exact (from_.good p hp).1
  · rintro g ⟨⟨vrf, masks⟩, fl⟩ hg ⟨hvrf, hmasks⟩
    refine ⟨?_, hmasks⟩
    dsimp only at hvrf ⊢
    rw [sourceVrf_single _ _ (prior g hg), restoreShadow_vsets (Width.bits_mem w), ← sourceVrf_single _ _ (prior g hg), hvrf]
    exact range _ fun p hp => State.accesses_of_group hgw hg hp
  · by_cases hworks : (s.entryOf v).works = true
    · rw [sourceVrf_single _ _ (State.begunResult_prior hv.writes hworks)]
      exact restoreShadow_self wfv d
    · have nil : (s.begunResult v).prior = [] := if_neg hworks
      rw [sourceVrf, nil]
      rfl
  · dsimp only
    rw [accessed]
    rfl
  · intro t hvrf hmasks
    refine State.writesOut_vsets (f := val) (g := val) (p := s.accesses v m) wfv (Width.bits_mem w)
      (range _ fun p hp => ?_) hvrf hmasks (fun row el => ?_) (fun _ _ => rfl) rfl rfl
    · rw [State.accesses, if_pos hgw]
      exact (List.mem_filter.1 hp).2
    · rw [State.accesses, if_pos hgw]
      exact State.mem_executed

/-! ### Loads of a whole tile -/

/-- An instruction that is not worked group by group looks at every active element of its tile. -/
theorem State.elemsFrom_whole {u : State} {e : VEntry} (hv : s.hart.viq = []) (he : e.workOf s v)
    (hs : u.sources = (s.hart.vrf, s.hart.masks)) (hl : u.lw = s.lw) (hgw : s.groupwise v = false) (m : MReg) :
    u.elemsFrom e m 0 = ((tileElems s.hart.v.vrows s.hart.v.vl).filter fun p => s.active (s.maskOf v m) p.1 p.2).map
      (s.memElem v) := by
  have skip : (s.entryOf v).skip = 0 := by
    show s.resumed v = 0
    rw [State.resumed, hgw, Bool.and_false]
    rfl
  have tile := (s.entryOf v).allGroups_flatten s.lw_pos s.hart.v.vrows
  have vl : (s.entryOf v).vl = s.hart.v.vl := rfl
  rw [vl, skip] at tile
  rw [State.elemsFrom_workOf hv he hs hl, tile, List.filter_filter]
  refine congrArg _ (List.filter_congr fun p hp => ?_)
  obtain ⟨hrow, hel⟩ := mem_tileElems.1 hp
  simp [State.active, hrow, hel]

/-- A gather, scatter or atomic whose elements are all accepted (R136). -/
theorem State.runPartial_good {u : State} {e : VEntry} {k : AccessKind} {n : Nat} {es : List MemElem} {place : MemElem → MemPlace}
    (perform : List MemPlace → State → State) (ha : ∀ go, u.alignedAll e m n go = go u) (hes : u.elemsFrom e m 0 = es)
    (hc : ∀ x ∈ es, u.placeElem e k n x = (u, place x)) (hg : ∀ x ∈ es, (place x).good = true ∧ (place x).place.2 ≠ .so)
    (hb : u.hart.marks.badRegs = []) : u.runPartial e k n m false perform = ran (perform (es.map place) u) := by
  have good : ∀ q ∈ es.map place, q.good = true := fun q hq => by
    obtain ⟨x, hx, rfl⟩ := List.mem_map.1 hq
    exact (hg x hx).1
  have ecc := State.eccAmong_none (u := u) (e := e) (k := k) (n := n) (fun q hq => (MemPlace.ecc_of_good (good q hq)).1) hb
  have paths : (es.map place).any MemPlace.noPath = false := List.any_eq_false.2 fun q hq => by
    simp [(MemPlace.ecc_of_good (good q hq)).2.1]
  have left : (es.map place).filter (fun q => !q.good || (false && decide ((((es.map place).filter fun q => !q.good).map fun q =>
      q.elem.pos e).head?.getD (e.vrows * e.vl) < q.elem.pos e))) = [] := List.filter_eq_nil_iff.2 fun q hq => by simp [good q hq]
  have done : (es.map place).filter (fun q => q.good && !(false && decide ((((es.map place).filter fun q => !q.good).map fun q =>
      q.elem.pos e).head?.getD (e.vrows * e.vl) < q.elem.pos e))) = es.map place :=
    List.filter_eq_self.2 fun q hq => by simp [good q hq]
  have still : u.commitSo e (es.map place) = u := State.commitSo_ordinary fun q hq => by
    obtain ⟨x, hx, rfl⟩ := List.mem_map.1 hq
    exact (hg x hx).2
  rw [State.runPartial, ha, hes, State.placeElems_still hc]
  simp only [ecc, paths, Bool.false_eq_true, if_false]
  rw [left, done, still]

theorem State.begun_sources (hr : s.vectorPosts v) (hw : vwrites v = [d]) :
    (s.begun v).sources = (s.hart.vrf, s.hart.masks) := by
  obtain ⟨-, -, -, -, -, -, ⟨wfv, wfm, -⟩, -⟩ := id hr
  have regs : sourceVrf s.hart.vrf (s.begunResult v) = s.hart.vrf := by
    by_cases hworks : (s.entryOf v).works = true
    · rw [sourceVrf_single _ _ (State.begunResult_prior hw hworks)]
      exact restoreShadow_self wfv d
    · have nil : (s.begunResult v).prior = [] := if_neg hworks
      rw [sourceVrf, nil]
      rfl
  have masks : sourceMasks s.hart.masks (s.begunResult v) = s.hart.masks := by
    by_cases hworks : (s.entryOf v).works = true
    · cases hx : vmaskWrite v with
      | none => rw [sourceMasks, State.begunResult_noMask hx]
      | some x =>
        rw [sourceMasks, State.begunResult_mask hx hworks]
        exact restoreMask_self wfm x
    · have none : (s.begunResult v).priorMask = none := if_neg hworks
      rw [sourceMasks, none]
  rw [State.sources, State.begun, State.inFlight_workResult rfl]
  exact Prod.ext regs masks

/-- A gather under R136 loads every active element (R135). -/
theorem State.gather_delivers {o : VldxOps} (hi : posted i = some (.vldx o)) (hr : s.vectorReady (.vldx o))
    (hv : LoadVector (.vldx o) o.d o.w o.m) (hgw : s.groupwise (.vldx o) = false) (ha : s.allAligned (.vldx o) o.m o.w.bytes)
    (hl : ∀ row el, s.accesses (.vldx o) o.m row el = true →
      s.readsAt .load (s.memAddr (s.entryOf (.vldx o)) (.vldx o) row el) o.w.bytes (val row el)) :
    ∃ t, exec i s = .next t ∧ s.delivers t
      (VectorOut.reg o.d o.w.bits fun row el => if s.accesses (.vldx o) o.m row el then some (val row el) else none) := by
  obtain ⟨hviq, -, -, -, -, hbad, ⟨wfv, -⟩, -⟩ := id hr.1
  have fits := hr.1.fits o.w.bits hv.tile
  have active : ∀ row el, s.accesses (.vldx o) o.m row el = s.active (s.maskOf (.vldx o) o.m) row el := fun row el => by
    rw [State.accesses, hgw]
    rfl
  have work := s.entryAt_workOf (.vldx o) (s.entryOf (.vldx o)).done
  have sources := State.begun_sources hr.1 hv.writes
  obtain ⟨place, from_⟩ := State.exists_loadsFrom o.d (w := o.w) (val := val) (s := s) (v := .vldx o)
    (l := (tileElems s.hart.v.vrows s.hart.v.vl).filter fun p => s.active (s.maskOf (.vldx o) o.m) p.1 p.2)
    fun p hp => hl p.1 p.2 ((active ..).trans (List.mem_filter.1 hp).2)
  refine (State.whole_delivers (s := s) (v := .vldx o) (i := i) (out := VectorOut.reg o.d o.w.bits fun row el =>
      if s.accesses (.vldx o) o.m row el then some (val row el) else none)
    (vrf := vsets o.d.val o.w.bits val ((tileElems s.hart.v.vrows s.hart.v.vl).filter fun p =>
      s.active (s.maskOf (.vldx o) o.m) p.1 p.2) s.hart.vrf) (masks := s.hart.masks) (r := s.begunResult (.vldx o)) hi hr hv.plain hgw
    (State.alignedFirst_inFlight hviq hv.aligned ha) ?_ rfl ⟨rfl, rfl, rfl, rfl⟩ rfl ?_).1 (hv.unchecked s)
  · show (s.begun (.vldx o)).runVldx _ o = _
    rw [State.runVldx, State.runPartial_good _ (fun go => State.alignedAll_workOf hviq work sources rfl ha go)
      (State.elemsFrom_whole hviq work sources rfl hgw o.m) (fun x hx => ?_) (fun x hx => ?_) hbad]
    · exact congrArg ran (from_.load _ _ _ _ _ _ work _ fun _ hp => hp)
    · obtain ⟨p, hp, rfl⟩ := List.mem_map.1 hx
      exact from_.check _ _ _ _ _ _ work p hp
    · obtain ⟨p, hp, rfl⟩ := List.mem_map.1 hx
      exact ⟨(from_.good p hp).1, (from_.good p hp).2.1⟩
  · intro t hvrf hmasks
    refine State.writesOut_vsets (f := val) (g := val) (p := s.accesses (.vldx o) o.m) wfv (Width.bits_mem _)
      (fun p hp => ?_) hvrf hmasks (fun row el => ?_) (fun _ _ => rfl) rfl rfl
    · obtain ⟨h1, h2⟩ := mem_tileElems.1 (List.mem_filter.1 hp).1
      exact State.fits_bounds fits h1 h2
    · rw [active, List.mem_filter, mem_tileElems]
      refine ⟨fun h => h.2, fun h => ⟨?_, h⟩⟩
      simp only [State.active, Bool.and_eq_true, decide_eq_true_eq] at h
      exact h.1

end

end Sys2Proof.Machine
end
end

section
/-! PROOFS. The load that stops before the first fault (R137), and every load of the vector class. -/

noncomputable section

namespace Sys2Proof.Machine

/-! ### Elements in order -/

/-- The elements of a tile are in order of their positions. -/
theorem tileElems_sorted (rows vl : Nat) : (tileElems rows vl).Pairwise fun p q => p.1 * vl + p.2 < q.1 * vl + q.2 := by
  rw [tileElems, List.pairwise_flatten]
  constructor
  · intro l hl
    obtain ⟨r, -, rfl⟩ := List.mem_map.1 hl
    rw [List.pairwise_map]
    exact List.pairwise_lt_range.imp fun h => by simpa using h
  · rw [List.pairwise_map]
    refine List.pairwise_lt_range.imp fun {r k} h p hp q hq => ?_
    obtain ⟨x, hx, rfl⟩ := List.mem_map.1 hp
    obtain ⟨y, -, rfl⟩ := List.mem_map.1 hq
    have lt : x < vl := List.mem_range.1 hx
    have : (r + 1) * vl ≤ k * vl := Nat.mul_le_mul_right vl h
    rw [Nat.succ_mul] at this
    dsimp only
    omega

/-- Of a list in order, what comes before the element at `n` is what lies below `n`. -/
theorem takeWhile_below {α : Type} {pos : α → Nat} {P : α → Bool} {n : Nat} {l : List α} (hs : l.Pairwise fun x y => pos x < pos y)
    (hlt : ∀ x ∈ l, pos x < n → P x = true) (heq : ∀ x ∈ l, pos x = n → P x = false)
    (hn : (∃ x ∈ l, pos x = n) ∨ ∀ x ∈ l, pos x < n) : l.takeWhile P = l.filter fun x => decide (pos x < n) := by
  induction l with
  | nil => rfl
  | cons a rest ih =>
    obtain ⟨above, sorted⟩ := List.pairwise_cons.1 hs
    rcases Nat.lt_trichotomy (pos a) n with h | h | h
    · have tail : (∃ x ∈ rest, pos x = n) ∨ ∀ x ∈ rest, pos x < n := by
        rcases hn with ⟨x, hx, hxn⟩ | hn
        · rcases List.mem_cons.1 hx with rfl | hx
          · omega
          · exact .inl ⟨x, hx, hxn⟩
        · exact .inr fun x hx => hn x (List.mem_cons_of_mem a hx)
      rw [List.takeWhile_cons, if_pos (hlt a (List.mem_cons_self ..) h), List.filter_cons, if_pos (decide_eq_true h),
        ih sorted (fun x hx => hlt x (List.mem_cons_of_mem a hx)) (fun x hx => heq x (List.mem_cons_of_mem a hx)) tail]
    · have none : rest.filter (fun x => decide (pos x < n)) = [] := List.filter_eq_nil_iff.2 fun x hx => by
        have := above x hx
        simp only [decide_eq_true_eq]
        omega
      simp [heq a (List.mem_cons_self ..) h, h, none]
    · rcases hn with ⟨x, hx, hxn⟩ | hn
      · rcases List.mem_cons.1 hx with rfl | hx
        · omega
        · have := above x hx
          omega
      · have := hn a (List.mem_cons_self ..)
        omega

/-! ### The loaded elements named in m15 -/

theorem msetRange_wf {masks : Mem} (h : Memory.wf masks = true) (d : MReg) (b : Nat → Bool) (n : Nat) :
    Memory.wf ((List.range n).foldl (fun out p => mset out d p (b p)) masks) = true := by
  induction n with
  | zero => exact h
  | succ n ih =>
    rw [List.range_succ, List.foldl_append]
    exact mset_wf ih ..

/-- The first positions of a mask register written. -/
theorem mget_msetRange {masks : Mem} (h : Memory.wf masks = true) (d m : MReg) (b : Nat → Bool) (n q : Nat) :
    mget ((List.range n).foldl (fun out p => mset out d p (b p)) masks) m q =
      if m = d ∧ d ≠ 0 ∧ q < maskPositions ∧ q < n then b q else mget masks m q := by
  induction n with
  | zero => simp
  | succ n ih =>
    rw [List.range_succ, List.foldl_append, List.foldl_cons, List.foldl_nil, mget_mset (msetRange_wf h d b n), ih]
    by_cases hc : m = d ∧ d ≠ 0 ∧ q < maskPositions
    · obtain ⟨hm, hd, hq⟩ := hc
      rcases Nat.lt_trichotomy q n with hlt | rfl | hgt
      · rw [if_neg fun hx => Nat.ne_of_lt hlt hx.2.2.2, if_pos ⟨hm, hd, hq, hlt⟩, if_pos ⟨hm, hd, hq, Nat.lt_succ_of_lt hlt⟩]
      · rw [if_pos ⟨hm, hd, hq, rfl⟩, if_pos ⟨hm, hd, hq, Nat.lt_succ_self q⟩]
      · rw [if_neg fun hx => Nat.ne_of_gt hgt hx.2.2.2, if_neg fun hx => Nat.lt_asymm hgt hx.2.2.2,
          if_neg fun hx => Nat.not_lt_of_le hgt hx.2.2.2]
    · rw [if_neg fun hx => hc ⟨hx.1, hx.2.1, hx.2.2.1⟩, if_neg fun hx => hc ⟨hx.1, hx.2.1, hx.2.2.1⟩,
        if_neg fun hx => hc ⟨hx.1, hx.2.1, hx.2.2.1⟩]

section
variable {s : State} {v : VInstr} {i : Instr} {val : Nat → Nat → Nat}

/-- m15 written while an entry is in flight in a hart without errors (R137). -/
theorem State.writeM15_inFlight {st : Option Strip} {vrf masks : Mem} {f e : VEntry} {r : VResult}
    (hb : s.hart.marks.badRegs = []) (ones : List Nat) :
    (s.inFlight st vrf masks f r).writeM15 e ones =
      s.inFlight st vrf ((List.range (e.vrows * e.vl)).foldl (fun out p => mset out 15 p (ones.contains p)) masks) f r := by
  refine State.withHart_congr (s := s) (f := fun h => { h.inFlight st vrf
      ((List.range (e.vrows * e.vl)).foldl (fun out p => mset out 15 p (ones.contains p)) masks) f r with
    marks := { (h.inFlight st vrf masks f r).marks with
      badRegs := (h.inFlight st vrf masks f r).marks.badRegs.filter fun b => b != .maskRegister h.ident.id 15 } })
    (g := fun h => h.inFlight st vrf ((List.range (e.vrows * e.vl)).foldl (fun out p => mset out 15 p (ones.contains p)) masks) f r) ?_
  have bad : (s.hart.inFlight st vrf masks f r).marks.badRegs = [] := hb
  simp only [bad, List.filter_nil]
  rw [← bad]
  rfl

/-- The load of the elements below the first that faults (R137). -/
theorem State.runVldff_below {u : State} {e : VEntry} {o : VldOps} {es : List MemElem} {bs : List MemPlace}
    {place : MemElem → MemPlace} (ha : ∀ go, u.alignedAll e o.m o.w.bytes go = go u) (hes : u.elemsFrom e o.m 0 = es)
    (hc : ∀ x ∈ es, u.placeElem e .load o.w.bytes x = (u, place x)) (he : ∀ x ∈ es, (place x).elem = x)
    (hbs : (es.map place).takeWhile (fun p => p.fault.isNone) = bs) (hg : ∀ q ∈ bs, q.good = true ∧ q.place.2 ≠ .so)
    (hne : bs = [] → es = []) (hb : u.hart.marks.badRegs = []) :
    u.runVldff e o = ran ((bs.foldl (fun t p => t.loadPlace e o.d o.w.bits p) u).writeM15 e (bs.map fun p => p.elem.pos e)) := by
  have ecc := State.eccAmong_none (u := u) (e := e) (k := .load) (n := o.w.bytes)
    (fun q hq => (MemPlace.ecc_of_good (hg q hq).1).1) hb
  have paths : bs.any MemPlace.noPath = false := List.any_eq_false.2 fun q hq => by
    simp [(MemPlace.ecc_of_good (hg q hq).1).2.1]
  have still : u.commitSo e bs = u := State.commitSo_ordinary fun q hq => (hg q hq).2
  have upTo : u.upToFault e .load o.w.bytes (es.map place) = u := by
    generalize hn : ((es.map place).takeWhile MemPlace.good).length + 1 = n
    have elems : ((es.map place).take n).map (fun p => p.elem) = es.take n := by
      rw [← List.map_take, List.map_map]
      exact (List.map_congr_left fun x hx => he x (List.mem_of_mem_take hx)).trans (List.map_id _)
    simp only [State.upToFault, hn, elems]
    rw [State.placeElems_still fun x hx => hc x (List.mem_of_mem_take hx)]
  rw [State.runVldff, ha, hes, State.placeElems_still hc]
  simp only [hbs, ecc, paths, Bool.false_eq_true, if_false, upTo, still]
  cases hb : bs with
  | nil =>
    rw [hne hb]
    rfl
  | cons q rest => rfl

/-- PMASK governs gathers, scatters and atomics only (R374). -/
theorem State.maskOf_whole (hp : partialKind v = false) (m : MReg) : s.maskOf v m = m := by
  have whole : (s.entryOf v).m15Only = (s.hart.marks.pmaskLive && partialKind v) := rfl
  rw [State.maskOf, VEntry.mask, whole, hp, Bool.and_false]
  rfl

theorem State.active_iff {m : MReg} {row el : Nat} : s.active m row el = true ↔
    (row, el) ∈ (tileElems s.hart.v.vrows s.hart.v.vl).filter fun p => s.active m p.1 p.2 := by
  rw [List.mem_filter, mem_tileElems]
  refine ⟨fun h => ⟨?_, h⟩, fun h => h.2⟩
  simp only [State.active, Bool.and_eq_true, decide_eq_true_eq] at h
  exact h.1

/-- The positions of a tile lie below its size. -/
theorem pos_lt_tile {rows vl : Nat} {p : Nat × Nat} (hp : p ∈ tileElems rows vl) : p.1 * vl + p.2 < rows * vl := by
  obtain ⟨hr, he⟩ := mem_tileElems.1 hp
  have : (p.1 + 1) * vl ≤ rows * vl := Nat.mul_le_mul_right vl hr
  rw [Nat.succ_mul] at this
  omega

/-- The row and element of a position. -/
theorem pos_div_mod {vl row el : Nat} (he : el < vl) : (row * vl + el) / vl = row ∧ (row * vl + el) % vl = el := by
  rw [Nat.mul_comm, Nat.mul_add_div (by omega), Nat.div_eq_of_lt he, Nat.mul_add_mod, Nat.mod_eq_of_lt he]
  exact ⟨rfl, rfl⟩

/-! ### The elements below a position -/

/-- The active elements of the tile. -/
def State.activeElems (s : State) (m : MReg) : List (Nat × Nat) :=
  (tileElems s.hart.v.vrows s.hart.v.vl).filter fun p => s.active m p.1 p.2

/-- The active elements of the tile below a position. -/
def State.activeBelow (s : State) (m : MReg) (n : Nat) : List (Nat × Nat) :=
  (s.activeElems m).filter fun p => decide (p.1 * s.hart.v.vl + p.2 < n)

theorem State.mem_activeElems {m : MReg} {p : Nat × Nat} : p ∈ s.activeElems m ↔ s.active m p.1 p.2 = true :=
  State.active_iff.symm

theorem State.mem_activeBelow {m : MReg} {n : Nat} {p : Nat × Nat} :
    p ∈ s.activeBelow m n ↔ s.active m p.1 p.2 = true ∧ p.1 * s.hart.v.vl + p.2 < n := by
  rw [State.activeBelow, List.mem_filter, State.mem_activeElems, decide_eq_true_eq]

theorem State.tile_of_active {m : MReg} {p : Nat × Nat} (h : s.active m p.1 p.2 = true) :
    p ∈ tileElems s.hart.v.vrows s.hart.v.vl :=
  (List.mem_filter.1 (State.mem_activeElems.2 h)).1

/-- The positions of the active elements below `n`. -/
theorem State.activeBelow_contains {m : MReg} {n q : Nat} (hq : q < s.hart.v.vrows * s.hart.v.vl) :
    ((s.activeBelow m n).map fun p => p.1 * s.hart.v.vl + p.2).contains q =
      (s.active m (q / s.hart.v.vl) (q % s.hart.v.vl) && decide (q < n)) := by
  rw [Bool.eq_iff_iff, List.contains_iff_mem, Bool.and_eq_true, decide_eq_true_eq, List.mem_map]
  constructor
  · rintro ⟨p, hp, rfl⟩
    obtain ⟨hact, hlt⟩ := State.mem_activeBelow.1 hp
    have pos := pos_div_mod (vl := s.hart.v.vl) (row := p.1) (mem_tileElems.1 (State.tile_of_active hact)).2
    rw [pos.1, pos.2]
    exact ⟨hact, hlt⟩
  · rintro ⟨hact, hlt⟩
    have pos := Nat.div_add_mod' q s.hart.v.vl
    exact ⟨(q / s.hart.v.vl, q % s.hart.v.vl), State.mem_activeBelow.2 ⟨hact, by rw [pos]; exact hlt⟩, pos⟩

/-- What VLDFF delivers that loads the active elements below `n` (R137). -/
def State.faultFirstOut (s : State) (o : VldOps) (val : Nat → Nat → Nat) (n : Nat) : VectorOut :=
  { VectorOut.reg o.d o.w.bits (fun row el =>
      if s.active o.m row el && decide (row * s.hart.v.vl + el < n) then some (val row el) else none) with
    mask := some (15, fun p => if p < s.hart.v.vrows * s.hart.v.vl then
      some (s.active o.m (p / s.hart.v.vl) (p % s.hart.v.vl) && decide (p < n)) else none) }

/-- m15 with the positions of the active elements below `n` (R137). -/
def State.faultFirstMasks (s : State) (o : VldOps) (n : Nat) : Mem :=
  (List.range (s.hart.v.vrows * s.hart.v.vl)).foldl
    (fun out p => mset out 15 p (((s.activeBelow o.m n).map fun p => p.1 * s.hart.v.vl + p.2).contains p)) s.hart.masks

theorem State.mget_faultFirstMasks {o : VldOps} {n q : Nat} (h : Memory.wf s.hart.masks = true) (m : MReg) :
    mget (s.faultFirstMasks o n) m q =
      if m = 15 ∧ q < maskPositions ∧ q < s.hart.v.vrows * s.hart.v.vl then
        s.active o.m (q / s.hart.v.vl) (q % s.hart.v.vl) && decide (q < n)
      else mget s.hart.masks m q := by
  rw [State.faultFirstMasks, mget_msetRange h]
  by_cases hc : m = 15 ∧ q < maskPositions ∧ q < s.hart.v.vrows * s.hart.v.vl
  · rw [if_pos ⟨hc.1, by decide, hc.2.1, hc.2.2⟩, if_pos hc, State.activeBelow_contains hc.2.2]
  · rw [if_neg fun hx => hc ⟨hx.1, hx.2.2.1, hx.2.2.2⟩, if_neg hc]

/-- The registers and m15 after VLDFF (R137). -/
theorem State.writesOut_faultFirst {o : VldOps} {n : Nat} {t : State} (hr : s.vectorPosts (.vldff o))
    (hvrf : t.hart.vrf = vsets o.d.val o.w.bits val (s.activeBelow o.m n) s.hart.vrf)
    (hmasks : t.hart.masks = s.faultFirstMasks o n) : s.writesOut t (s.faultFirstOut o val n) := by
  obtain ⟨-, -, -, -, -, -, ⟨wfv, wfm, -⟩, -⟩ := id hr
  have fits := hr.fits o.w.bits (List.mem_singleton.2 rfl)
  obtain ⟨regs, others, -⟩ := State.writesOut_vsets (s := s)
    (t := s.withHart fun h => { h with vrf := vsets o.d.val o.w.bits val (s.activeBelow o.m n) s.hart.vrf })
    (out := VectorOut.reg o.d o.w.bits fun row el =>
      if s.active o.m row el && decide (row * s.hart.v.vl + el < n) then some (val row el) else none)
    (p := fun row el => s.active o.m row el && decide (row * s.hart.v.vl + el < n)) wfv (Width.bits_mem o.w)
    (fun p hp => by
      obtain ⟨hrow, hel⟩ := mem_tileElems.1 (State.tile_of_active (State.mem_activeBelow.1 hp).1)
      exact State.fits_bounds fits hrow hel) rfl rfl
    (fun row el => by rw [State.mem_activeBelow, Bool.and_eq_true, decide_eq_true_eq]) (fun _ _ => rfl) rfl rfl
  refine ⟨fun w hw row el h1 h2 => ?_, fun r hr => ?_, fun m q => ?_⟩
  · rw [hvrf]
    exact regs w hw row el h1 h2
  · rw [hvrf]
    exact others r hr
  · rw [hmasks, State.mget_faultFirstMasks wfm]
    by_cases hm : m = 15 ∧ (15 : MReg) ≠ 0 ∧ q < maskPositions
    · by_cases hq : q < s.hart.v.vrows * s.hart.v.vl
      · simp [State.faultFirstOut, hm, hq]
      · simp [State.faultFirstOut, hm, hq]
    · simp only [State.faultFirstOut]
      rw [if_neg hm, if_neg fun h => hm ⟨h.1, by decide, h.2.1⟩]

/-- What is known of the elements of VLDFF: those below `n` read, the one at `n` faults, and those above it read or fault. -/
structure State.faultsAt (s : State) (o : VldOps) (val : Nat → Nat → Nat) (n : Nat) : Prop where
  reads : ∀ row el, s.active o.m row el = true → row * s.hart.v.vl + el < n →
    s.readsAt .load (s.memAddr (s.entryOf (.vldff o)) (.vldff o) row el) o.w.bytes (val row el)
  rest : ∀ row el, s.active o.m row el = true → n ≤ row * s.hart.v.vl + el →
    (row * s.hart.v.vl + el ≠ n ∧ ∃ x, s.readsAt .load (s.memAddr (s.entryOf (.vldff o)) (.vldff o) row el) o.w.bytes x) ∨
      ∃ c r l, s.locate .load (s.memAddr (s.entryOf (.vldff o)) (.vldff o) row el) = (s, .error (.fault c r l))
  fault : s.hart.v.vrows * s.hart.v.vl ≤ n ∨ (s.active o.m (n / s.hart.v.vl) (n % s.hart.v.vl) = true ∧
    ∃ row el, s.active o.m row el = true ∧ row * s.hart.v.vl + el < n)

section
variable {o : VldOps} {n : Nat} (hf : s.faultsAt o val n)
include hf

/-- The places of the active elements: those below `n` load, and the one at `n` faults. -/
theorem State.faultsAt.places : ∃ place : MemElem → MemPlace, ∀ p ∈ s.activeElems o.m,
    s.spot (.vldff o) o.w.bytes p (place (s.memElem (.vldff o) p)) ∧
      (p.1 * s.hart.v.vl + p.2 < n → s.loadable o.w.bytes (place (s.memElem (.vldff o) p)) (val p.1 p.2)) ∧
      (p.1 * s.hart.v.vl + p.2 = n → (place (s.memElem (.vldff o) p)).fault.isNone = false) := by
  refine State.exists_places (Q := fun p q => s.spot (.vldff o) o.w.bytes p q ∧
    (p.1 * s.hart.v.vl + p.2 < n → s.loadable o.w.bytes q (val p.1 p.2)) ∧
      (p.1 * s.hart.v.vl + p.2 = n → q.fault.isNone = false)) fun p hp => ?_
  have act := State.mem_activeElems.1 hp
  rcases Nat.lt_or_ge (p.1 * s.hart.v.vl + p.2) n with hlt | hge
  · obtain ⟨q, spot, loads⟩ := State.exists_spot (hf.reads p.1 p.2 act hlt)
    exact ⟨q, spot, fun _ => loads, fun h => absurd hlt (by omega)⟩
  · rcases hf.rest p.1 p.2 act hge with ⟨hne, x, hx⟩ | ⟨c, r, l, hloc⟩
    · obtain ⟨q, spot, -⟩ := State.exists_spot hx
      exact ⟨q, spot, fun h => absurd hge (by omega), fun h => absurd h hne⟩
    · exact ⟨⟨s.memElem (.vldff o) p, .error (.fault c r l)⟩, ⟨rfl, fun _ _ _ _ _ _ he => State.placeElem_faults he hloc⟩,
        fun h => absurd hge (by omega), fun _ => rfl⟩

/-- The elements before the first fault are those below `n`. -/
theorem State.faultsAt.takeWhile {P : Nat × Nat → Bool} (hlt : ∀ p ∈ s.activeElems o.m, p.1 * s.hart.v.vl + p.2 < n → P p = true)
    (heq : ∀ p ∈ s.activeElems o.m, p.1 * s.hart.v.vl + p.2 = n → P p = false) :
    (s.activeElems o.m).takeWhile P = s.activeBelow o.m n := by
  refine takeWhile_below ((tileElems_sorted _ _).filter _) hlt heq ?_
  rcases hf.fault with hn | ⟨hn, -⟩
  · exact .inr fun p hp => Nat.lt_of_lt_of_le (pos_lt_tile (State.tile_of_active (State.mem_activeElems.1 hp))) hn
  · exact .inl ⟨(n / s.hart.v.vl, n % s.hart.v.vl), State.mem_activeElems.2 hn, Nat.div_add_mod' n _⟩

/-- With an active element there is one below `n`. -/
theorem State.faultsAt.nonempty (h : s.activeBelow o.m n = []) : s.activeElems o.m = [] := by
  rw [List.eq_nil_iff_forall_not_mem]
  intro p hp
  have act := State.mem_activeElems.1 hp
  rcases hf.fault with hn | ⟨-, row, el, hact, hlt⟩
  · exact List.not_mem_nil (h ▸ State.mem_activeBelow.2 ⟨act, Nat.lt_of_lt_of_le (pos_lt_tile (State.tile_of_active act)) hn⟩)
  · have below : (row, el) ∈ s.activeBelow o.m n := State.mem_activeBelow.2 ⟨hact, hlt⟩
    exact List.not_mem_nil (h ▸ below)

end

/-- VLDFF loads the active elements below the first that faults, and m15 names those (R137). -/
theorem State.faultFirst_delivers {o : VldOps} {n : Nat} (hi : posted i = some (.vldff o)) (hr : s.vectorReady (.vldff o))
    (ha : s.allAligned (.vldff o) o.m o.w.bytes) (hf : s.faultsAt o val n) :
    ∃ t, exec i s = .next t ∧ s.delivers t (s.faultFirstOut o val n) := by
  obtain ⟨hviq, -, -, -, -, hbad, -⟩ := id hr.1
  have work := s.entryAt_workOf (.vldff o) (s.entryOf (.vldff o)).done
  have sources := State.begun_sources hr.1 (v := .vldff o) (d := o.d) rfl
  have whole := State.elemsFrom_whole (u := s.begun (.vldff o)) hviq work sources rfl rfl o.m
  rw [State.maskOf_whole rfl o.m] at whole
  obtain ⟨place, hplace⟩ := hf.places
  have from_ : s.loadsFrom (.vldff o) o.d o.w val (s.activeBelow o.m n) place := .of_spots fun p hp => by
    obtain ⟨hact, hlt⟩ := State.mem_activeBelow.1 hp
    obtain ⟨spot, loads, -⟩ := hplace p (State.mem_activeElems.2 hact)
    exact ⟨spot, loads hlt⟩
  have below : (((s.activeElems o.m).map (s.memElem (.vldff o))).map place).takeWhile (fun q => q.fault.isNone) =
      ((s.activeBelow o.m n).map (s.memElem (.vldff o))).map place := by
    rw [List.takeWhile_map, List.takeWhile_map]
    refine congrArg (fun l => (l.map (s.memElem (.vldff o))).map place) (hf.takeWhile (fun p hp hlt => ?_) fun p hp heq => ?_)
    · exact Option.isNone_iff_eq_none.2 (MemPlace.ecc_of_good ((hplace p hp).2.1 hlt).good).2.2
    · exact (hplace p hp).2.2 heq
  have nonempty : ((s.activeBelow o.m n).map (s.memElem (.vldff o))).map place = [] →
      (s.activeElems o.m).map (s.memElem (.vldff o)) = [] := fun h => by
    rw [List.map_eq_nil_iff, List.map_eq_nil_iff] at h
    rw [List.map_eq_nil_iff, hf.nonempty h]
  have positions : (((s.activeBelow o.m n).map (s.memElem (.vldff o))).map place).map
      (fun q => q.elem.pos (s.entryAt (.vldff o) (s.entryOf (.vldff o)).done)) =
        (s.activeBelow o.m n).map fun p => p.1 * s.hart.v.vl + p.2 := by
    rw [List.map_map, List.map_map]
    refine List.map_congr_left fun p hp => ?_
    simp only [Function.comp_apply, (from_.good p hp).2.2]
    rfl
  refine (State.whole_delivers (s := s) (v := .vldff o) (i := i) (r := s.begunResult (.vldff o)) hi hr ⟨rfl, rfl, rfl, rfl⟩ rfl
    (State.alignedFirst_inFlight (w := o.w) hviq (fun _ _ _ => rfl) ha) ?_ rfl ⟨rfl, rfl, rfl, rfl⟩ rfl
    fun t => State.writesOut_faultFirst hr.1).1 (.inr rfl)
  show (s.begun (.vldff o)).runVldff _ o = _
  rw [State.runVldff_below (fun go => State.alignedAll_workOf hviq work sources rfl ha go) whole (place := place) (fun x hx => ?_)
    (fun x hx => ?_) below (fun q hq => ?_) nonempty hbad, positions]
  · rw [State.begun, from_.load _ _ _ _ _ _ work _ fun _ hp => hp, State.writeM15_inFlight hbad]
    rfl
  · obtain ⟨p, hp, rfl⟩ := List.mem_map.1 hx
    exact (hplace p hp).1.check _ _ _ _ _ _ work.accessing
  · obtain ⟨p, hp, rfl⟩ := List.mem_map.1 hx
    exact (hplace p hp).1.elem
  · obtain ⟨x, hx, rfl⟩ := List.mem_map.1 hq
    obtain ⟨p, hp, rfl⟩ := List.mem_map.1 hx
    exact ⟨(from_.good p hp).1, (from_.good p hp).2.1⟩

end

/-- A plain or strided load, or a gather (R132, R135). -/
theorem LoadVector.of_form {v : VInstr} {d : VReg} {w : Width} {m : MReg} (h : vectorLoadForm v = some (d, w, m)) :
    LoadVector v d w m := by
  unfold vectorLoadForm at h
  split at h
  · cases h
    exact ⟨⟨rfl, rfl, rfl, rfl⟩, rfl, rfl, List.mem_singleton.2 rfl, fun _ _ _ => rfl, fun _ _ _ => rfl, fun _ => rfl, rfl⟩
  · cases h
    exact ⟨⟨rfl, rfl, rfl, rfl⟩, rfl, rfl, List.mem_cons_self .., fun _ _ _ => rfl, fun _ _ _ => rfl, fun _ => rfl, rfl⟩
  · cases h

/-- Settles O32: a load checks its elements group by group or all at once, and writes each value it reads; VLDFF stops where the
first fault is. -/
theorem vectorLoads : Obligations.VectorLoads := by
  intro i s v val hi hr
  refine ⟨fun d w m hform ha hl => ?_, fun o n hv ha hread hrest hn => ?_⟩
  · have load := LoadVector.of_form hform
    unfold vectorLoadForm at hform
    split at hform
    · cases hform
      exact State.groupLoad_delivers hi hr load rfl ha hl fun _ _ => rfl
    · next o =>
      cases hform
      by_cases hgw : s.groupwise (.vldx o) = true
      · exact State.groupLoad_delivers hi hr load hgw ha hl fun _ _ => rfl
      · exact State.gather_delivers hi hr load (Bool.eq_false_iff.2 hgw) ha hl
    · cases hform
  · subst hv
    exact State.faultFirst_delivers hi hr ha ⟨hread, hrest, hn⟩

end Sys2Proof.Machine
end
end

section
/-! PROOFS. Stores of a posted instruction to home memory, and a strip store buffer that one of them overflows (R24, R138,
R139, R238). -/

noncomputable section

namespace Sys2Proof.Machine

/-! ### Stores to home memory -/

/-- Home memory once a store of a strip store buffer is performed (R219, R238). -/
def Store.written (st : Store) (e : StoreEntry) : Store :=
  { st with mem := writeBytes st.mem (paLocal e.pa) e.bytes, poison := clearedPoison st.poison e.pa e.bytes.length }

theorem State.performStore_home {u : State} {e : StoreEntry} (hh : u.homeMemory e.pa) :
    u.performStore e = { u with store := u.store.written e } := by
  unfold State.performStore
  rw [if_neg (by simp [hh.1]), State.physWrite_home _ _ hh]
  rfl

theorem State.performStores_home {u : State} {es : List StoreEntry} (hh : ∀ e ∈ es, u.homeMemory e.pa) :
    es.foldl State.performStore u = { u with store := es.foldl Store.written u.store } := by
  induction es generalizing u with
  | nil => rfl
  | cons e rest ih =>
    rw [List.foldl_cons, State.performStore_home (hh e (List.mem_cons_self ..))]
    exact ih fun f hf => hh f (List.mem_cons_of_mem e hf)

/-- A store that changes nothing when it is made again is made as often as one likes. -/
theorem Store.written_replicate {st : Store} {e : StoreEntry} (h : (st.written e).written e = st.written e) (n : Nat) :
    (List.replicate (n + 1) e).foldl Store.written st = st.written e := by
  induction n with
  | zero => rfl
  | succ n ih => rw [List.replicate_succ', List.foldl_append, ih, List.foldl_cons, List.foldl_nil, h]

/-- The state with a strip store buffer. -/
def State.buffered (u : State) (b : List StoreEntry) : State := u.withHart fun h => { h with sbuf := b }

/-- With no strip the stores of a buffer go home once the entries before them have retired (R24, R238). -/
theorem State.settleStores_home {u : State} {b : List StoreEntry} (hs : u.hart.strip = none) (hc : u.hart.closing = [])
    (hb : ∀ e ∈ b, e.after < u.hart.oldest ∧ u.homeMemory e.pa) :
    (u.buffered b).settleStores = ({ u with store := b.foldl Store.written u.store } : State).buffered [] := by
  have clos : (u.buffered b).hart.closing = [] := hc
  have closed : ((u.buffered b).withHart fun h => { h with closing := h.closing.filter fun t => decide (h.oldest ≤ t.closedAt) }) =
      u.buffered b := by
    refine State.withHart_congr (g := id) ?_
    rw [clos, List.filter_nil, ← clos]
    rfl
  have visible : ∀ e ∈ b, (u.buffered b).hart.visible e = true := fun e he => by
    have gone : (u.buffered b).hart.stripOf e.strip = none := by
      rw [Hart.stripOf, show (u.buffered b).hart.strip = none from hs, clos]
      rfl
    rw [Hart.visible, gone, decide_eq_true (show e.after < (u.buffered b).hart.oldest from (hb e he).1)]
    rfl
  have kept : b.filter (fun e => !(u.buffered b).hart.visible e) = [] :=
    List.filter_eq_nil_iff.2 fun e he => by simp [visible e he]
  rw [State.settleStores, closed, State.flushStores, show (u.buffered b).hart.sbuf = b from rfl, List.filter_eq_self.2 visible,
    State.performStores_home (u := u.buffered b) fun e he => (hb e he).2]
  exact State.withHart_congr (s := { u with store := b.foldl Store.written u.store })
    (f := fun h => { h with sbuf := b.filter fun e => !(u.buffered b).hart.visible e }) (by rw [kept])

/-- An entry of no strip commits nothing but what is due. -/
theorem State.commitEntry_stripless {u : State} (hs : u.hart.strip = none) (hc : u.hart.closing = []) (e : VEntry) :
    u.commitEntry e = u.settleStores := by
  have same : (u.withHart fun h => { h with
      strip := h.strip.filter fun t => t.id != e.strip, closing := h.closing.filter fun t => t.id != e.strip }) = u :=
    State.withHart_congr (g := id) (by
      rw [hs, hc, List.filter_nil, Option.filter_none, ← hs, ← hc]
      rfl)
  rw [State.commitEntry, same]

/-! ### Equal stores made one after the other -/

/-- The buffered store of a posted instruction (R139). -/
def State.vectorStore (u : State) (q : VEntry) (p : VStore) : StoreEntry :=
  ⟨p.pa, p.bytes, p.kind, q.seq - 1, q.strip, u.hart.xctx.ctxid, p.va.toNat⟩

section
variable {u : State} {q : VEntry} {p : VStore} {b : List StoreEntry}

theorem State.writeVector_room (hk : p.kind ≠ .so) (hr : bufferedBytes b + p.bytes.length ≤ 65536) :
    (u.buffered b).writeVector q p.va p.pa p.bytes p.kind = u.buffered (insertStore (u.vectorStore q p) b) := by
  have room : (u.buffered b).hart.wouldOverflow p.bytes.length = false := decide_eq_false (Nat.not_lt.2 hr)
  rw [State.writeVector, if_neg hk, room]
  rfl

theorem State.writeVector_overflow (hk : p.kind ≠ .so) (ho : 65536 < bufferedBytes b + p.bytes.length)
    (hs : u.hart.strip = none) (hc : u.hart.closing = []) (hb : ∀ e ∈ b, e.after < u.hart.oldest ∧ u.homeMemory e.pa) :
    (u.buffered b).writeVector q p.va p.pa p.bytes p.kind =
      ({ u with store := b.foldl Store.written u.store } : State).buffered [u.vectorStore q p] := by
  have full : (u.buffered b).hart.wouldOverflow p.bytes.length = true := decide_eq_true ho
  rw [State.writeVector, if_neg hk, full, if_pos rfl, State.commitEntry_stripless (u := u.buffered b) hs hc,
    State.settleStores_home hs hc hb]
  rfl

theorem insertStore_replicate (e : StoreEntry) (n : Nat) : insertStore e (List.replicate n e) = List.replicate (n + 1) e := by
  induction n with
  | zero => rfl
  | succ n ih => rw [List.replicate_succ, insertStore, if_neg (Nat.lt_irrefl _), ih, ← List.replicate_succ]

theorem bufferedBytes_replicate (e : StoreEntry) (n : Nat) : bufferedBytes (List.replicate n e) = n * e.bytes.length := by
  simp [bufferedBytes]

/-- Equal stores fill the buffer. -/
theorem State.writeVectors_fill (hk : p.kind ≠ .so) (n : Nat) (hr : n * p.bytes.length ≤ 65536) :
    (List.replicate n p).foldl (fun t p => t.writeVector q p.va p.pa p.bytes p.kind) (u.buffered []) =
      u.buffered (List.replicate n (u.vectorStore q p)) := by
  induction n with
  | zero => rfl
  | succ n ih =>
    rw [Nat.succ_mul] at hr
    rw [List.replicate_succ', List.foldl_append, ih (by omega), List.foldl_cons, List.foldl_nil, State.writeVector_room hk,
      insertStore_replicate]
    rw [bufferedBytes_replicate]
    exact hr

/-- Equal stores that fill the buffer, and one more: the buffer commits, and holds the last one (R24). -/
theorem State.writeVectors_overflow (hk : p.kind ≠ .so) (hs : u.hart.strip = none) (hc : u.hart.closing = [])
    (ha : q.seq - 1 < u.hart.oldest) (hh : u.homeMemory p.pa) {n : Nat} (hr : (n + 1) * p.bytes.length ≤ 65536)
    (ho : 65536 < (n + 2) * p.bytes.length)
    (again : (u.store.written (u.vectorStore q p)).written (u.vectorStore q p) = u.store.written (u.vectorStore q p)) :
    (List.replicate (n + 2) p).foldl (fun t p => t.writeVector q p.va p.pa p.bytes p.kind) (u.buffered []) =
      ({ u with store := u.store.written (u.vectorStore q p) } : State).buffered [u.vectorStore q p] := by
  rw [List.replicate_succ', List.foldl_append, State.writeVectors_fill hk _ hr, List.foldl_cons, List.foldl_nil,
    State.writeVector_overflow hk ?_ hs hc ?_, Store.written_replicate again]
  · rw [bufferedBytes_replicate, show (u.vectorStore q p).bytes = p.bytes from rfl, ← Nat.succ_mul]
    exact ho
  · intro e he
    rw [List.eq_of_mem_replicate he]
    exact ⟨ha, hh⟩

/-- Equal stores are not joined. -/
theorem joinStores_replicate (hp : p.bytes ≠ []) (n : Nat) : joinStores (List.replicate n p) = List.replicate n p := by
  have apart : p.joins p = false := by
    have behind : (p.pa + p.bytes.length == p.pa) = false := by simpa using hp
    rw [VStore.joins, behind, Bool.and_false, Bool.false_and]
  induction n with
  | zero => rfl
  | succ n ih =>
    rw [List.replicate_succ, joinStores, ih]
    cases n with
    | zero => rfl
    | succ n => simp only [List.replicate_succ, apart, Bool.false_eq_true, if_false]

theorem State.makeStores_replicate (hk : p.kind ≠ .so) (hp : p.bytes ≠ []) (n : Nat) :
    u.makeStores q (List.replicate n p) =
      (List.replicate n p).foldl (fun t p => t.writeVector q p.va p.pa p.bytes p.kind) u := by
  have ordinary : ((List.replicate n p).any fun p => p.kind == .so) = false := List.any_eq_false.2 fun x hx => by
    rw [List.eq_of_mem_replicate hx]
    simpa using hk
  rw [State.makeStores, ordinary, joinStores_replicate hp]
  rfl

end

/-! ### The places of stores -/

section
variable {s : State} {st : Option Strip} {vrf masks : Mem} {f e : VEntry} {r : VResult} {k : AccessKind}

/-- A check that succeeds and changes nothing is the same for the entry in flight. -/
theorem State.checkAt_inFlight {pa : Nat} (h : s.checkAt k pa = (s, .ok ())) :
    (s.inFlight st vrf masks f r).checkAt k pa = (s.inFlight st vrf masks f r, .ok ()) := by
  have me : (s.inFlight st vrf masks f r).me = s.me := State.me_withHart (s.hart.inFlight_sameAccess st vrf masks f r)
  have check : (s.inFlight st vrf masks f r).physCheck s.me k pa =
      ((s.physCheck s.me k pa).1.withHart fun h => h.inFlight st vrf masks f r, (s.physCheck s.me k pa).2) :=
    (State.physCheck_probe s.me k pa).withHart s _
  unfold State.checkAt at h ⊢
  rw [me, check]
  rcases hp : s.physCheck s.me k pa with ⟨t, _ | _ | _⟩ <;> rw [hp] at h <;> dsimp only at h ⊢
  · obtain ⟨rfl, -⟩ := Prod.mk.inj h
    rfl
  · exact absurd (Prod.mk.inj h).2 (by simp)
  · exact absurd (Prod.mk.inj h).2 (by split <;> simp)

/-- The place of an element whose store is accepted (R134). -/
theorem State.placeElem_stores (he : e.accessing s) {m : MemElem} {n : Nat} {p : Nat × PageKind} (h : s.storesAt m.va p) :
    (s.inFlight st vrf masks f r).placeElem e .store n m = (s.inFlight st vrf masks f r, ⟨m, .ok p⟩) := by
  obtain ⟨-, hl, hc⟩ := h
  rw [State.placeElem, State.locateAt_inFlight he hl]
  dsimp only
  rw [State.checkAt_inFlight hc]

end

/-- A scatter under R136 some of whose elements fault, on ordinary pages: the others are stored, and the rest is left with cause
0x09. -/
theorem State.runPartial_faults {u : State} {e : VEntry} {k : AccessKind} {n : Nat} {m : MReg} {es : List MemElem}
    {place : MemElem → MemPlace} (perform : List MemPlace → State → State) (ha : ∀ go, u.alignedAll e m n go = go u)
    (hes : u.elemsFrom e m 0 = es) (hc : ∀ x ∈ es, u.placeElem e k n x = (u, place x))
    (hf : ∀ x ∈ es, (place x).ecc = none ∧ (place x).noPath = false ∧ (place x).place.2 ≠ .so)
    (hb : u.hart.marks.badRegs = []) (hl : (es.map place).filter (fun q => !q.good) ≠ []) :
    u.runPartial e k n m false perform =
      stopped ((perform ((es.map place).filter MemPlace.good) u).writeM15 e
        (((es.map place).filter fun q => !q.good).map fun q => q.elem.pos e))
        (vtrap e 0x09 ((((es.map place).find? fun q => !q.good).map fun q => q.elem.va).getD 0) none 0) := by
  have each : ∀ q ∈ es.map place, q.ecc = none ∧ q.noPath = false ∧ q.place.2 ≠ .so := fun q hq => by
    obtain ⟨x, hx, rfl⟩ := List.mem_map.1 hq
    exact hf x hx
  have ecc := State.eccAmong_none (u := u) (e := e) (k := k) (n := n) (fun q hq => (each q hq).1) hb
  have paths : (es.map place).any MemPlace.noPath = false := List.any_eq_false.2 fun q hq => by simp [(each q hq).2.1]
  have still : u.commitSo e ((es.map place).filter MemPlace.good) = u :=
    State.commitSo_ordinary fun q hq => (each q (List.mem_filter.1 hq).1).2.2
  rw [State.runPartial, ha, hes, State.placeElems_still hc]
  simp only [ecc, paths, Bool.false_eq_true, if_false, Bool.false_and, Bool.or_false, Bool.not_false, Bool.and_true]
  rw [still]

end Sys2Proof.Machine
end
end

section
/-! PROOFS. A trap at a posted instruction whose handler has gone when it is taken (R11, R45, R371, R373). -/

noncomputable section

namespace Sys2Proof.Machine

/-! ### Double traps -/

theorem State.flushStores_power {u : State} (hh : ∀ e ∈ u.hart.sbuf, u.homeMemory e.pa) : u.flushStores.power = u.power := by
  have home : ∀ e ∈ u.hart.sbuf.filter u.hart.visible, u.homeMemory e.pa := fun e he => hh e (List.mem_filter.1 he).1
  rw [State.flushStores, State.performStores_home home]
  rfl

theorem State.settleStores_power {u : State} (hh : ∀ e ∈ u.hart.sbuf, u.homeMemory e.pa) : u.settleStores.power = u.power :=
  State.flushStores_power (u := u.withHart _) hh

/-- A double trap while a power-fail window is open stops the hart, and the removal of its launch is held (R373, R389). -/
theorem State.doubleTrap_window {u : State} (hw : u.power.window = true) (hh : ∀ e ∈ u.hart.sbuf, u.homeMemory e.pa)
    (cause : Nat) : (u.doubleTrap cause).hart.trap = u.hart.trap ∧ (u.doubleTrap cause).hart.viq = [] := by
  generalize hs : (u.withHart fun h =>
    { h.discardStores with viq := [], hist := [], marks := { h.marks with stopped := true, wait := .none } }) = w
  have home : ∀ e ∈ w.hart.sbuf, w.homeMemory e.pa := fun e he => by
    rw [← hs] at he ⊢
    exact hh e (List.mem_filter.1 he).1
  have window : w.settleStores.power.window = true := by
    rw [State.settleStores_power home, ← hs]
    exact hw
  have removal : (u.doubleTrap cause).hart = w.settleStores.hart := by
    unfold State.doubleTrap
    simp only [hs, State.beginRemoval]
    rw [if_pos (show (w.settleStores.updateLaunch _ _).power.window = true from window)]
    rfl
  obtain ⟨c, b, kept⟩ := w.settleStores_hart
  rw [removal, kept, ← hs]
  exact ⟨rfl, rfl⟩

/-- A handler at an illegal address is not entered (R45, R373). -/
theorem State.enterTrap_illegal {u w : State} {t : Trap} (hin : u.hart.trap.inTrap = false)
    (hi : u.targetIllegal .s u.hart.trap.tvec = (w, .ok true)) : u.enterTrap t = w.doubleTrap t.cause := by
  rw [State.enterTrap, if_neg (by simp [hin]), hi]

/-! ### The rollback to the one entry posted -/

/-- What a fetch and a trap look at in a hart, and the stores that may be due (R371). -/
structure Hart.sameContext (h k : Hart) : Prop where
  xctx : k.xctx = h.xctx
  ident : k.ident = h.ident
  trap : k.trap = h.trap
  wait : k.marks.wait = h.marks.wait
  sbuf : ∀ e ∈ k.sbuf, e ∈ h.sbuf

/-- With no younger instruction posted and nothing recorded there is nothing to undo (R9, R11). -/
theorem Hart.rollback_sameContext {h : Hart} {e : VEntry} (hv : ∀ q ∈ h.viq, q.e.seq ≤ e.seq) (hh : h.hist = []) :
    h.sameContext (h.rollback e) := by
  have younger : h.viq.filter (fun q => decide (e.seq < q.e.seq)) = [] :=
    List.filter_eq_nil_iff.2 fun q hq => by simpa using hv q hq
  unfold Hart.rollback
  simp only [younger, show h.takeBackAll [] = h from rfl, hh, List.filter_nil, List.reverse_nil, List.foldl_nil]
  exact ⟨rfl, rfl, rfl, rfl, fun x hx => (List.mem_filter.1 hx).1⟩

/-- The hart of a precise trap at an entry, before its handler is entered (R11, R22, R78, R263). -/
def Hart.stoppedAt (h : Hart) (e : VEntry) (r : VResult) (resume : Option Resume) : Hart :=
  let k := ((h.mergeFlags r.fflags).unpop r.pops).rollback e
  { k with viq := [], hist := [], v := { k.v with vresumeAt := resume } }

theorem State.trapEntry_eq (u : State) (e : VEntry) (t : Trap) :
    u.trapEntry e t = (u.withHart fun h => h.stoppedAt e u.workResult (u.resumeAt e t)).enterTrap t := rfl

theorem Hart.stoppedAt_sameContext {h : Hart} {e : VEntry} {r : VResult} (hv : ∀ q ∈ h.viq, q.e.seq ≤ e.seq) (hh : h.hist = [])
    (hp : r.pops = []) (resume : Option Resume) : h.sameContext (h.stoppedAt e r resume) := by
  unfold Hart.stoppedAt
  rw [hp]
  obtain ⟨hx, hd, ht, hw, hb⟩ := Hart.rollback_sameContext (h := h.mergeFlags r.fflags) (e := e) hv hh
  exact ⟨hx, hd, ht, hw, hb⟩

section
variable {s : State} {v : VInstr} {i : Instr}

/-- What comes of a plain entry whose work stops (R8, R11, R20). -/
theorem State.exec_stopped {u : State} {w : VStop} (hi : posted i = some v) (hr : s.vectorReady v) (hg : PlainVector v)
    (ha : ∀ go, (s.inFlight s.hart.strip s.hart.vrf s.hart.masks (s.entryOf v) .empty).alignedFirst (s.entryOf v) go =
      go (s.inFlight s.hart.strip s.hart.vrf s.hart.masks (s.entryOf v) .empty))
    (hrun : (s.begun v).runEntry (s.entryAt v (s.entryOf v).done) false = stopped u w) :
    exec i s = .next (State.retireReady (u.stopEntry (s.entryOf v) w).hart.viq.length (u.stopEntry (s.entryOf v) w)) := by
  have working : (s.begun v).hart.working = some ⟨s.entryAt v (s.entryOf v).done, s.begunResult v⟩ := State.inFlight_working rfl
  have attempt : (s.inFlight s.hart.strip s.hart.vrf s.hart.masks (s.entryOf v) .empty).attempt ⟨s.entryOf v, .empty⟩ false =
      stopped u w := by
    rw [State.attempt, State.beginEntry_inFlight hr hg ha]
    simp only [ran, working, Option.map_some, Option.getD_some]
    exact hrun
  have work : (s.inFlight s.hart.strip s.hart.vrf s.hart.masks (s.entryOf v) .empty).workEntry false ⟨s.entryOf v, .empty⟩ =
      u.stopEntry (s.entryOf v) w := by
    simp [State.workEntry, attempt, stopped]
  rw [exec_posted hi hg.tile, State.issueVector_posts hr.1 hg.commits, State.settle_inFlight hr.1 hg rfl rfl, work]

/-- A scatter writes no register, so it reads its sources as they stand (R21). -/
theorem State.begun_sources_idle (hw : vwrites v = []) (hm : vmaskWrite v = none) :
    (s.begun v).sources = (s.hart.vrf, s.hart.masks) := by
  rw [State.sources, State.begun, State.inFlight_workResult rfl, sourceVrf, sourceMasks, State.begunResult_noPrior hw,
    State.begunResult_noMask hm]
  rfl

/-- The handler gone when the one entry posted traps, the hart stops instead (R45, R373). -/
theorem State.trapEntry_illegal {u : State} {e : VEntry} {t : Trap} (hin : u.hart.trap.inTrap = false)
    (hi : u.targetIllegal .s u.hart.trap.tvec = (u, .ok true)) (hv : ∀ q ∈ u.hart.viq, q.e.seq ≤ e.seq) (hh : u.hart.hist = [])
    (hpop : u.workResult.pops = []) (hwin : u.power.window = true) (hhome : ∀ x ∈ u.hart.sbuf, u.homeMemory x.pa) :
    (u.trapEntry e t).hart.trap.inTrap = false ∧ (u.trapEntry e t).hart.viq = [] := by
  generalize hk : (u.withHart fun h => h.stoppedAt e u.workResult (u.resumeAt e t)) = w
  obtain ⟨hx, hd, ht, hw, hb⟩ := Hart.stoppedAt_sameContext hv hh hpop (u.resumeAt e t)
  have trap : w.hart.trap = u.hart.trap := by
    rw [← hk]
    exact ht
  have illegal : w.targetIllegal .s w.hart.trap.tvec = (w, .ok true) := by
    rw [trap, ← hk, State.targetIllegal_withHart hx hd hw, hi]
  obtain ⟨same, idle⟩ := State.doubleTrap_window (u := w) (by rw [← hk]; exact hwin)
    (fun x hx => by
      rw [← hk] at hx ⊢
      exact hhome x (hb x hx)) t.cause
  rw [State.trapEntry_eq, hk, State.enterTrap_illegal (by rw [trap, hin]) illegal, same, trap]
  exact ⟨hin, idle⟩

end

end Sys2Proof.Machine
end
end

section
/-! PROOFS. A scatter whose stores overwrite the first line of its own handler before it traps (R24, R45, R138, R377). -/

noncomputable section

namespace Sys2Proof.Machine

/-! ### A tile of one row whose last element faults -/

/-- The place of an element of a row whose elements below the last are stored at `p`. -/
def rowPlace (n : Nat) (p : Nat × PageKind) (f : AccFault) (m : MemElem) : MemPlace := ⟨m, if m.el < n then .ok p else .error f⟩

section
variable {n : Nat} {p : Nat × PageKind} {f : AccFault} {g : Nat → MemElem}

theorem rowPlace_good (m : MemElem) : (rowPlace n p f m).good = decide (m.el < n) := by
  unfold rowPlace MemPlace.good
  by_cases h : m.el < n <;> simp [h]

theorem rowPlace_sound {c x l : Nat} (hp : p.2 ≠ .so) (m : MemElem) :
    (rowPlace n p (.fault c x l) m).ecc = none ∧ (rowPlace n p (.fault c x l) m).noPath = false ∧
      (rowPlace n p (.fault c x l) m).place.2 ≠ .so := by
  unfold rowPlace MemPlace.ecc MemPlace.noPath MemPlace.place
  by_cases h : m.el < n <;> simp [h, hp]

theorem rowPlaces_good (hg : ∀ k, (g k).el = k) :
    (((List.range (n + 1)).map g).map (rowPlace n p f)).filter MemPlace.good = ((List.range n).map g).map (rowPlace n p f) := by
  rw [List.range_succ, List.map_append, List.map_append, List.filter_append, List.filter_eq_self.2, List.filter_eq_nil_iff.2,
    List.append_nil]
  · intro q hq
    simp only [List.map_cons, List.map_nil, List.mem_singleton] at hq
    simp [hq, rowPlace_good, hg]
  · intro q hq
    simp only [List.mem_map, List.mem_range] at hq
    obtain ⟨m, ⟨k, hk, rfl⟩, rfl⟩ := hq
    simp [rowPlace_good, hg, hk]

theorem rowPlaces_bad (hg : ∀ k, (g k).el = k) :
    (((List.range (n + 1)).map g).map (rowPlace n p f)).filter (fun q => !q.good) ≠ [] := by
  intro h
  have := List.filter_eq_nil_iff.1 h (rowPlace n p f (g n))
    (List.mem_map.2 ⟨_, List.mem_map.2 ⟨n, List.mem_range.2 (Nat.lt_succ_self n), rfl⟩, rfl⟩)
  simp [rowPlace_good, hg] at this

end

theorem tileElems_row (n : Nat) : tileElems 1 n = (List.range n).map fun k => (0, k) := by
  simp [tileElems, List.range_succ]

/-! ### The state -/

/-- VSTX of doubleword elements of v4 from x1, indexed by v6. -/
def scatterOps : VldxOps := ⟨4, 1, 6, .w64, 0⟩

/-- The scatter as it is posted. -/
def scatterPosted : VInstr := .vstx false scatterOps

/-- A tile of 8194 elements of which all but the last go to 0x208, in the line of the handler, and the last beyond 57 bits. The
line holds no well-formed header, so that its slot 5 is a legal target, until 0x208 holds 0; a power-fail window is open. -/
def sScatter : State :=
  let s := (sBase.xs [(1, 0x208)]).tiled 1 8194
  { s.withHart fun h => { h with
      scalar := { h.scalar with level := .s }
      trap := { h.trap with tvec := 0x205 }
      v := { h.v with share := 3 }
      vrf := vset [] 6 32 0 8193 0x80000000 } with
    store := { s.store with mem := memWrite (memWrite s.store.mem 0x8000000201 8) 0x8000000208 1 }
    tlb := [⟨0, 0, false, 0x800000001D, none⟩]
    power := { s.power with window := true } }

/-- The store of each element but the last. -/
def scatterStore : VStore := ⟨0x208, 0x8000000208, List.replicate 8 0, .rc⟩

/-- The entry of the scatter at work. -/
def scatterWork : VEntry := sScatter.entryAt scatterPosted (sScatter.entryOf scatterPosted).done

/-- The buffered store of each element but the last. -/
def scatterEntry : StoreEntry := (sScatter.begun scatterPosted).vectorStore scatterWork scatterStore

/-- The state with that store made. -/
def sScattered : State := { sScatter with store := sScatter.store.written scatterEntry }

theorem sScatter_ready : sScatter.vectorReady scatterPosted :=
  ⟨posts_of (by decide +kernel), by decide +kernel⟩

theorem sScatter_canTrap : sScatter.canTrap sScatter := by
  unfold State.canTrap
  decide +kernel

theorem sScatter_groupwise : sScatter.groupwise scatterPosted = false := by decide +kernel

/-- The handler's line is well formed once the store is made, and has no slot 5. -/
theorem sScattered_illegal : sScattered.targetIllegal .s 0x205 = (sScattered, .ok true) := by
  decide +kernel

theorem scatterEntry_again : (sScatter.store.written scatterEntry).written scatterEntry = sScatter.store.written scatterEntry := by
  decide +kernel

theorem sScatter_stores : sScatter.storesAt 0x208 (0x8000000208, .rc) := by
  unfold State.storesAt
  decide +kernel

theorem sScatter_faults : sScatter.locate .store 0xFFFFFFFF80000208 = (sScatter, .error (.fault 7 3 0)) := by
  decide +kernel

theorem sScatter_home : sScatter.homeMemory 0x8000000208 := home_of (d := 0) (by decide +kernel) (by decide +kernel)

/-! ### Its elements -/

theorem sScatter_active (m : Nat × Nat) (hm : m ∈ tileElems sScatter.hart.v.vrows sScatter.hart.v.vl) :
    sScatter.active (sScatter.maskOf scatterPosted scatterOps.m) m.1 m.2 = true := by
  obtain ⟨hr, he⟩ := mem_tileElems.1 hm
  have all : sScatter.maskOf scatterPosted scatterOps.m = 0 := by decide +kernel
  rw [all, State.active, decide_eq_true hr, decide_eq_true he]
  rfl

/-- The active elements are those of the row. -/
theorem sScatter_active_iff {r el : Nat} :
    sScatter.active (sScatter.maskOf scatterPosted scatterOps.m) r el = true ↔ r = 0 ∧ el < 8194 := by
  have size : sScatter.hart.v.vrows = 1 ∧ sScatter.hart.v.vl = 8194 := by decide +kernel
  rw [State.active_iff, List.mem_filter, mem_tileElems, size.1, size.2, Nat.lt_one_iff]
  refine ⟨fun h => h.1, fun h => ⟨h, sScatter_active (r, el) (mem_tileElems.2 ?_)⟩⟩
  rw [size.1, size.2, Nat.lt_one_iff]
  exact h

theorem sScatter_index {el : Nat} (he : el < 8194) :
    vget sScatter.hart.vrf 6 32 0 el = if el = 8193 then 0x80000000 else 0 := by
  rw [show sScatter.hart.vrf = vset [] 6 32 0 8193 0x80000000 from rfl,
    vget_vset rfl (by decide) (by decide) (by decide) (by omega), show vget [] 6 32 0 el = 0 from rfl]
  simp

theorem sScatter_memAddr {el : Nat} (he : el < 8194) :
    sScatter.memAddr (sScatter.entryOf scatterPosted) scatterPosted 0 el = if el < 8193 then 0x208 else 0xFFFFFFFF80000208 := by
  have base : (sScatter.entryOf scatterPosted).x0 = 0x208 := by decide +kernel
  have addr : sScatter.memAddr (sScatter.entryOf scatterPosted) scatterPosted 0 el =
      0x208 + (BitVec.ofNat 32 (vget sScatter.hart.vrf 6 32 0 el)).signExtend 64 := by
    have sources : sScatter.sources.1 = sScatter.hart.vrf := congrArg Prod.fst (State.sources_idle rfl)
    rw [← base, ← sources]
    rfl
  rw [addr, sScatter_index he]
  by_cases last : el = 8193
  · subst last
    decide
  · rw [if_neg last, if_pos (by omega)]
    decide

/-- Register v4 holds 0. -/
theorem sScatter_data {el : Nat} (he : el < 8194) : natBytes 8 (vget sScatter.hart.vrf 4 64 0 el) = List.replicate 8 0 := by
  have other : readBytes sScatter.hart.vrf (vkey 4 0 (el * 8)) 8 = readBytes [] (vkey 4 0 (el * 8)) 8 :=
    readBytes_writeBytes_of_disjoint [] (vkey 6 0 (8193 * 4)) (vkey 4 0 (el * 8)) 8 (natBytes 4 0x80000000) rfl
      (by simp only [vkey]; omega)
  rw [vget, if_neg (by decide), readNat, other, show readBytes [] (vkey 4 0 (el * 8)) 8 = List.replicate 8 0 from rfl]
  decide

theorem sScatter_aligned : sScatter.allAligned scatterPosted scatterOps.m scatterOps.w.bytes := by
  intro r el h
  obtain ⟨rfl, he⟩ := sScatter_active_iff.1 h
  rw [sScatter_memAddr he]
  split <;> decide

/-! ### Its run -/

/-- The element of the row at a position, with its address. -/
def scatterElem (k : Nat) : MemElem := sScatter.memElem scatterPosted (0, k)

/-- The place of an element of the row. -/
def scatterPlace : MemElem → MemPlace := rowPlace 8193 (0x8000000208, .rc) (.fault 7 3 0)

theorem scatter_sources : (sScatter.begun scatterPosted).sources = (sScatter.hart.vrf, sScatter.hart.masks) :=
  State.begun_sources_idle rfl rfl

theorem scatter_elems :
    (sScatter.begun scatterPosted).elemsFrom scatterWork scatterOps.m 0 = (List.range 8194).map scatterElem := by
  have size : sScatter.hart.v.vrows = 1 ∧ sScatter.hart.v.vl = 8194 := by decide +kernel
  rw [State.elemsFrom_whole (e := scatterWork) rfl (sScatter.entryAt_workOf scatterPosted _) scatter_sources rfl sScatter_groupwise,
    List.filter_eq_self.2 sScatter_active, size.1, size.2, tileElems_row, List.map_map]
  rfl

theorem scatter_places (m : MemElem) (hm : m ∈ (List.range 8194).map scatterElem) :
    (sScatter.begun scatterPosted).placeElem scatterWork .store scatterOps.w.bytes m =
      (sScatter.begun scatterPosted, scatterPlace m) := by
  obtain ⟨k, hk, rfl⟩ := List.mem_map.1 hm
  have work := (sScatter.entryAt_workOf scatterPosted (sScatter.entryOf scatterPosted).done).accessing
  have addr : (scatterElem k).va = _ := sScatter_memAddr (List.mem_range.1 hk)
  have el : (scatterElem k).el = k := rfl
  unfold scatterPlace rowPlace
  by_cases last : k < 8193
  · rw [if_pos last] at addr
    rw [el, if_pos last]
    exact State.placeElem_stores work (by rw [addr]; exact sScatter_stores)
  · rw [if_neg last] at addr
    rw [el, if_neg last]
    exact State.placeElem_faults work (by rw [addr]; exact sScatter_faults)

/-- Every element but the last makes the same store. -/
theorem scatter_sameStores :
    (((List.range 8193).map scatterElem).map scatterPlace).map (storeOf sScatter.hart.vrf scatterOps.d scatterOps.w.bits) =
      List.replicate 8193 scatterStore := by
  rw [List.map_map, List.map_map]
  refine (List.map_congr_left fun k hk => ?_).trans ((List.map_const' ..).trans (by rw [List.length_range]))
  have small := List.mem_range.1 hk
  have place : scatterPlace (scatterElem k) = ⟨scatterElem k, .ok (0x8000000208, .rc)⟩ := by
    unfold scatterPlace rowPlace
    rw [if_pos (show (scatterElem k).el < 8193 from small)]
  have addr : (scatterElem k).va = 0x208 := by
    rw [← if_pos (t := (0x208 : Word)) (e := 0xFFFFFFFF80000208) small]
    exact sScatter_memAddr (by omega)
  have data := sScatter_data (el := k) (by omega)
  simp only [Function.comp_apply, place, storeOf, addr]
  exact congrArg (VStore.mk 0x208 0x8000000208 · .rc) data

/-- The state when the scatter has made its stores: the buffer committed before the last one (R24). -/
def sScatterDone : State :=
  ({ sScatter.begun scatterPosted with
    store := (sScatter.begun scatterPosted).store.written scatterEntry } : State).buffered [scatterEntry]

theorem scatter_performed : (sScatter.begun scatterPosted).makeStores scatterWork (List.replicate 8193 scatterStore) =
    sScatterDone := by
  have ordinary : scatterStore.kind ≠ .so := by decide
  have bytes : scatterStore.bytes.length = 8 := rfl
  have strip : (sScatter.begun scatterPosted).hart.strip = none := by decide +kernel
  have closing : (sScatter.begun scatterPosted).hart.closing = [] := by decide +kernel
  have due : scatterWork.seq - 1 < (sScatter.begun scatterPosted).hart.oldest := by decide +kernel
  have empty : (sScatter.begun scatterPosted).buffered [] = sScatter.begun scatterPosted := rfl
  have run := State.writeVectors_overflow (u := sScatter.begun scatterPosted) (q := scatterWork) (p := scatterStore) (n := 8191)
    ordinary strip closing due sScatter_home (by rw [bytes]) (by rw [bytes]; decide) scatterEntry_again
  rw [State.makeStores_replicate ordinary (by decide)]
  rw [empty] at run
  exact run

/-- The positions left undone. -/
def scatterLeft : List Nat :=
  ((((List.range 8194).map scatterElem).map scatterPlace).filter fun q => !q.good).map fun q => q.elem.pos scatterWork

/-- The state in which the scatter stops, with m15 written (R136). -/
def sScatterStopped : State := sScatterDone.writeM15 scatterWork scatterLeft

/-- The address of the lowest element left undone. -/
def scatterVa : Word :=
  (((((List.range 8194).map scatterElem).map scatterPlace).find? fun q => !q.good).map fun q => q.elem.va).getD 0

theorem scatter_run : (sScatter.begun scatterPosted).runEntry scatterWork false =
    stopped sScatterStopped (vtrap scatterWork 0x09 scatterVa none 0) := by
  have aligned : ∀ go, (sScatter.begun scatterPosted).alignedAll scatterWork scatterOps.m scatterOps.w.bytes go =
      go (sScatter.begun scatterPosted) := fun go =>
    State.alignedAll_workOf rfl (sScatter.entryAt_workOf scatterPosted _) scatter_sources rfl sScatter_aligned go
  have whole : (sScatter.begun scatterPosted).runWhole scatterWork =
      stopped sScatterStopped (vtrap scatterWork 0x09 scatterVa none 0) := by
    show (sScatter.begun scatterPosted).runVstx scatterWork false scatterOps = _
    rw [State.runVstx, scatter_sources, State.runPartial_faults _ aligned scatter_elems scatter_places (fun x _ => ?_)
      (by decide +kernel) (rowPlaces_bad fun _ => rfl)]
    · have good := rowPlaces_good (n := 8193) (p := (0x8000000208, .rc)) (f := .fault 7 3 0) (g := scatterElem) fun _ => rfl
      rw [show rowPlace 8193 (0x8000000208, .rc) (.fault 7 3 0) = scatterPlace from rfl] at good
      simp only [State.scatter, Bool.false_eq_true, if_false, good, scatter_sameStores, scatter_performed]
      rfl
    · exact rowPlace_sound (by decide) x
  rw [State.runEntry, show (sScatter.begun scatterPosted).groupwise scatterWork.instr = false from sScatter_groupwise, whole]
  rfl

/-- The scatter ends in a double trap (R373). -/
theorem scatter_doubleTraps : ∃ t, exec (.vstx scatterOps) sScatter = .next t ∧ t.hart.trap.inTrap = false := by
  have run := State.exec_stopped (i := .vstx scatterOps) (v := scatterPosted) rfl sScatter_ready ⟨rfl, rfl, rfl, rfl⟩
    (State.alignedFirst_inFlight (m := scatterOps.m) (w := scatterOps.w) rfl (fun _ _ _ => rfl) sScatter_aligned) scatter_run
  have illegal : sScatterStopped.targetIllegal .s 0x205 = (sScatterStopped, .ok true) := by
    have moved : sScattered.withHart (fun _ => sScatterStopped.hart) = sScatterStopped := rfl
    rw [← moved, State.targetIllegal_withHart rfl rfl rfl, sScattered_illegal]
  have result : sScatterStopped.workResult.pops = [] := rfl
  obtain ⟨trap, idle⟩ := State.trapEntry_illegal (u := sScatterStopped) (e := sScatter.entryOf scatterPosted)
    (t := ⟨0x09, scatterVa, 0, scatterWork.pc, none, some 0⟩) rfl illegal (fun q hq => by
      rw [List.mem_singleton.1 hq]
      exact Nat.le_refl _) rfl result rfl (fun x hx => by
      rw [List.mem_singleton.1 hx]
      exact sScatter_home)
  refine ⟨_, run, ?_⟩
  rw [show sScatterStopped.stopEntry (sScatter.entryOf scatterPosted) (vtrap scatterWork 0x09 scatterVa none 0) =
    sScatterStopped.trapEntry (sScatter.entryOf scatterPosted) ⟨0x09, scatterVa, 0, scatterWork.pc, none, some 0⟩ from rfl, idle]
  exact trap

/-- Refutes O33: the first 8192 stores of the scatter fill the strip store buffer, the next one commits them, and they make the
handler's slot an illegal target (R24, R45); so the trap of the last element, when it comes, is a double trap (R373). -/
theorem not_vectorStores : ¬ Obligations.VectorStores := by
  rintro ⟨-, partialFaults⟩
  obtain ⟨-, stores⟩ := partialFaults (.vstx scatterOps) sScatter sScatter scatterPosted scatterOps .store
    (fun _ el => el != 8193) 0 8193 rfl sScatter_ready (by decide +kernel) (by decide +kernel) sScatter_canTrap sScatter_aligned
    (sScatter_active_iff.2 ⟨rfl, by decide⟩) rfl (fun r e h hlt => by
      obtain ⟨rfl, -⟩ := sScatter_active_iff.1 h
      simp only [bne_iff_ne, ne_eq]
      omega) (fun r e h hok => by
      obtain ⟨rfl, he⟩ := sScatter_active_iff.1 h
      obtain rfl : e = 8193 := by simpa using hok
      exact ⟨7, 3, 0, by rw [sScatter_memAddr he]; exact sScatter_faults⟩)
  obtain ⟨t, ht, ⟨-, -, -, -, inTrap, -⟩, -⟩ := stores false (fun _ _ => (0x8000000208, .rc)) rfl rfl fun r e h hok => by
    obtain ⟨rfl, he⟩ := sScatter_active_iff.1 h
    have hlt : e < 8193 := by
      simp only [bne_iff_ne, ne_eq] at hok
      omega
    rw [sScatter_memAddr he, if_pos hlt]
    exact ⟨sScatter_stores, sScatter_home⟩
  obtain ⟨u, hu, out⟩ := scatter_doubleTraps
  obtain rfl : t = u := Host.Outcome.next.inj (ht.symm.trans hu)
  rw [inTrap] at out
  exact absurd out (by decide)

end Sys2Proof.Machine
end
end

section
/-! PROOFS. A misaligned element that VRESUME counts as complete (R22, R133). -/

noncomputable section

namespace Sys2Proof.Machine

/-- VLD of word elements into v4 from x1. -/
def resumedLoad : VInstr := .vld false ⟨4, 1, 0, .w32, 0⟩

/-- A tile of one element whose load ERET resumes behind its only lane group, with a misaligned base in x1. -/
def sResumed : State :=
  ((State.reset.withLine (bytesOfWords (tableLine 16 0x4000))).setX 1 0x201).withHart fun h => { h with
    v := { h.v with vl := 1, vrows := 1, nvCode := 3, vresume := 1 }
    marks := { h.marks with resuming := true } }

theorem sResumed_ready : sResumed.vectorReady resumedLoad := by
  unfold State.vectorReady State.vectorPosts State.idleUnits State.mayUse Hart.orderly Hart.timely Hart.quiet
  decide +kernel

theorem sResumed_canTrap : sResumed.canTrap sResumed := by
  unfold State.canTrap
  decide +kernel

/-- The cause that the hart has after an instruction. -/
def causeAfter (i : Instr) (s : State) : Option (BitVec 8) :=
  match exec i s with
  | .next t => some t.hart.trap.cause
  | _ => none

theorem causeAfter_of_next {i : Instr} {s t : State} (h : exec i s = .next t) : causeAfter i s = some t.hart.trap.cause := by
  simp [causeAfter, h]

/-- The element was complete before the trap, so the load does not look at it again (R22). -/
theorem sResumed_completes : causeAfter (.vld ⟨4, 1, 0, .w32, 0⟩) sResumed = some 0 := by
  decide +kernel

/-- Refutes O35: the one active element of the tile is misaligned, but VRESUME counts its lane group as complete, and the
resumed load completes without a look at it (R22). -/
theorem not_vectorAlignment : ¬ Obligations.VectorAlignment := by
  intro h
  obtain ⟨t, ht, hc, -⟩ := h (.vld ⟨4, 1, 0, .w32, 0⟩) sResumed sResumed resumedLoad 0 4 0 0 rfl rfl sResumed_ready
    (by decide +kernel) sResumed_canTrap (by decide +kernel) (by decide +kernel) fun r e _ hlt => by simp at hlt
  have same := causeAfter_of_next ht
  rw [sResumed_completes, hc] at same
  exact absurd same (by decide)

end Sys2Proof.Machine
end
end
